-- ==== Sys2Proof/Word.lean ====
section
/-! DEFINITION. The two word types of the block: the 128-bit RAM word (R7, R70) and the packet byte
(R75). Every other width is a `Nat` below a power of two, as `10_state.md` rule R20 allows. -/

namespace Sys2Proof

/-- One word of every RAM space: "a 128-bit RAM word" (R7 `RAM_WORD_BITS`, R14). -/
abbrev Word := BitVec 128

/-- One byte of a packet; byte 0 is the first on the wire (R75). -/
abbrev Byte := BitVec 8

end Sys2Proof
end

