-- ==== Sys2Proof/Machine/Bits.lean ====
section
/-! DEFINITION. The BitVector primitives of `40_bitvector.md` on natural numbers: a `BitVector<N>` is a
number below two to `N` (R20). -/

namespace Sys2Proof

/-- `2^n - 1`. -/
def ones (n : Nat) : Nat := 2 ^ n - 1

/-- `~v` within `n` bits (R13). -/
def notBits (n v : Nat) : Nat := ones n ^^^ (v % 2 ^ n)

/-- `s_N(v)`, the signed reading of an `N`-bit pattern (R13, R256). -/
def signed (n v : Nat) : Int :=
  if 2 ^ (n - 1) ≤ v % 2 ^ n ∧ 0 < n then (v % 2 ^ n : Int) - 2 ^ n else (v % 2 ^ n : Int)

/-- `u_N(v)` of an integer (R13). -/
def unsigned (n : Nat) (v : Int) : Nat := (v % 2 ^ n).toNat

/-- Bits `off + n - 1 .. off` of a `BitVector<N>`, 0 where it has no bits (R141, R151). -/
def getBits (N v off n : Nat) : Nat :=
  if n = 0 ∨ N ≤ off then 0 else v / 2 ^ off % 2 ^ n

/-- The field mask of `set_word`: `n` ones at `off`, cut at bit `N` (R142). -/
def fieldMask (N off n : Nat) : Nat := ones n * 2 ^ off % 2 ^ N

/-- `v` with bits `off + n - 1 .. off` replaced by `x`, bits at positions from `N` dropped (R142, R152). -/
def setBits (N v x off n : Nat) : Nat :=
  if n = 0 ∨ N ≤ off then v
  else
    let m := fieldMask N off n
    (v &&& notBits N m) ||| ((x % 2 ^ n * 2 ^ off) &&& m)

/-- `from_words` (R143). -/
def fromWords (N : Nat) (ws : List (BitVec 64)) : Nat :=
  (ws.foldr (fun w acc => w.toNat + 2 ^ 64 * acc) 0) % 2 ^ N

/-- `tcam_compare` (R144). -/
def tcamCompare (N w0 w1 s0 s1 : Nat) : Bool :=
  ((notBits N w0 &&& s0) ||| (notBits N w1 &&& s1)) % 2 ^ N == 0

/-- The search pattern `(s0, s1)` of a key (R145). -/
def searchEncode (N k : Nat) : Nat × Nat := (notBits N k, k % 2 ^ N)

/-- `masked_s0q1_s1q0_equals` (R147). -/
def asymmetricEquals (N stored query m01 m10 : Nat) : Bool :=
  ((notBits N stored &&& query &&& m01) ||| (stored &&& notBits N query &&& m10)) % 2 ^ N == 0

/-- `masked_equals` (R148). -/
def maskedEquals (v w m : Nat) : Bool := (v ^^^ w) &&& m == 0

/-- The number of one bits among the low `n` (R149). -/
def popcount : Nat → Nat → Nat
  | 0, _ => 0
  | n + 1, v => v % 2 + popcount n (v / 2)

/-- `parity` (R149). -/
def parity (n v : Nat) : Nat := popcount n v % 2

/-- `byte_shift_left` (R150); a shift of all the bytes or more gives 0. -/
def byteShiftLeft (N v k : Nat) : Nat := if N ≤ 8 * k then 0 else v * 2 ^ (8 * k) % 2 ^ N

/-- `byte_shift_right` (R150). -/
def byteShiftRight (N v k : Nat) : Nat := if N ≤ 8 * k then 0 else v / 2 ^ (8 * k)

/-- Bits of a RAM word (R73). -/
def wordBits (w : Word) (off n : Nat) : Nat := getBits 128 w.toNat off n

/-- A RAM word with a field replaced (R142). -/
def wordSet (w : Word) (x off n : Nat) : Word := BitVec.ofNat 128 (setBits 128 w.toNat x off n)

end Sys2Proof
end

