-- ==== Sys2Proof/Machine/Types.lean ====
section
/-! DEFINITION. The plain-data types of the block: the records of `10_state.md`, the operands of the
operations, the errors and interrupt sources of `60_exceptions.md`. Types only; no behaviour. -/

namespace Sys2Proof

/-! ### Sparse indexed data -/

/-- Sparse data by index tuple: an unlisted key reads as the reader's default value. The canonical
form (keys strictly rising, no entry equal to the default) is `Store.wf` of `Machine/Store.lean`. -/
abbrev Store (α : Type) := List (List Nat × α)

/-! ### Names -/

/-- `CHIP` (R2, R8). -/
inductive Chip | tofino | jbay
  deriving DecidableEq, Repr, Inhabited

/-- `SEL_MOD_DEF` (R8, R227). -/
inductive SelModDef | liveCount | msbPlus1
  deriving DecidableEq, Repr, Inhabited

/-- The half of the pipeline a PHV is in (R16, R25). -/
inductive Gress | ingress | egress
  deriving DecidableEq, Repr, Inhabited

/-- Address type of a table operation control (R49, R50). -/
inductive AType | idle | stats
  deriving DecidableEq, Repr, Inhabited

/-- The RAM spaces of R70 that `RAM_WRITE` and `RAM_READ` reach. -/
inductive Space | sram | stats | salu | sel | tcam | gw
  deriving DecidableEq, Repr, Inhabited

/-- The ALU kinds that answer read data (R543). -/
inductive AluKind | stats | salu | sel
  deriving DecidableEq, Repr, Inhabited

/-- The two compare units of a stateful ALU (R108: `CMP0`, `CMP1`). -/
inductive CmpUnit | zero | one
  deriving DecidableEq, Repr, Inhabited

/-- The two arithmetic/logic units of a stateful ALU (R108: `ALU_LO`, `ALU_HI`). -/
inductive Half | lo | hi
  deriving DecidableEq, Repr, Inhabited

/-- `lo_add_ran` (R44). -/
inductive LoAddRan | none | add | sub
  deriving DecidableEq, Repr, Inhabited

/-- The four snapshot states (R361). -/
inductive SnapState | passive | armed | triggerHappy | full
  deriving DecidableEq, Repr, Inhabited

/-- The `kind` of a packet (R24). -/
inductive PacketKind | rx | pgen | resubmit | fromTm
  deriving DecidableEq, Repr, Inhabited

/-- The state of a worker (R430). -/
inductive WState | scanning | waiting | processing | stopped
  deriving DecidableEq, Repr, Inhabited

/-- A request of the datapath to a stateful counter (R541 `ctr_op`). -/
inductive CtrReq | none | push | pop
  deriving DecidableEq, Repr, Inhabited

/-- The two queues of the sweeper (R51). -/
inductive QueueSel | hi | lo
  deriving DecidableEq, Repr, Inhabited

/-- The two bus kinds of a row (R170, R171). -/
inductive BusKind | matchBus | tindBus
  deriving DecidableEq, Repr, Inhabited

/-- The direction of a byte shift (R150). -/
inductive ShiftDir | left | right
  deriving DecidableEq, Repr, Inhabited

/-- The eight kinds of sweeper operation (R50, R116). -/
inductive OpCode
  | intervalSet | lock | unlock | sweep | dump | dumpWord | evictWord | barrier
  deriving DecidableEq, Repr, Inhabited

/-! ### Packets, tables, sweeper operations -/

/-- A packet (R24). -/
structure Packet where
  bytes : List Byte := []
  port  : Nat := 0
  pipe  : Nat := 0
  kind  : PacketKind := .rx
  id    : Nat := 0
  deriving DecidableEq, Repr, Inhabited

/-- The (pipe, stage, logical-table) triple that names a `TableInfo` (R49). -/
structure TableId where
  pipe  : Nat := 0
  stage : Nat := 0
  lt    : Nat := 0
  deriving DecidableEq, Repr, Inhabited

/-- A sweeper operation record (R50). -/
structure Op where
  table  : TableId := {}
  atype  : AType := .idle
  opcode : OpCode := .intervalSet
  arg    : BitVec 64 := 0
  epoch  : BitVec 8 := 0
  deriving DecidableEq, Repr, Inhabited

/-- Lock count, epoch, running count and last epoch of a table (R49). -/
structure TableOpCtl where
  lockCount : Nat := 0
  epoch     : BitVec 8 := 0
  running   : Nat := 0
  lastEpoch : BitVec 8 := 0
  deriving DecidableEq, Repr, Inhabited

/-! ### RAM addresses and values -/

/-- An address of a RAM space (R70). `unit` is the row of `SRAM` and `GW` and the ALU of `STATS`,
`SALU`, `SEL` (0 for `TCAM`); `col` is the SRAM column (0 elsewhere); `index` is the word or entry. -/
structure RamAddr where
  space : Space := .sram
  pipe  : Nat := 0
  stage : Nat := 0
  unit  : Nat := 0
  col   : Nat := 0
  index : Nat := 0
  deriving DecidableEq, Repr, Inhabited

/-- A ternary entry `(w0, w1)` (R30). -/
structure TcamEntry where
  w0 : Nat := 0
  w1 : Nat := 0
  deriving DecidableEq, Repr, Inhabited

/-- A gateway entry (R31). -/
structure GwEntry where
  valid  : Bool := false
  stored : Nat := 0
  m01    : Nat := 0
  m10    : Nat := 0
  deriving DecidableEq, Repr, Inhabited

/-- A value of the unit of a RAM space (R70, column `unit`). -/
inductive RamVal
  | word (w : Word)
  | tcam (e : TcamEntry)
  | gw (e : GwEntry)
  deriving DecidableEq, Repr, Inhabited

/-! ### Per-cycle and hidden records -/

/-- A shared output bus of a row for the current cycle (R41). `hit` is what R165 records: column and
SRAM index of the column whose write last changed the bus. A bus not in use has `prio`, `group` and `hit` 0, the first
two "meaningless" by R41 (DESIGN CHOICE, log entry 60). -/
structure BusRec where
  inUse : Bool := false
  value : Nat := 0
  prio  : Nat := 0
  group : Nat := 0
  hit   : BitVec 32 := 0
  deriving DecidableEq, Repr, Inhabited

/-- What a row's gateway answered this cycle (R169, R542). -/
inductive GwResult | notRun | miss | hit (entry : Nat)
  deriving DecidableEq, Repr, Inhabited

/-- An entry of `evict_stash` (R42). -/
structure EvictRec where
  addr : BitVec 20 := 0
  word : Word := 0
  deriving DecidableEq, Repr, Inhabited

/-- A full-resolution shadow pair (R42). -/
structure ShadowPair where
  pkts  : BitVec 64 := 0
  bytes : BitVec 64 := 0
  deriving DecidableEq, Repr, Inhabited

/-- The selector's forwarding history `sel_last` (R43). R60 gives `valid` alone at reset; the other fields are 0
(DESIGN CHOICE, log entry 60). -/
structure SelLast where
  valid     : Bool := false
  addr      : Nat := 0
  t         : Nat := 0
  inputWord : Word := 0
  deriving DecidableEq, Repr, Inhabited

/-- The stateful ALU's forwarding history `salu_last` (R44). R60 gives `valid` alone at reset; the other fields are
0 (DESIGN CHOICE, log entry 60). -/
structure SaluLast where
  valid      : Bool := false
  addr       : Nat := 0
  t          : Nat := 0
  inputWord  : Word := 0
  outputWord : Word := 0
  deriving DecidableEq, Repr, Inhabited

/-- The execution in progress (or last completed) of one stateful ALU: the local names of the
sequence of R252, and with them the within-cycle flags `lo_add_ran`, `carry` (R44) and the compare
results (R57) (DESIGN CHOICE, log entry 15). -/
structure SaluRun where
  instr    : Word := 0          -- the instruction word `I` (R253)
  sub      : Nat := 0           -- `ma.sub`
  slot     : Nat := 0           -- `ma.instr`, for error records
  width    : Nat := 32          -- `W` (R253)
  data     : Word := 0          -- `alu_data` (R250)
  sbus0    : Bool := false      -- the cross-ALU bits (R274)
  sbus1    : Bool := false
  input    : Word := 0          -- the word used (after forwarding, R324)
  output   : Word := 0          -- `word'`
  base     : Nat := 0           -- first bit of the entry (R254)
  raw0     : Bool := false      -- compare results before gating (R257)
  raw1     : Bool := false
  p0       : Bool := false      -- gated results (R273)
  p1       : Bool := false
  loAddRan : LoAddRan := .none  -- R44
  carry    : Bool := false      -- R44
  divRan   : Bool := false      -- the divide unit was enabled (R319)
  quot     : Nat := 0           -- R317
  rem      : Nat := 0           -- R318
  mmValue  : Nat := 0           -- R325
  mmIndex  : Nat := 0           -- R325
  bitOut   : Bool := false      -- R309
  action   : Nat := 0           -- `action_out` (R326)
  deriving DecidableEq, Repr, Inhabited

/-- A stateful counter (R45, R46). -/
structure Counter where
  value      : Nat := 0
  popValue   : Nat := 0
  fill       : Nat := 0
  wmCount    : Nat := 0
  tClearNext : Nat := 0
  clearPtr   : Nat := 0
  flags      : BitVec 8 := 0
  deriving DecidableEq, Repr, Inhabited

/-- A snapshot unit (R47). The capture registers `bus_hit_addr` and `phv` are keyed `[row, bus]` and
`[i]`. -/
structure SnapUnit where
  state          : SnapState := .passive
  clock          : Nat := 0
  lastNop        : Nat := 0
  dpVersion      : BitVec 2 := 0
  dpThreadActive : BitVec 3 := 0
  dpGhost        : Bool := false
  capNextTable   : BitVec 8 := 0
  capBusHit      : Store (BitVec 32) := []
  capLtHit       : Nat := 0
  capLtInhibit   : Nat := 0
  capPhv         : Store Nat := []
  pending        : Bool := false
  deriving DecidableEq, Repr, Inhabited

/-- One tEOP bus of the I/O object (R25). -/
structure TeopBus where
  valid   : Bool := false
  addr    : BitVec 32 := 0
  stage   : Nat := 0
  lt      : Nat := 0
  alu     : Nat := 0
  isStats : Bool := false
  deriving DecidableEq, Repr, Inhabited

/-- The MAU I/O object (R25); `buses` is keyed `[b]`, an unlisted bus is not valid. -/
structure IoObj where
  gress         : Gress := .ingress
  t             : Nat := 0
  snapTriggered : Bool := false
  pktVersion    : BitVec 2 := 0
  threadActive  : BitVec 3 := 0
  byteLen       : Nat := 0
  buses         : Store TeopBus := []
  deriving DecidableEq, Repr, Inhabited

/-- The values of the PHV containers in index order (R21); a container holds a natural number below
two to its width (R20). -/
abbrev Phv := List Nat

/-! ### Results of the lookups and of the ALUs -/

/-- The lookup results `L` of a stage (R542), one entry per row and, inside, one per bus. -/
structure Lookup where
  matchBus  : List (List BusRec) := []
  tindBus   : List (List BusRec) := []
  matchHit  : List (List (BitVec 32)) := []
  tindHit   : List (List (BitVec 32)) := []
  gateway   : List GwResult := []
  ltHit     : Nat := 0
  ltInhibit : Nat := 0
  deriving DecidableEq, Repr, Inhabited

/-- What an ALU yields (R543): nothing, a member index (R220), the stateful output and predicates
(R250), or read data. -/
inductive AluOut
  | none
  | member (m : Nat)
  | salu (action : Nat) (p0 p1 : Bool)
  | data (w : Word)
  deriving DecidableEq, Repr, Inhabited

/-- The ALU outputs of a stage, in ALU index order (R540 step 9). -/
structure AluOuts where
  sel   : List AluOut := []
  salu  : List AluOut := []
  stats : List AluOut := []
  deriving DecidableEq, Repr, Inhabited

/-- The addresses of the address distribution `AddrFn` (R541). An index past the end of a list is
a disabled address, table 0, no meter address, or no counter request. -/
structure AddrOut where
  sa        : List (BitVec 24) := []
  saLt      : List Nat := []
  selMa     : List (BitVec 32) := []
  ma        : List (BitVec 32) := []
  me        : List (Option Nat) := []
  ctrOp     : List CtrReq := []
  nextTable : BitVec 8 := 0
  deriving DecidableEq, Repr, Inhabited

/-- One packet that `TmFn` returns (R442): `same` says it is the packet itself, not a fresh one. -/
structure TmOut where
  pipe  : Nat := 0
  port  : Nat := 0
  bytes : List Byte := []
  same  : Bool := false
  deriving DecidableEq, Repr, Inhabited

/-! ### Coordinator -/

/-- `held[w]` (R53): the claimed pipe and the packets taken from it. -/
structure Held where
  pipe  : Nat := 0
  inPkt : Option Packet := none
  tmPkt : Option Packet := none
  deriving DecidableEq, Repr, Inhabited

/-- A worker (R53), with `notified(w)` of R452, which is false after reset (DESIGN CHOICE, log entry 32). -/
structure Worker where
  lastPipe : Nat := 0
  wstate   : WState := .stopped
  held     : Option Held := none
  notified : Bool := false
  deriving DecidableEq, Repr, Inhabited

/-- The per-pipe queues and flags (R52) and the pipe's logical clock (R27). -/
structure PipeState where
  qRx    : List Packet := []
  qPgen  : List Packet := []
  qTm    : List Packet := []
  active : Bool := false
  rr     : Bool := false
  cycle  : Nat := 0
  deriving DecidableEq, Repr, Inhabited

/-- A record delivered to the host (R51 `host_out`, R410 to R415, R543). -/
inductive HostRec
  | lockAck (t : TableId) (a : AType) (epoch : BitVec 8)
  | unlockAck (t : TableId) (a : AType)
  | dumpRec (t : TableId) (addr : Nat) (ew : Word)
  | evictRec (t : TableId) (addr : Nat) (ew : Word)
  | barrierAck (arg : BitVec 64)
  | cfgData (pipe stage : Nat) (kind : AluKind) (alu : Nat) (w : Word)
  deriving DecidableEq, Repr, Inhabited

/-- A transmitted record (R456 `tx_out`). -/
inductive TxRec
  | druRx (chip : Nat) (buf : List Byte) (len : Nat) (cos : BitVec 3)
  | tx (chip port : Nat) (buf : List Byte) (len : Nat)
  deriving DecidableEq, Repr, Inhabited

/-! ### Agents, errors, interrupts -/

/-- Who takes a step (R11): the host, a worker, the one sweeper timer. `unit` is the `pipe<p>.stage<s>` of
R122: a stage operation inside an activation, or a unit exercised alone. -/
inductive Agent
  | host
  | worker (w : Nat)
  | sweeper
  | unit (pipe stage : Nat)
  deriving DecidableEq, Repr, Inhabited

/-- The errors the block can raise, each with the info it records (R471 codes 1 to 12). Code 1 has
causes with their own info: a RAM address, a port and pipe, and a table, whose info R471 does not name (DESIGN CHOICE,
log entry 67). Code 4 records the 24 bits of the
address (R192). -/
inductive Err
  | addrRange (a : RamAddr)
  | pipeRange (port pipe : Nat)
  | tableRange (t : TableId)
  | busOverride (row bus col oldPrio newPrio : Nat)
  | statsBadFormat (format : Nat)
  | statsBadSubword (sa : BitVec 24)
  | selCountMismatch (tableLength liveCount : Nat)
  | saluCarryUnpaired (alu slot : Nat)
  | divNotEnabled (alu slot : Nat)
  | ctrIndex (c : Nat)
  | teopDelay (stage lt bus configured required : Nat)
  | teopCollision (stage lt bus : Nat)
  | lockUnderflow (t : TableId) (a : AType)
  | waitIdleBound (bound : Nat)
  deriving DecidableEq, Repr, Inhabited

/-- An error record (R473). `t` is the logical time when the step is inside a cycle. -/
structure ErrRec where
  code  : Nat := 0
  info  : Err := .ctrIndex 0
  agent : Agent := .host
  place : Option (Nat × Nat) := none   -- pipe and stage
  t     : Option Nat := none
  deriving DecidableEq, Repr, Inhabited

/-- The errors thrown to the host (R471 codes 13 and 14, R486). -/
inductive HostErr
  | unknownConfigKey (key : String)
  | badConfigValue (key value : String)
  deriving DecidableEq, Repr, Inhabited

/-- The interrupt sources (R494). -/
inductive IrqSource
  | statsEvict (pipe stage alu : Nat)
  | snapshot (pipe stage : Nat) (gress : Gress)
  deriving DecidableEq, Repr, Inhabited

/-! ### Operation codes of a stateful instruction -/

/-- The compare operations (R109). -/
inductive CmpOp
  | eq | ne | disabled | gtS | geS | ltS | leS | gtU | geU | ltU | leU | gtUus | geUus | ltUus | leUus
  deriving DecidableEq, Repr, Inhabited

/-- The arithmetic operations (R110). -/
inductive ArithOp
  | nop | add | sub | subr | saddu | sadds | ssubu | ssubs | minu | mins | maxu | maxs | addc | subc
  deriving DecidableEq, Repr, Inhabited

/-- The output selections (R111). -/
inductive OutSel
  | none | ramLo | ramHi | phvLo | phvHi | aluLo | aluHi | pred | div | mod | mmValue | mmIndex | bitOld
  deriving DecidableEq, Repr, Inhabited

/-- The 1-bit operations (R112). -/
inductive BitOp | nop | read | readc | set | setc | clr | clrc
  deriving DecidableEq, Repr, Inhabited

/-- The modes of a stateful instruction (R112). -/
inductive Mode | dual | onebit | minmax
  deriving DecidableEq, Repr, Inhabited

/-- The operations of a stats address (R104). -/
inductive StatsOp | nop | stats | cfgRd | cfgRdclr
  deriving DecidableEq, Repr, Inhabited

/-! ### The configuration store -/

/-- The names of the configuration store (R485): the fields of R32 to R39 and R58, the host-writable
state items, the read-only state the host may get (R374, R485, R494), and every other name. -/
inductive FieldName
  -- R32
  | colMode | colLogicalRow | colLt | colMatchBus | colTindBus | emKeyMask | emValidEn | emValidBit
  | emOutOff | tindOutOff | gwEnable | aluDataHashEn | aluDataPhvEn
  -- R33
  | statsFormat | byteAdjust | lrtEnable | lrtMultiplier | lrtThreshold | fullResEnable
  -- R34
  | selMode | hashEnable | sboxEnable | fairBucketSel
  -- R35
  | saluInstr | mmCfg | sbusComb | sbusSrcMask
  -- R36
  | vpnBase | vpnLimit | ctrShift | ctrDiscipline | wmEnable | wmCountPops | wmThreshold | syncClear
  -- R37
  | snapMatch | snapTimeEnable | snapTimeTrigger | snapCaptureSel
  -- R38
  | ltMeterAlu | ltStatsAlu | ltMatchDependent | busHdrMeter | busHdrStats | busTeopMeter
  | busTeopStats | teopDelayCfg
  -- R39
  | sweepInterval | sweepActive
  -- R58
  | tcamEntryValid | tcamEntryLt | gwLt
  -- host-writable state (R485, R203)
  | ctrFlags | ctrValue | ctrPopValue | ctrFill | shadowPkts | shadowBytes
  -- state the host may only get (R341, R374, R490, R494)
  | snapState | dpPktVersion | dpThreadActive | dpGhost | capNextTable | capBusHitAddr | capLtHit
  | capLtInhibit | capPhv | irqPending | errorLog
  -- any name that is none of these (R476)
  | unknown (name : String)
  deriving DecidableEq, Repr, Inhabited

/-! ### What an operation returns -/

/-- The value an operation returned to its caller (DESIGN CHOICE, log entry 8). -/
inductive Ret
  | none                                                 -- nothing to return
  | nat (n : Nat)                                        -- a number or a bit vector
  | int (i : Int)                                        -- `get_hash_index` (R162)
  | bool (b : Bool)
  | pair (a b : Nat)
  | miss                                                 -- a lookup that missed
  | hit (idx : Nat)                                      -- a lookup that hit
  | ternary (hits : Nat) (best : Option Nat)             -- the hit vector `H` and the answer (R166, R167)
  | pointer (p : Option Nat)                             -- push and pop (R336 to R339)
  | word (w : Word)                                      -- read data
  | ram (v : RamVal)                                     -- `RAM_READ`
  | alu (o : AluOut)                                     -- an ALU execution
  | evicted (e : Option EvictRec)                        -- `DRAIN_EVICT` (R202)
  | ok                                                   -- status `OK` (R476)
  | commFail (name : FieldName)                          -- `BF_HW_COMM_FAIL` with the field name (R471, R476)
  | field (v : BitVec 64)                                -- `GET_FIELD`, status `OK`
  | irqs (l : Store Bool)                                -- `GET_FIELD irq_pending` (R494)
  | errors (l : List ErrRec)                             -- a read of the error log (R490)
  | hostError (e : HostErr)                              -- thrown to the host (R486)
  | packet (p : Option Packet)                           -- `select_input` (R440)
  | claimed (h : Option Held)                            -- `dequeue` (R439)
  | blocked                                              -- `WAIT_FOR_IDLE` or `STOP` still waits
  deriving DecidableEq, Repr, Inhabited

end Sys2Proof
end

