-- ==== Sys2Proof/Config.lean ====
section
/-! DEFINITION. What an implementation fixes: the launch record of `00_scope.md` rules R8 and R9
(plain data, carried by the state and changed by no step) and the OPEN functions of R10, R161 and
R541, which have no body: a model assumes nothing of them beyond totality. The launch record may
tabulate their values. The free values of the
model (the idle gap of R27, the order of the agents of R11, the waiter that is notified of R448) are
the constants without a body at the end. The default values are in `Machine/Launch.lean`. -/

namespace Sys2Proof

/-- One entry of `STATS_FORMAT_TABLE` (R191). -/
structure StatsFormat where
  nEntries : Nat := 0
  pktW     : Nat := 0
  byteW    : Nat := 0
  stride   : Nat := 1
  onesRsvd : Bool := false
  deriving DecidableEq, Repr, Inhabited

/-- The arguments of a hashing or crossbar function (R161): `unit` is the row, or the logical table of
`TcamKey`; `col` is the column or the ALU, 0 where the function has none. -/
structure RowCall where
  pipe  : Nat := 0
  stage : Nat := 0
  unit  : Nat := 0
  col   : Nat := 0
  phv   : Phv := []
  deriving DecidableEq, Repr, Inhabited

/-- The arguments of `AddrFn` and, with `pipe` 0 and the ALU outputs, of `ActionFn` (R10, R541). -/
structure StageCall where
  pipe   : Nat := 0
  stage  : Nat := 0
  phv    : Phv := []
  lookup : Lookup := {}
  outs   : AluOuts := {}
  deriving DecidableEq, Repr, Inhabited

/-- The values of OPEN functions that a launch supplies: "tests give tables" (R8). A call that a table does
not list has the unknown value of the constant below (DESIGN CHOICE, log entry 2). -/
structure OpenTables where
  parse       : List ((List Byte × Nat) × Phv) := []
  deparse     : List ((Phv × List Byte) × List Byte) := []
  tmFn        : List (Packet × List TmOut) := []
  actionFn    : List (StageCall × Phv) := []
  addrFn      : List (StageCall × AddrOut) := []
  hashFn      : List (RowCall × Nat) := []
  hashValidFn : List (RowCall × Bool) := []
  matchKey    : List (RowCall × Word) := []
  tcamKey     : List (RowCall × Nat) := []
  gwKey       : List (RowCall × Nat) := []
  xbarHash    : List (RowCall × Word) := []
  xbarPhv     : List (RowCall × Word) := []
  deriving DecidableEq, Repr

/-- The launch record (R8, R9). The OPEN functions whose default the spec states (the S-boxes, the
port functions, `ALU_ROW`) are tables of the points where they differ from that default. -/
structure Params where
  chip          : Chip
  numPipes      : Nat
  numStages     : Nat
  numRows       : Nat
  sramDepth     : Nat
  numMatchBuses : Nat
  numTindBuses  : Nat
  matchBusW     : Nat
  tindBusW      : Nat
  priority      : List Nat
  prigroup      : List Nat
  phvN32        : Nat
  phvN8         : Nat
  phvN16        : Nat
  phvDark       : List Nat
  numLt         : Nat
  numTcam       : Nat
  tcamW         : Nat
  gwEntries     : Nat
  gwW           : Nat
  statsFormats  : List StatsFormat
  statsRamWords : Nat
  saluRamWords  : Nat
  selRamWords   : Nat
  numSalu       : Nat
  numStatsAlu   : Nat
  numSelAlu     : Nat
  /-- `ALU_ROW[kind][a]` where it is not `a`; keyed `[kind, a]`, entries plus one. -/
  aluRow        : Store Nat
  /-- `SBOX14[x]` for `x` below the list's length, `x` itself past it (R225). -/
  sbox14        : List Nat
  /-- `SBOX18[x]` for `x` below the list's length, `x` itself past it (R228). -/
  sbox18        : List Nat
  selModDef     : SelModDef
  numCtrs       : Nat
  ctrClearPeriod : Nat
  numTeopBuses  : Nat
  pipeLatency   : Nat
  predicationDelay : Nat
  tickCycles    : Nat
  clockPs       : Nat
  numWorkers    : Nat
  processGressesSeparately : Bool
  /-- `pipe_of_port` where it is not `port div 128`; keyed `[port]`, entries plus one (R457). -/
  pipeOfPort    : Store Nat
  /-- `port_map_outbound` where it is not the identity; keyed `[port]`, entries plus one (R457). -/
  portMap       : Store Nat
  /-- The ports that `is_pcie_port` designates (R457). -/
  pciePorts     : List Nat
  /-- `WAIT_IDLE_BOUND` (R453). -/
  waitIdleBound : Nat
  /-- The value of the external predicate `PreFifoEmpty` (R453). -/
  preFifoEmpty  : Bool
  /-- `chip`, "a constant of the instance" (R457). -/
  chipId        : Nat
  /-- The OPEN functions that have no default, where the launch gives their values (R8, R10). -/
  supplied      : OpenTables
  deriving DecidableEq, Repr

/-- A step of an agent that the free schedule may choose (R11). -/
inductive AutoStep
  | workerScan (w : Nat)
  | workerProcess (w : Nat)
  | workerWake (w : Nat)
  | sweeperBegin
  | sweeperFinish (k : Nat)
  | lockComplete (k : Nat)
  | timerTick
  | waitPoll (k : Nat)
  | stopPoll
  deriving DecidableEq, Repr, Inhabited

/-! ### OPEN functions (R10): total, dependent on their arguments alone, otherwise unknown -/

/-- `Parse(bytes, port) -> PHV` (R10) (DESIGN CHOICE, log entry 2). -/
opaque Config.parse : List Byte → Nat → Phv

/-- `Deparse(PHV, bytes) -> bytes` (R10). -/
opaque Config.deparse : Phv → List Byte → List Byte

/-- `TmFn(packet) -> list of (pipe, packet)` (R10, R442). -/
opaque Config.tmFn : Packet → List TmOut

/-- `ActionFn(stage, PHV, lookup results, ALU outputs) -> PHV` (R10). -/
opaque Config.actionFn : Nat → Phv → Lookup → AluOuts → Phv

/-- `AddrFn(p, s, phv, L) -> addresses` (R541). -/
opaque Config.addrFn : Nat → Nat → Phv → Lookup → AddrOut

/-- `HashFn(pipe, stage, row, col, phv)` (R161). -/
opaque Config.hashFn : Nat → Nat → Nat → Nat → Phv → Nat

/-- `HashValidFn(pipe, stage, row, col, phv)` (R161). -/
opaque Config.hashValidFn : Nat → Nat → Nat → Nat → Phv → Bool

/-- `MatchKey(pipe, stage, row, col, phv)` (R161): 128-bit match data. -/
opaque Config.matchKey : Nat → Nat → Nat → Nat → Phv → Word

/-- `TcamKey(pipe, stage, lt, phv)` (R161), read modulo two to `TCAM_W`. -/
opaque Config.tcamKey : Nat → Nat → Nat → Phv → Nat

/-- `GwKey(pipe, stage, row, phv)` (R161), read modulo two to `GW_W`. -/
opaque Config.gwKey : Nat → Nat → Nat → Phv → Nat

/-- `XbarHash(pipe, stage, row, alu, phv)` (R161). -/
opaque Config.xbarHash : Nat → Nat → Nat → Nat → Phv → Word

/-- `XbarPhv(pipe, stage, row, alu, phv)` (R161). -/
opaque Config.xbarPhv : Nat → Nat → Nat → Nat → Phv → Word

/-! ### Free values: applied to the state's counter `draws`, so each use is a fresh value -/

/-- The idle gap `g = draw(naturals)` before a PHV (R27, R445; `93_implementation_defined.md` U17) (DESIGN
CHOICE, log entry 7). -/
opaque Config.idleGap : Nat → Nat

/-- Which of several waiting workers `packet_arrived` notifies (R448) (DESIGN CHOICE, log entry 32). -/
opaque Config.waiter : Nat → Nat

/-- Which agent steps when no step is laid down: "the relation fixes no order between agents" (R11,
`93_implementation_defined.md` U18) (DESIGN CHOICE, log entry 5). -/
opaque Config.schedule : Nat → AutoStep

end Sys2Proof
end

