-- ==== Sys2Proof/Machine/Open.lean ====
section
/-! DEFINITION. The OPEN functions of the launch (R10, R161, R541): the value the launch record tabulates
for a call, else the unknown value of the constant of `Config.lean`. -/

namespace Sys2Proof.Machine

/-- The tabulated value of a call, else the unknown one. -/
def supplied {α β : Type} [DecidableEq α] (table : List (α × β)) (call : α) (unknown : β) : β :=
  match table with
  | [] => unknown
  | (c, v) :: rest => if c = call then v else supplied rest call unknown

/-- `Parse` (R10). -/
def parseFn (p : Params) (bytes : List Byte) (port : Nat) : Phv :=
  supplied p.supplied.parse (bytes, port) (Config.parse bytes port)

/-- `Deparse` (R10). -/
def deparseFn (p : Params) (phv : Phv) (bytes : List Byte) : List Byte :=
  supplied p.supplied.deparse (phv, bytes) (Config.deparse phv bytes)

/-- `TmFn` (R10, R442). -/
def tmFn (p : Params) (pkt : Packet) : List TmOut := supplied p.supplied.tmFn pkt (Config.tmFn pkt)

/-- `ActionFn` (R10). -/
def actionFn (p : Params) (st : Nat) (phv : Phv) (L : Lookup) (o : AluOuts) : Phv :=
  supplied p.supplied.actionFn { stage := st, phv := phv, lookup := L, outs := o } (Config.actionFn st phv L o)

/-- `AddrFn` (R541). -/
def addrFn (p : Params) (pi st : Nat) (phv : Phv) (L : Lookup) : AddrOut :=
  supplied p.supplied.addrFn { pipe := pi, stage := st, phv := phv, lookup := L } (Config.addrFn pi st phv L)

/-- `HashFn` (R161). -/
def hashFn (p : Params) (pi st r c : Nat) (phv : Phv) : Nat :=
  supplied p.supplied.hashFn { pipe := pi, stage := st, unit := r, col := c, phv := phv } (Config.hashFn pi st r c phv)

/-- `HashValidFn` (R161). -/
def hashValidFn (p : Params) (pi st r c : Nat) (phv : Phv) : Bool :=
  supplied p.supplied.hashValidFn { pipe := pi, stage := st, unit := r, col := c, phv := phv } (Config.hashValidFn pi st r c phv)

/-- `MatchKey` (R161). -/
def matchKey (p : Params) (pi st r c : Nat) (phv : Phv) : Word :=
  supplied p.supplied.matchKey { pipe := pi, stage := st, unit := r, col := c, phv := phv } (Config.matchKey pi st r c phv)

/-- `TcamKey` (R161). -/
def tcamKey (p : Params) (pi st lt : Nat) (phv : Phv) : Nat :=
  supplied p.supplied.tcamKey { pipe := pi, stage := st, unit := lt, phv := phv } (Config.tcamKey pi st lt phv)

/-- `GwKey` (R161). -/
def gwKey (p : Params) (pi st r : Nat) (phv : Phv) : Nat :=
  supplied p.supplied.gwKey { pipe := pi, stage := st, unit := r, phv := phv } (Config.gwKey pi st r phv)

/-- `XbarHash` (R161). -/
def xbarHash (p : Params) (pi st r alu : Nat) (phv : Phv) : Word :=
  supplied p.supplied.xbarHash { pipe := pi, stage := st, unit := r, col := alu, phv := phv } (Config.xbarHash pi st r alu phv)

/-- `XbarPhv` (R161). -/
def xbarPhv (p : Params) (pi st r alu : Nat) (phv : Phv) : Word :=
  supplied p.supplied.xbarPhv { pipe := pi, stage := st, unit := r, col := alu, phv := phv } (Config.xbarPhv pi st r alu phv)

end Sys2Proof.Machine
end

