-- ==== Sys2Proof/Syntax.lean ====
section
/-! DEFINITION. The operations of the block, one constructor per row of `spec/opcode_table.json`, in
the table's order. An encoded operation carries the fields of its format (`30_encoding.md`), an
operation that no encoded word selects carries the operands its rule names. -/

namespace Sys2Proof

/-- Address fields of format `SA` (R104). -/
structure SaFields where
  subword : BitVec 3 := 0
  word    : BitVec 17 := 0
  deriving DecidableEq, Repr, Inhabited

/-- Address fields of format `MA` (R106). -/
structure MaFields where
  sub   : BitVec 7 := 0
  word  : BitVec 17 := 0
  instr : BitVec 2 := 0
  deriving DecidableEq, Repr, Inhabited

/-- Fields of sub-format `CMP` beside `cop` (R109), and the unit that the position in `SI` names
(R108). -/
structure CmpFields where
  unit    : CmpUnit := .zero
  srcA    : BitVec 3 := 0
  srcB    : BitVec 3 := 0
  bNeg    : Bool := false
  cEn     : Bool := false
  sbusAnd : Bool := false
  sbusOr  : Bool := false
  sbusInv : Bool := false
  deriving DecidableEq, Repr, Inhabited

/-- Fields of sub-format `AU` beside `aop` (R110), and the unit that the position in `SI` names
(R108). -/
structure AuFields where
  half : Half := .lo
  srcA : BitVec 3 := 0
  srcB : BitVec 3 := 0
  pred : BitVec 4 := 0
  deriving DecidableEq, Repr, Inhabited

/-- Field of sub-format `OUT` beside `out_sel` (R111). -/
structure OutFields where
  pred : BitVec 4 := 0
  deriving DecidableEq, Repr, Inhabited

/-- Fields of sub-format `MISC` beside `mode` and `bit_op` (R112). -/
structure MiscFields where
  width   : BitVec 2 := 0
  divEn   : Bool := false
  divSrcA : BitVec 3 := 0
  divSrcB : BitVec 3 := 0
  deriving DecidableEq, Repr, Inhabited

/-- Fields of `MISC` beside `div_en` (R112), for the row `DIV_MOD` (R124). -/
structure DivFields where
  mode    : BitVec 2 := 0
  width   : BitVec 2 := 0
  divSrcA : BitVec 3 := 0
  divSrcB : BitVec 3 := 0
  bitOp   : BitVec 3 := 0
  deriving DecidableEq, Repr, Inhabited

/-- Fields of format `MM` beside `is_max` (R113). -/
structure MmFields where
  size16    : Bool := false
  maskSrc   : Bool := false
  tieHigh   : Bool := false
  post      : BitVec 2 := 0
  delta     : BitVec 8 := 0
  constMask : BitVec 16 := 0
  deriving DecidableEq, Repr, Inhabited

/-- Fields of format `OP` beside `opcode` (R116). -/
structure OpFields where
  atype : AType := .idle
  epoch : BitVec 8 := 0
  lt    : BitVec 4 := 0
  stage : BitVec 8 := 0
  pipe  : BitVec 4 := 0
  arg   : BitVec 64 := 0
  deriving DecidableEq, Repr, Inhabited

/-- The operations of the block. -/
inductive Instr
  -- format SA (R104)
  | statsNop (a : SaFields)
  | stats (a : SaFields)
  | cfgRd (a : SaFields)
  | cfgRdclr (a : SaFields)
  | statsDisabled (rest : BitVec 23)
  -- format MA (R106)
  | maNop (a : MaFields)
  | saluExec (a : MaFields)
  | selExec (a : MaFields)
  | maCfgRd (a : MaFields)
  | maDisabled (rest : BitVec 31)
  -- sub-format CMP (R109)
  | cmpEq (c : CmpFields)
  | cmpNe (c : CmpFields)
  | cmpDisabled (c : CmpFields)
  | cmpGtS (c : CmpFields)
  | cmpGeS (c : CmpFields)
  | cmpLtS (c : CmpFields)
  | cmpLeS (c : CmpFields)
  | cmpGtU (c : CmpFields)
  | cmpGeU (c : CmpFields)
  | cmpLtU (c : CmpFields)
  | cmpLeU (c : CmpFields)
  | cmpGtUus (c : CmpFields)
  | cmpGeUus (c : CmpFields)
  | cmpLtUus (c : CmpFields)
  | cmpLeUus (c : CmpFields)
  -- sub-format AU, arithmetic (R110)
  | aNop (u : AuFields)
  | aAdd (u : AuFields)
  | aSub (u : AuFields)
  | aSubr (u : AuFields)
  | aSaddu (u : AuFields)
  | aSadds (u : AuFields)
  | aSsubu (u : AuFields)
  | aSsubs (u : AuFields)
  | aMinu (u : AuFields)
  | aMins (u : AuFields)
  | aMaxu (u : AuFields)
  | aMaxs (u : AuFields)
  | aAddc (u : AuFields)
  | aSubc (u : AuFields)
  -- sub-format AU, logical (R110)
  | lSetz (u : AuFields)
  | lNor (u : AuFields)
  | lAndca (u : AuFields)
  | lNota (u : AuFields)
  | lAndcb (u : AuFields)
  | lNotb (u : AuFields)
  | lXor (u : AuFields)
  | lNand (u : AuFields)
  | lAnd (u : AuFields)
  | lXnor (u : AuFields)
  | lB (u : AuFields)
  | lOrca (u : AuFields)
  | lA (u : AuFields)
  | lOrcb (u : AuFields)
  | lOr (u : AuFields)
  | lSethi (u : AuFields)
  -- sub-format OUT (R111)
  | oNone (o : OutFields)
  | oRamLo (o : OutFields)
  | oRamHi (o : OutFields)
  | oPhvLo (o : OutFields)
  | oPhvHi (o : OutFields)
  | oAluLo (o : OutFields)
  | oAluHi (o : OutFields)
  | oPred (o : OutFields)
  | oDiv (o : OutFields)
  | oMod (o : OutFields)
  | oMmValue (o : OutFields)
  | oMmIndex (o : OutFields)
  | oBitOld (o : OutFields)
  -- sub-format MISC (R112)
  | modeDual (m : MiscFields) (bitOp : BitVec 3)
  | bitNop (m : MiscFields)
  | bitRead (m : MiscFields)
  | bitReadc (m : MiscFields)
  | bitSet (m : MiscFields)
  | bitSetc (m : MiscFields)
  | bitClr (m : MiscFields)
  | bitClrc (m : MiscFields)
  | modeMinmax (m : MiscFields) (bitOp : BitVec 3)
  | divMod (d : DivFields)
  -- format MM (R113)
  | mmMin (m : MmFields)
  | mmMax (m : MmFields)
  -- format OP (R116)
  | intervalSet (o : OpFields)
  | lock (o : OpFields)
  | unlock (o : OpFields)
  | sweep (o : OpFields)
  | dump (o : OpFields)
  | dumpWord (o : OpFields)
  | evictWord (o : OpFields)
  | barrier (o : OpFields)
  -- format HC (R119)
  | enqueue (port : Nat) (bytes : List Byte)
  | enqueuePkt (port : Nat) (pkt : Packet) (pgen : Bool)
  | enqueueResubmit (pkt : Packet)
  | enqueueFromTm (pkt : Packet) (pipe : Nat)
  | waitForIdle
  | stop
  | start
  | setField (name : FieldName) (idx : List Nat) (part : Nat) (value : BitVec 64)
  | getField (name : FieldName) (idx : List Nat) (part : Nat)
  | setConfig (key value : String)
  | ramWrite (addr : RamAddr) (value : RamVal)
  | ramRead (addr : RamAddr)
  | opCreate (opcode : BitVec 4) (atype : AType) (table : TableId) (arg : BitVec 64) (queue : QueueSel)
  | drainEvict (pipe stage alu : Nat)
  | snapSetState (pipe stage : Nat) (gress : Gress) (sn : BitVec 2)
  | irqAck (source : IrqSource)
  | ctrStartClear (pipe stage ctr : Nat)
  -- BitVector primitives (40_bitvector.md)
  | bvGetWord (n v off len : Nat)
  | bvSetWord (n v value off len : Nat)
  | bvFromWords (n : Nat) (words : List (BitVec 64))
  | bvTcamCompare (n w0 w1 s0 s1 : Nat)
  | bvSearchEncode (n key : Nat)
  | bvMaskedS0q1S1q0Equals (n stored query m01 m10 : Nat)
  | bvMaskedEquals (n v w m : Nat)
  | bvPopcountParity (n v : Nat)
  | bvByteShift (n v k : Nat) (dir : ShiftDir)
  | bvExtractInto (n src off m : Nat)
  | bvSetFrom (n dst off m src : Nat)
  -- SRAM row (41_sram_row.md), at the current row, on the current PHV
  | rowGetHashIndex (col : Nat)
  | rowExactLookup (col : Nat)
  | rowHitAddress
  | rowTernaryLookup (lt : Nat)
  | rowTindLookup (col : Nat)
  | rowGatewayLookup
  | rowSetMatchOutputBus (bus output col : Nat)
  | rowSetTindOutputBus (bus output col : Nat)
  | rowResetResources
  | rowAluData (alu : Nat)
  -- stats helpers (42_stats_alu.md), at the current ALU
  | statsDumpEntry (word subword : Nat)
  | statsLrtCheck (a : SaFields) (pkt byt : Nat)
  -- selector strategies (43_selector_alu.md), at the current ALU
  | selResilient (pv : Word) (hash52 : BitVec 52)
  | selPlanB (pv : Word) (hash52 : BitVec 52)
  | selFair (pv : Word) (hash52 : BitVec 52)
  -- stateful counters (45_stateful_counters.md), in the current stage
  | ctrPushFifo (c : Nat)
  | ctrPopFifo (c : Nat)
  | ctrPushStack (c : Nat)
  | ctrPopStack (c : Nat)
  | ctrWatermark (c : Nat) (pop : Bool)
  | ctrStartClearAt (c t : Nat)
  | ctrClearStep (c : Nat)
  | ctrContinueClearTill (c tStop : Nat)
  | ctrMaybeSynchronousClear (c : Nat)
  -- snapshot (46_snapshot.md), in the current stage, on the current PHV
  | snapStep
  | snapFirstPass
  | snapFinalizeSnapshot (nextTable : BitVec 8)
  -- tEOP (47_teop.md), in the current stage
  | teopBusesAtHdrtime (lt : Nat)
  | teopBusesAtTeoptime (lt : Nat)
  | teopDelayRequired (lt bus : Nat)
  | teopOutputStatsAddr (lt alu : Nat) (addr : BitVec 32)
  | teopOutputMeterAddr (lt alu : Nat) (addr : BitVec 32)
  | teopConsume
  -- sweeper (48_sweeper.md)
  | swpIncLock (t : TableId) (a : AType)
  | swpDecLock (t : TableId) (a : AType)
  | swpLockWait (t : TableId) (a : AType)
  | swpOpStartStop (t : TableId) (a : AType) (starts : Bool)
  | swpIsLockedElseOpStart (t : TableId) (a : AType)
  | swpTimerTick
  -- coordinator (49_coordinator.md)
  | coordWorkerScan (w : Nat)
  | coordDequeue (p : Nat)
  | coordSelectInput (p : Nat)
  | coordWorkerProcess (w : Nat)
  | coordIngressActivation (p : Nat) (pkt : Packet)
  | coordEgressActivation (p : Nat) (pkt : Packet)
  | coordRelease (w p n : Nat)
  | coordPacketArrived
  | coordWaitForPackets (w : Nat)
  | coordTransmit (pkt : Packet)
  -- the stage cycle (R540) and the trap entry (R490)
  | stageCycle (p s : Nat)
  | fault (rec : ErrRec)
  deriving DecidableEq, Repr, Inhabited

/-! ### Encoded words -/

/-- The formats of `30_encoding.md` rule R100 that select an operation. A `CMP` and an `AU` word name
their unit by their position in `SI` (R108), so the position is part of the format here. `miscDiv`
reads a `MISC` word for its flag `div_en` alone (R124). -/
inductive Format
  | sa
  | ma
  | cmp (unit : CmpUnit)
  | au (half : Half)
  | out
  | misc
  | miscDiv
  | mm
  | op
  | hc
  deriving DecidableEq, Repr, Inhabited

/-- The operands of a host command: "values of the types named", with no binary form (R119). A command
reads the slots its row names and ignores the others. -/
structure HostArgs where
  port   : Nat := 0
  bytes  : List Byte := []
  pkt    : Packet := {}
  pgen   : Bool := false
  pipe   : Nat := 0
  stage  : Nat := 0
  unit   : Nat := 0
  gress  : Gress := .ingress
  sn     : BitVec 2 := 0
  name   : FieldName := .colMode
  idx    : List Nat := []
  part   : Nat := 0
  value  : BitVec 64 := 0
  key    : String := ""
  str    : String := ""
  addr   : RamAddr := {}
  ram    : RamVal := .word 0
  opcode : BitVec 4 := 0
  atype  : AType := .idle
  table  : TableId := {}
  arg    : BitVec 64 := 0
  queue  : QueueSel := .hi
  source : IrqSource := .statsEvict 0 0 0
  deriving DecidableEq, Repr, Inhabited

/-- An encoded word: its format, its bits as a number, and, for a host command, its operands. -/
structure Coded where
  format : Format := .sa
  word   : Nat := 0
  args   : HostArgs := {}
  deriving DecidableEq, Repr, Inhabited

end Sys2Proof
end

