-- ==== Sys2Proof/WellFormed.lean ====
section
/-! DEFINITION. What the operands of an operation must satisfy for the operation to be one of its
rule's: a `BitVector<N>` is below two to `N` (R20, R140), a column is one of the twelve of a row (R7).
Every encoded operation is well formed, since its fields have the widths of its format. -/

namespace Sys2Proof

/-- `v` is a value of `BitVector<n>`, `n` at least 1 (R20). -/
def isBits (n v : Nat) : Bool := 1 ≤ n && v < 2 ^ n

/-- The twelve SRAM columns of a row (R7 `NUM_COLS`). -/
def numCols : Nat := 12

/-- The operands are of the types that the operation's rule names. -/
def Instr.wellFormed : Instr → Bool
  | .bvGetWord n v _ _ => isBits n v
  | .bvSetWord n v _ _ _ => isBits n v
  | .bvFromWords n words => 1 ≤ n && words.length == (n + 63) / 64
  | .bvTcamCompare n w0 w1 s0 s1 => isBits n w0 && isBits n w1 && isBits n s0 && isBits n s1
  | .bvSearchEncode n key => isBits n key
  | .bvMaskedS0q1S1q0Equals n stored query m01 m10 =>
      isBits n stored && isBits n query && isBits n m01 && isBits n m10
  | .bvMaskedEquals n v w m => isBits n v && isBits n w && isBits n m
  | .bvPopcountParity n v => isBits n v
  | .bvByteShift n v _ _ => isBits n v
  | .bvExtractInto n src _ m => isBits n src && 1 ≤ m
  | .bvSetFrom n dst _ m src => isBits n dst && isBits m src
  | .rowGetHashIndex col => col < numCols
  | .rowExactLookup col => col < numCols
  | .rowTindLookup col => col < numCols
  | .rowSetMatchOutputBus _ _ col => col < numCols
  | .rowSetTindOutputBus _ _ col => col < numCols
  | _ => true

end Sys2Proof
end

