-- ==== Sys2Proof/Decode.lean ====
section
/-! DEFINITION. The encodings of `30_encoding.md`: the decoder of each format, total on any word and
rejecting by name, and after it the encoder, written from the same tables. -/

namespace Sys2Proof

/-- Why a word is not an operation (R120). -/
inductive DecodeError
  /-- A reserved (must-be-zero) bit of the format is set. -/
  | reservedBits
  /-- The opcode field holds a reserved code: no row of the format matches. -/
  | reservedCode
  /-- A host command code outside the table of R119. -/
  | unknownCommand
  /-- The word has a bit at or above the format's width. -/
  | tooWide
  /-- Fewer bytes than the format has. -/
  | tooShort
  deriving DecidableEq, Repr, Inhabited

/-- The width of a format in bits (R100). -/
def Format.width : Format → Nat
  | .sa => 24
  | .ma => 32
  | .cmp _ => 16
  | .au _ => 16
  | .out => 16
  | .misc => 16
  | .miscDiv => 16
  | .mm => 32
  | .op => 96
  | .hc => 8

/-- Bits `lo + n - 1 .. lo` of a word (R13). -/
def wordField (w lo n : Nat) : BitVec n := BitVec.ofNat n (w / 2 ^ lo)

/-- Bit `i` of a word (R13). -/
def wordBit (w i : Nat) : Bool := w / 2 ^ i % 2 == 1

/-! ### Field extraction, one function a format -/

def saFields (w : Nat) : SaFields := { subword := wordField w 0 3, word := wordField w 3 17 }

def maFields (w : Nat) : MaFields :=
  { sub := wordField w 0 7, word := wordField w 7 17, instr := wordField w 27 2 }

def cmpFields (unit : CmpUnit) (w : Nat) : CmpFields :=
  { unit := unit, srcA := wordField w 4 3, srcB := wordField w 7 3, bNeg := wordBit w 10,
    cEn := wordBit w 11, sbusAnd := wordBit w 12, sbusOr := wordBit w 13, sbusInv := wordBit w 14 }

def auFields (half : Half) (w : Nat) : AuFields :=
  { half := half, srcA := wordField w 5 3, srcB := wordField w 8 3, pred := wordField w 11 4 }

def outFields (w : Nat) : OutFields := { pred := wordField w 4 4 }

def miscFields (w : Nat) : MiscFields :=
  { width := wordField w 2 2, divEn := wordBit w 4, divSrcA := wordField w 5 3,
    divSrcB := wordField w 8 3 }

def divFields (w : Nat) : DivFields :=
  { mode := wordField w 0 2, width := wordField w 2 2, divSrcA := wordField w 5 3,
    divSrcB := wordField w 8 3, bitOp := wordField w 11 3 }

def mmFields (w : Nat) : MmFields :=
  { size16 := wordBit w 1, maskSrc := wordBit w 2, tieHigh := wordBit w 3, post := wordField w 4 2,
    delta := wordField w 8 8, constMask := wordField w 16 16 }

def opFields (w : Nat) : OpFields :=
  { atype := if wordBit w 4 then .stats else .idle, epoch := wordField w 8 8,
    lt := wordField w 16 4, stage := wordField w 20 8, pipe := wordField w 28 4,
    arg := wordField w 32 64 }

/-! ### The decoder -/

/-- Format `SA` (R104): with `en = 0` every other field is ignored (R120). -/
def decodeSa (w : Nat) : Except DecodeError Instr :=
  if wordBit w 23 then
    if wordBit w 22 then .error .reservedBits
    else match w / 2 ^ 20 % 4 with
      | 0 => .ok (.statsNop (saFields w))
      | 1 => .ok (.stats (saFields w))
      | 2 => .ok (.cfgRd (saFields w))
      | _ => .ok (.cfgRdclr (saFields w))
  else .ok (.statsDisabled (wordField w 0 23))

/-- Format `MA` (R106): with `en = 0` every other field is ignored (R120). -/
def decodeMa (w : Nat) : Except DecodeError Instr :=
  if wordBit w 31 then
    if w / 2 ^ 29 % 4 ≠ 0 then .error .reservedBits
    else match w / 2 ^ 24 % 8 with
      | 0 => .ok (.maNop (maFields w))
      | 1 => .ok (.saluExec (maFields w))
      | 2 => .ok (.selExec (maFields w))
      | 3 => .ok (.maCfgRd (maFields w))
      | _ => .error .reservedCode
  else .ok (.maDisabled (wordField w 0 31))

/-- Sub-format `CMP` (R109). -/
def decodeCmp (unit : CmpUnit) (w : Nat) : Except DecodeError Instr :=
  let c := cmpFields unit w
  if wordBit w 15 then .error .reservedBits
  else match w % 16 with
    | 0 => .ok (.cmpEq c)
    | 1 => .ok (.cmpNe c)
    | 2 => .ok (.cmpDisabled c)
    | 4 => .ok (.cmpGtS c)
    | 5 => .ok (.cmpGeS c)
    | 6 => .ok (.cmpLtS c)
    | 7 => .ok (.cmpLeS c)
    | 8 => .ok (.cmpGtU c)
    | 9 => .ok (.cmpGeU c)
    | 10 => .ok (.cmpLtU c)
    | 11 => .ok (.cmpLeU c)
    | 12 => .ok (.cmpGtUus c)
    | 13 => .ok (.cmpGeUus c)
    | 14 => .ok (.cmpLtUus c)
    | 15 => .ok (.cmpLeUus c)
    | _ => .error .reservedCode

/-- Sub-format `AU` (R110): `aop` is bits 4:0. -/
def decodeAu (half : Half) (w : Nat) : Except DecodeError Instr :=
  let u := auFields half w
  if wordBit w 15 then .error .reservedBits
  else match w % 32 with
    | 0 => .ok (.lSetz u)
    | 1 => .ok (.lNor u)
    | 2 => .ok (.lAndca u)
    | 3 => .ok (.lNota u)
    | 4 => .ok (.lAndcb u)
    | 5 => .ok (.lNotb u)
    | 6 => .ok (.lXor u)
    | 7 => .ok (.lNand u)
    | 8 => .ok (.lAnd u)
    | 9 => .ok (.lXnor u)
    | 10 => .ok (.lB u)
    | 11 => .ok (.lOrca u)
    | 12 => .ok (.lA u)
    | 13 => .ok (.lOrcb u)
    | 14 => .ok (.lOr u)
    | 15 => .ok (.lSethi u)
    | 16 => .ok (.aNop u)
    | 17 => .ok (.aAdd u)
    | 18 => .ok (.aSub u)
    | 19 => .ok (.aSubr u)
    | 20 => .ok (.aSaddu u)
    | 21 => .ok (.aSadds u)
    | 22 => .ok (.aSsubu u)
    | 23 => .ok (.aSsubs u)
    | 24 => .ok (.aMinu u)
    | 25 => .ok (.aMins u)
    | 26 => .ok (.aMaxu u)
    | 27 => .ok (.aMaxs u)
    | 28 => .ok (.aAddc u)
    | 29 => .ok (.aSubc u)
    | _ => .error .reservedCode

/-- Sub-format `OUT` (R111): bits 15:8 are reserved. -/
def decodeOut (w : Nat) : Except DecodeError Instr :=
  let o := outFields w
  if w / 2 ^ 8 % 256 ≠ 0 then .error .reservedBits
  else match w % 16 with
    | 0 => .ok (.oNone o)
    | 1 => .ok (.oRamLo o)
    | 2 => .ok (.oRamHi o)
    | 3 => .ok (.oPhvLo o)
    | 4 => .ok (.oPhvHi o)
    | 5 => .ok (.oAluLo o)
    | 6 => .ok (.oAluHi o)
    | 7 => .ok (.oPred o)
    | 8 => .ok (.oDiv o)
    | 9 => .ok (.oMod o)
    | 10 => .ok (.oMmValue o)
    | 11 => .ok (.oMmIndex o)
    | 12 => .ok (.oBitOld o)
    | _ => .error .reservedCode

/-- Sub-format `MISC` read for its mode (R112): mode 1 is split by `bit_op` (R124). -/
def decodeMisc (w : Nat) : Except DecodeError Instr :=
  let m := miscFields w
  if w / 2 ^ 14 % 4 ≠ 0 then .error .reservedBits
  else match w % 4 with
    | 0 => .ok (.modeDual m (wordField w 11 3))
    | 1 => match w / 2 ^ 11 % 8 with
      | 0 => .ok (.bitNop m)
      | 1 => .ok (.bitRead m)
      | 2 => .ok (.bitReadc m)
      | 3 => .ok (.bitSet m)
      | 4 => .ok (.bitSetc m)
      | 5 => .ok (.bitClr m)
      | 6 => .ok (.bitClrc m)
      | _ => .error .reservedCode
    | 2 => .ok (.modeMinmax m (wordField w 11 3))
    | _ => .error .reservedCode

/-- Sub-format `MISC` read for `div_en` (R112, R124). -/
def decodeMiscDiv (w : Nat) : Except DecodeError Instr :=
  if w / 2 ^ 14 % 4 ≠ 0 then .error .reservedBits
  else if wordBit w 4 then .ok (.divMod (divFields w))
  else .error .reservedCode

/-- Format `MM` (R113): bits 7:6 are reserved. -/
def decodeMm (w : Nat) : Except DecodeError Instr :=
  if w / 2 ^ 6 % 4 ≠ 0 then .error .reservedBits
  else if wordBit w 0 then .ok (.mmMax (mmFields w)) else .ok (.mmMin (mmFields w))

/-- Format `OP` (R116): bits 7:5 are reserved. -/
def decodeOp (w : Nat) : Except DecodeError Instr :=
  let o := opFields w
  if w / 2 ^ 5 % 8 ≠ 0 then .error .reservedBits
  else match w % 16 with
    | 0 => .ok (.intervalSet o)
    | 1 => .ok (.lock o)
    | 2 => .ok (.unlock o)
    | 3 => .ok (.sweep o)
    | 4 => .ok (.dump o)
    | 5 => .ok (.dumpWord o)
    | 6 => .ok (.evictWord o)
    | 7 => .ok (.barrier o)
    | _ => .error .reservedCode

/-- Format `HC` (R119): the code selects the command, the operands come as values. -/
def decodeHc (code : Nat) (a : HostArgs) : Except DecodeError Instr :=
  match code with
  | 0x01 => .ok (.enqueue a.port a.bytes)
  | 0x02 => .ok (.enqueuePkt a.port a.pkt a.pgen)
  | 0x03 => .ok (.enqueueResubmit a.pkt)
  | 0x04 => .ok (.enqueueFromTm a.pkt a.pipe)
  | 0x05 => .ok .waitForIdle
  | 0x06 => .ok .stop
  | 0x07 => .ok .start
  | 0x10 => .ok (.setField a.name a.idx a.part a.value)
  | 0x11 => .ok (.getField a.name a.idx a.part)
  | 0x12 => .ok (.setConfig a.key a.str)
  | 0x13 => .ok (.ramWrite a.addr a.ram)
  | 0x14 => .ok (.ramRead a.addr)
  | 0x20 => .ok (.opCreate a.opcode a.atype a.table a.arg a.queue)
  | 0x21 => .ok (.drainEvict a.pipe a.stage a.unit)
  | 0x22 => .ok (.snapSetState a.pipe a.stage a.gress a.sn)
  | 0x23 => .ok (.irqAck a.source)
  | 0x24 => .ok (.ctrStartClear a.pipe a.stage a.unit)
  | _ => .error .unknownCommand

/-- The operation a coded word selects, or why it selects none. -/
def decode (c : Coded) : Except DecodeError Instr :=
  if 2 ^ c.format.width ≤ c.word then .error .tooWide
  else match c.format with
    | .sa => decodeSa c.word
    | .ma => decodeMa c.word
    | .cmp unit => decodeCmp unit c.word
    | .au half => decodeAu half c.word
    | .out => decodeOut c.word
    | .misc => decodeMisc c.word
    | .miscDiv => decodeMiscDiv c.word
    | .mm => decodeMm c.word
    | .op => decodeOp c.word
    | .hc => decodeHc c.word c.args

/-- The number whose bytes are these, the first byte least significant (a convention of the model: the
spec gives the formats no byte order). -/
def wordOfBytes : List Byte → Nat
  | [] => 0
  | b :: bs => b.toNat + 256 * wordOfBytes bs

/-- The `n` bytes of a word, least significant first. -/
def bytesOfWord : Nat → Nat → List Byte
  | 0, _ => []
  | n + 1, w => BitVec.ofNat 8 w :: bytesOfWord n (w / 256)

/-- Decoding from bytes: the format's bytes are taken from the front, the rest is handed back. -/
def decodeBytes (f : Format) (bs : List Byte) (a : HostArgs) : Except DecodeError (Instr × List Byte) :=
  let n := f.width / 8
  if bs.length < n then .error .tooShort
  else match decode { format := f, word := wordOfBytes (bs.take n), args := a } with
    | .ok i => .ok (i, bs.drop n)
    | .error e => .error e

/-! ### The encoder -/

def encodeSaFields (a : SaFields) (op : Nat) : Nat :=
  a.subword.toNat + 2 ^ 3 * a.word.toNat + 2 ^ 20 * op + 2 ^ 23

def encodeMaFields (a : MaFields) (op : Nat) : Nat :=
  a.sub.toNat + 2 ^ 7 * a.word.toNat + 2 ^ 24 * op + 2 ^ 27 * a.instr.toNat + 2 ^ 31

def encodeCmpFields (c : CmpFields) (cop : Nat) : Nat :=
  cop + 2 ^ 4 * c.srcA.toNat + 2 ^ 7 * c.srcB.toNat + 2 ^ 10 * c.bNeg.toNat + 2 ^ 11 * c.cEn.toNat
    + 2 ^ 12 * c.sbusAnd.toNat + 2 ^ 13 * c.sbusOr.toNat + 2 ^ 14 * c.sbusInv.toNat

def encodeAuFields (u : AuFields) (aop : Nat) : Nat :=
  aop + 2 ^ 5 * u.srcA.toNat + 2 ^ 8 * u.srcB.toNat + 2 ^ 11 * u.pred.toNat

def encodeOutFields (o : OutFields) (sel : Nat) : Nat := sel + 2 ^ 4 * o.pred.toNat

def encodeMiscFields (m : MiscFields) (mode bitOp : Nat) : Nat :=
  mode + 2 ^ 2 * m.width.toNat + 2 ^ 4 * m.divEn.toNat + 2 ^ 5 * m.divSrcA.toNat
    + 2 ^ 8 * m.divSrcB.toNat + 2 ^ 11 * bitOp

def encodeDivFields (d : DivFields) : Nat :=
  d.mode.toNat + 2 ^ 2 * d.width.toNat + 2 ^ 4 + 2 ^ 5 * d.divSrcA.toNat + 2 ^ 8 * d.divSrcB.toNat
    + 2 ^ 11 * d.bitOp.toNat

def encodeMmFields (m : MmFields) (isMax : Nat) : Nat :=
  isMax + 2 ^ 1 * m.size16.toNat + 2 ^ 2 * m.maskSrc.toNat + 2 ^ 3 * m.tieHigh.toNat
    + 2 ^ 4 * m.post.toNat + 2 ^ 8 * m.delta.toNat + 2 ^ 16 * m.constMask.toNat

def encodeOpFields (o : OpFields) (opcode : Nat) : Nat :=
  opcode + 2 ^ 4 * (match o.atype with | .idle => 0 | .stats => 1) + 2 ^ 8 * o.epoch.toNat
    + 2 ^ 16 * o.lt.toNat + 2 ^ 20 * o.stage.toNat + 2 ^ 28 * o.pipe.toNat + 2 ^ 32 * o.arg.toNat

/-- An `SA` word. -/
def codedSa (w : Nat) : Option Coded := some { format := .sa, word := w }
/-- An `MA` word. -/
def codedMa (w : Nat) : Option Coded := some { format := .ma, word := w }
/-- A `CMP` word at its unit's position. -/
def codedCmp (c : CmpFields) (cop : Nat) : Option Coded :=
  some { format := .cmp c.unit, word := encodeCmpFields c cop }
/-- An `AU` word at its unit's position. -/
def codedAu (u : AuFields) (aop : Nat) : Option Coded :=
  some { format := .au u.half, word := encodeAuFields u aop }
/-- An `OUT` word. -/
def codedOut (o : OutFields) (sel : Nat) : Option Coded :=
  some { format := .out, word := encodeOutFields o sel }
/-- A `MISC` word. -/
def codedMisc (m : MiscFields) (mode bitOp : Nat) : Option Coded :=
  some { format := .misc, word := encodeMiscFields m mode bitOp }
/-- An `OP` word. -/
def codedOp (o : OpFields) (opcode : Nat) : Option Coded :=
  some { format := .op, word := encodeOpFields o opcode }
/-- A host command. -/
def codedHc (code : Nat) (a : HostArgs) : Option Coded :=
  some { format := .hc, word := code, args := a }

/-- The coded word of an operation; `none` for the operations "that no encoded word selects" (R124). -/
def encode : Instr → Option Coded
  | .statsNop a => codedSa (encodeSaFields a 0)
  | .stats a => codedSa (encodeSaFields a 1)
  | .cfgRd a => codedSa (encodeSaFields a 2)
  | .cfgRdclr a => codedSa (encodeSaFields a 3)
  | .statsDisabled rest => codedSa rest.toNat
  | .maNop a => codedMa (encodeMaFields a 0)
  | .saluExec a => codedMa (encodeMaFields a 1)
  | .selExec a => codedMa (encodeMaFields a 2)
  | .maCfgRd a => codedMa (encodeMaFields a 3)
  | .maDisabled rest => codedMa rest.toNat
  | .cmpEq c => codedCmp c 0
  | .cmpNe c => codedCmp c 1
  | .cmpDisabled c => codedCmp c 2
  | .cmpGtS c => codedCmp c 4
  | .cmpGeS c => codedCmp c 5
  | .cmpLtS c => codedCmp c 6
  | .cmpLeS c => codedCmp c 7
  | .cmpGtU c => codedCmp c 8
  | .cmpGeU c => codedCmp c 9
  | .cmpLtU c => codedCmp c 10
  | .cmpLeU c => codedCmp c 11
  | .cmpGtUus c => codedCmp c 12
  | .cmpGeUus c => codedCmp c 13
  | .cmpLtUus c => codedCmp c 14
  | .cmpLeUus c => codedCmp c 15
  | .aNop u => codedAu u 16
  | .aAdd u => codedAu u 17
  | .aSub u => codedAu u 18
  | .aSubr u => codedAu u 19
  | .aSaddu u => codedAu u 20
  | .aSadds u => codedAu u 21
  | .aSsubu u => codedAu u 22
  | .aSsubs u => codedAu u 23
  | .aMinu u => codedAu u 24
  | .aMins u => codedAu u 25
  | .aMaxu u => codedAu u 26
  | .aMaxs u => codedAu u 27
  | .aAddc u => codedAu u 28
  | .aSubc u => codedAu u 29
  | .lSetz u => codedAu u 0
  | .lNor u => codedAu u 1
  | .lAndca u => codedAu u 2
  | .lNota u => codedAu u 3
  | .lAndcb u => codedAu u 4
  | .lNotb u => codedAu u 5
  | .lXor u => codedAu u 6
  | .lNand u => codedAu u 7
  | .lAnd u => codedAu u 8
  | .lXnor u => codedAu u 9
  | .lB u => codedAu u 10
  | .lOrca u => codedAu u 11
  | .lA u => codedAu u 12
  | .lOrcb u => codedAu u 13
  | .lOr u => codedAu u 14
  | .lSethi u => codedAu u 15
  | .oNone o => codedOut o 0
  | .oRamLo o => codedOut o 1
  | .oRamHi o => codedOut o 2
  | .oPhvLo o => codedOut o 3
  | .oPhvHi o => codedOut o 4
  | .oAluLo o => codedOut o 5
  | .oAluHi o => codedOut o 6
  | .oPred o => codedOut o 7
  | .oDiv o => codedOut o 8
  | .oMod o => codedOut o 9
  | .oMmValue o => codedOut o 10
  | .oMmIndex o => codedOut o 11
  | .oBitOld o => codedOut o 12
  | .modeDual m bitOp => codedMisc m 0 bitOp.toNat
  | .bitNop m => codedMisc m 1 0
  | .bitRead m => codedMisc m 1 1
  | .bitReadc m => codedMisc m 1 2
  | .bitSet m => codedMisc m 1 3
  | .bitSetc m => codedMisc m 1 4
  | .bitClr m => codedMisc m 1 5
  | .bitClrc m => codedMisc m 1 6
  | .modeMinmax m bitOp => codedMisc m 2 bitOp.toNat
  | .divMod d => some { format := .miscDiv, word := encodeDivFields d }
  | .mmMin m => some { format := .mm, word := encodeMmFields m 0 }
  | .mmMax m => some { format := .mm, word := encodeMmFields m 1 }
  | .intervalSet o => codedOp o 0
  | .lock o => codedOp o 1
  | .unlock o => codedOp o 2
  | .sweep o => codedOp o 3
  | .dump o => codedOp o 4
  | .dumpWord o => codedOp o 5
  | .evictWord o => codedOp o 6
  | .barrier o => codedOp o 7
  | .enqueue port bytes => codedHc 0x01 { port := port, bytes := bytes }
  | .enqueuePkt port pkt pgen => codedHc 0x02 { port := port, pkt := pkt, pgen := pgen }
  | .enqueueResubmit pkt => codedHc 0x03 { pkt := pkt }
  | .enqueueFromTm pkt pipe => codedHc 0x04 { pkt := pkt, pipe := pipe }
  | .waitForIdle => codedHc 0x05 {}
  | .stop => codedHc 0x06 {}
  | .start => codedHc 0x07 {}
  | .setField name idx part value =>
      codedHc 0x10 { name := name, idx := idx, part := part, value := value }
  | .getField name idx part => codedHc 0x11 { name := name, idx := idx, part := part }
  | .setConfig key value => codedHc 0x12 { key := key, str := value }
  | .ramWrite addr value => codedHc 0x13 { addr := addr, ram := value }
  | .ramRead addr => codedHc 0x14 { addr := addr }
  | .opCreate opcode atype table arg queue =>
      codedHc 0x20 { opcode := opcode, atype := atype, table := table, arg := arg, queue := queue }
  | .drainEvict pipe stage alu => codedHc 0x21 { pipe := pipe, stage := stage, unit := alu }
  | .snapSetState pipe stage gress sn =>
      codedHc 0x22 { pipe := pipe, stage := stage, gress := gress, sn := sn }
  | .irqAck source => codedHc 0x23 { source := source }
  | .ctrStartClear pipe stage ctr => codedHc 0x24 { pipe := pipe, stage := stage, unit := ctr }
  | _ => none

/-! ### The opcode table, and the words of it that the host gives -/

/-- A row of the table: the format, and the operation bits `word &&& mask = pattern` (R124). -/
structure OpcodeRow where
  format  : Format
  pattern : Nat
  mask    : Nat
  deriving DecidableEq, Repr

/-- The rows with 16-bit words: `CMP`, `AU`, `OUT`, `MISC`, `MISC.div` share the width, and a bare
word does not say which it is. The position of a `CMP` or `AU` word is taken as `CMP0` or `ALU_LO`. -/
def opcodeRows16 : List OpcodeRow :=
  (List.range 30).map (fun k => { format := .au .lo, pattern := k, mask := 0x801F })
  ++ [{ format := .misc, pattern := 0x0000, mask := 0xC003 }]
  ++ (List.range 7).map (fun k => { format := .misc, pattern := 0x0001 + 0x800 * k, mask := 0xF803 })
  ++ [{ format := .misc, pattern := 0x0002, mask := 0xC003 }]
  ++ ((List.range 16).filter (· ≠ 3)).map
      (fun k => { format := .cmp .zero, pattern := k, mask := 0x800F })
  ++ (List.range 13).map (fun k => { format := .out, pattern := k, mask := 0xFF0F })
  ++ [{ format := .miscDiv, pattern := 0x0010, mask := 0xC010 }]

/-- The rows with 32-bit words: `MA` and `MM`. -/
def opcodeRows32 : List OpcodeRow :=
  (List.range 4).map
    (fun k => { format := .ma, pattern := 0x80000000 + 0x1000000 * k, mask := 0xE7000000 })
  ++ [{ format := .ma, pattern := 0x00000000, mask := 0x80000000 },
      { format := .mm, pattern := 0x00000000, mask := 0x000000C1 },
      { format := .mm, pattern := 0x00000001, mask := 0x000000C1 }]

/-- The format in which a bare word of these rows is read: that of the first row whose pattern it is
exactly, else that of the first row it matches. -/
def formatAmong (rows : List OpcodeRow) (w : Nat) : Option Format :=
  match rows.find? (fun r => w == r.pattern) with
  | some r => some r.format
  | none => (rows.find? (fun r => w &&& r.mask == r.pattern)).map (·.format)

/-- The format in which a bare word of `nbits` bits is read (DESIGN CHOICE, log entry 6). -/
def tableFormat (nbits w : Nat) : Option Format :=
  match nbits with
  | 8 => some .hc
  | 16 => formatAmong opcodeRows16 w
  | 24 => some .sa
  | 32 => formatAmong opcodeRows32 w
  | 96 => some .op
  | _ => none

/-- The operation the decoder reads from a bare word of the opcode table: the word is laid out as
bytes, least significant first, and given to the decoder; a host command's operands are zero or
empty. -/
def decodeTableWord (nbits w : Nat) : Option Instr :=
  match tableFormat nbits w with
  | none => none
  | some f => match decodeBytes f (bytesOfWord (f.width / 8) w) {} with
    | .ok (i, _) => some i
    | .error _ => none

end Sys2Proof
end

