-- ==== Sys2Proof/Machine/Launch.lean ====
section
/-! DEFINITION. The launch values: the defaults of `00_scope.md` rule R8, with the reference stats table
of `42_stats_alu.md` rule R193 and the reference priority tables of `41_sram_row.md` rule R172. -/

namespace Sys2Proof

/-- Entry `i` of `REF_STATS_TABLE` (R193): `P = i[4]`, `B = i[3]`, `E = i[2:0]`. -/
def refStatsEntry (i : Nat) : StatsFormat :=
  let p := i / 16 % 2 = 1
  let b := i / 8 % 2 = 1
  let e := i % 8
  if e = 0 ∨ (¬p ∧ ¬b) then {}
  else
    let stride := 128 / e
    let byteW := if b then (if p then min 64 ((stride + 1) / 2) else min 64 stride) else 0
    let pktW := if p then min 64 (stride - byteW) else 0
    { nEntries := e, pktW := pktW, byteW := byteW, stride := stride, onesRsvd := decide (2 ≤ e) }

/-- `REF_STATS_TABLE` (R193). -/
def refStatsTable : List StatsFormat := (List.range 32).map refStatsEntry

/-- The launch record with every OPEN value at its default (R8); the instance constant `chip` of R457, which
has no default, is 0 (DESIGN CHOICE, log entry 1). -/
def Params.default : Params where
  chip := .jbay
  numPipes := 4
  numStages := 12
  numRows := 8
  sramDepth := 1024
  numMatchBuses := 2
  numTindBuses := 2
  matchBusW := 64
  tindBusW := 64
  priority := [0, 1, 2, 3, 4, 5, 6, 7, 8, 9, 10, 11]
  prigroup := [0, 0, 0, 0, 0, 0, 1, 1, 1, 1, 1, 1]
  phvN32 := 64
  phvN8 := 64
  phvN16 := 96
  phvDark := []
  numLt := 16
  numTcam := 512
  tcamW := 44
  gwEntries := 4
  gwW := 44
  statsFormats := refStatsTable
  statsRamWords := 1024
  saluRamWords := 1024
  selRamWords := 1024
  numSalu := 4
  numStatsAlu := 4
  numSelAlu := 1
  aluRow := []
  sbox14 := []
  sbox18 := []
  selModDef := .liveCount
  numCtrs := 4
  ctrClearPeriod := 1
  numTeopBuses := 4
  pipeLatency := 20
  predicationDelay := 2
  tickCycles := 1024
  clockPs := 800
  numWorkers := 2
  processGressesSeparately := false
  pipeOfPort := []
  portMap := []
  pciePorts := [320]
  waitIdleBound := 2 ^ 32
  preFifoEmpty := true
  chipId := 0
  supplied := {}

end Sys2Proof
end

