-- ==== Sys2Proof/Machine/Store.lean ====
section
/-! DEFINITION. Sparse indexed data in one canonical form: keys strictly rising, no entry equal to what
an unlisted key reads as. Everything the block indexes by `(pipe, stage, ...)` is held this way. -/

namespace Sys2Proof

/-- The order of index tuples: lexicographic, a shorter tuple before its extensions. -/
def keyLt : List Nat → List Nat → Bool
  | [], [] => false
  | [], _ :: _ => true
  | _ :: _, [] => false
  | a :: as, b :: bs => if a < b then true else if a = b then keyLt as bs else false

/-- The value at a key; an unlisted key reads as `d`. -/
def Store.get {α : Type} (d : α) : Store α → List Nat → α
  | [], _ => d
  | (k', v) :: m, k => if k' = k then v else Store.get d m k

/-- Put an entry at its place, replacing an entry of the same key. -/
def Store.insert {α : Type} (k : List Nat) (v : α) : Store α → Store α
  | [] => [(k, v)]
  | (k', v') :: m =>
    if k' = k then (k, v) :: m
    else if keyLt k k' then (k, v) :: (k', v') :: m
    else (k', v') :: Store.insert k v m

/-- Remove every entry of a key. -/
def Store.erase {α : Type} (k : List Nat) (m : Store α) : Store α := m.filter (fun e => e.1 ≠ k)

/-- Write a value: the key's entry goes, and comes back with the value unless that is what an unlisted key reads
as. -/
def Store.set {α : Type} [DecidableEq α] (d : α) (m : Store α) (k : List Nat) (v : α) : Store α :=
  if v = d then Store.erase k m else Store.insert k v (Store.erase k m)

/-- Every key is above `k`. -/
def Store.above {α : Type} (k : List Nat) (m : Store α) : Bool := m.all (fun e => keyLt k e.1)

/-- The keys rise strictly. -/
def Store.rising {α : Type} : Store α → Bool
  | [] => true
  | (k, _) :: m => Store.above k m && Store.rising m

/-- The canonical form. -/
def Store.wf {α : Type} [DecidableEq α] (d : α) (m : Store α) : Bool :=
  Store.rising m && m.all (fun e => e.2 ≠ d)

/-- Remove every entry whose key satisfies a test. -/
def Store.dropWhere {α : Type} (p : List Nat → Bool) (m : Store α) : Store α :=
  m.filter (fun e => !p e.1)

/-! ### The RAM spaces -/

/-- The content of the four word-wide RAM spaces, keyed `[space, pipe, stage, unit, col, index]`. "None
is byte addressed" (R70): the smallest addressable unit is the 128-bit word. -/
abbrev Memory := Store Word

/-- What a RAM word that nothing has written reads as: R60 leaves it unspecified (DESIGN CHOICE, unsafe,
log entry 3). -/
def unwrittenWord : Word := 0

/-- The number that names a word-wide space in a memory key. -/
def Space.code : Space → Nat
  | .sram => 0
  | .stats => 1
  | .salu => 2
  | .sel => 3
  | .tcam => 4
  | .gw => 5

/-- The memory key of an address (R70). -/
def RamAddr.key (a : RamAddr) : List Nat := [a.space.code, a.pipe, a.stage, a.unit, a.col, a.index]

/-- The word at an address. -/
def Memory.read (m : Memory) (a : RamAddr) : Word := Store.get unwrittenWord m a.key

/-- Replace the word at an address. -/
def Memory.write (m : Memory) (a : RamAddr) (w : Word) : Memory := Store.set unwrittenWord m a.key w

/-- The memory is in canonical form. -/
def Memory.wf (m : Memory) : Bool := Store.wf unwrittenWord m

end Sys2Proof
end

