-- ==== Sys2Proof/Machine/State.lean ====
section
/-! DEFINITION. The state of the block as plain data (`10_state.md`), the reasons a step can stop, and
the state after reset (R60). State indexed by `(pipe, stage, ...)` is a `Store`: its reset value is
what an unlisted index reads as. -/

namespace Sys2Proof.Machine

/-- The strictness flags (R40, R472), in the order of R472's table; `false` is the strict mode (DESIGN
CHOICE, log entry 38). -/
structure Strict where
  sramVpn       : Bool := false
  busOverride   : Bool := false
  statsFormat   : Bool := false
  selectorCount : Bool := false
  saluCarry     : Bool := false
  divideEnable  : Bool := false
  counterIndex  : Bool := false
  teopCollision : Bool := false
  lockCount     : Bool := false
  waitIdle      : Bool := false
  teopCheck     : Bool := false
  deriving DecidableEq, Repr

/-- Per-cycle resources of the rows (R41), and the results of the cycle's lookups (R542). -/
structure RowState where
  matchBus  : Store BusRec := []      -- `[pipe, stage, row, bus]`
  tindBus   : Store BusRec := []      -- `[pipe, stage, row, bus]`
  gateway   : Store GwResult := []    -- `[pipe, stage, row]`
  ltHit     : Store Nat := []         -- `[pipe, stage]`, `NUM_LT` bits
  ltInhibit : Store Nat := []         -- `[pipe, stage]`, `NUM_LT` bits
  deriving DecidableEq, Repr

/-- Hidden state of the stats ALUs (R42). -/
structure StatsState where
  stash  : Store (List EvictRec) := []   -- `[pipe, stage, alu]`, oldest first
  shadow : Store ShadowPair := []        -- `[pipe, stage, alu, word, subword]`
  deriving DecidableEq, Repr

/-- Hidden state of the stateful ALUs (R44), and the execution in progress of each. -/
structure SaluState where
  last : Store SaluLast := []   -- `[pipe, stage, alu]`
  run  : Store SaluRun := []    -- `[pipe, stage, alu]`
  deriving DecidableEq, Repr

/-- The stateful counters (R45) and the spinlock of each block. -/
structure CtrState where
  ctrs : Store Counter := []   -- `[pipe, stage, counter]`
  spin : Store Bool := []      -- `[pipe, stage]`
  deriving DecidableEq, Repr

/-- The cached bus masks (R48). -/
structure TeopCaches where
  hdr  : Store (Option Nat) := []   -- `[pipe, stage, lt]`
  teop : Store (Option Nat) := []   -- `[pipe, stage, lt]`
  deriving DecidableEq, Repr

/-- The sweeper and its tables (R49, R51). -/
structure SweeperState where
  ctl         : Store TableOpCtl := []        -- `[pipe, stage, lt, atype]`
  opsHi       : List Op := []
  opsLo       : List Op := []
  tick        : Nat := 0
  maskGlobal  : BitVec 32 := 0
  maskStage   : Store (BitVec 32) := []       -- `[stage]`
  hostOut     : List HostRec := []
  inFlight    : List Op := []                 -- R51 says a set; equal operations stand twice (log entry 74)
  lockWaiting : List Op := []                 -- as `inFlight` (log entry 74)
  deriving DecidableEq, Repr

/-- The coordinator (R52, R53, R27), with the identities of packets (R24, R449) and the blocked host
commands (R453, R455). -/
structure CoordState where
  pipes          : Store PipeState := []     -- `[pipe]`
  workers        : Store Worker := []        -- `[w]`; the reset value has `lastPipe = NUM_PIPES - 1`
  pending        : Nat := 0
  threadsWaiting : Nat := 0
  run            : Bool := false
  txOut          : List TxRec := []
  taken          : List Nat := []            -- identities the host no longer owns
  nextId         : Nat := 0                  -- above every identity in `taken`
  idleWaits      : List Nat := []            -- evaluations made by each blocked `WAIT_FOR_IDLE`
  stopping       : Bool := false             -- some `STOP` has not returned yet (log entry 33)
  deriving DecidableEq, Repr

/-- Error and interrupt state (R56). -/
structure ErrState where
  faulted : Option ErrRec := none
  log     : List ErrRec := []
  irq     : Store Bool := []                 -- a source is pending iff listed
  deriving DecidableEq, Repr

/-- The unit that an operation of one row or one ALU addresses (the `<agent>: <unit>` of R122). -/
structure Site where
  pipe  : Nat := 0
  stage : Nat := 0
  row   : Nat := 0
  alu   : Nat := 0
  deriving DecidableEq, Repr

/-- The activation in progress: the stepping agent, the unit addressed, whether a worker is inside a stage
cycle (R473), the I/O object (R25), the PHV (R21) and the ALU input data (R176) (DESIGN CHOICE, log entry
14). -/
structure ActState where
  agent   : Agent := .host
  site    : Site := {}
  inCycle : Bool := false
  io      : IoObj := {}
  phv     : Phv := []
  aluData : Word := 0
  deriving DecidableEq, Repr

/-- What a line of the agenda does: an encoded word, an operation, or a step that an agent takes by
itself. -/
inductive LineBody
  | coded (c : Coded)
  | instr (i : Instr)
  | auto (a : AutoStep)
  deriving DecidableEq, Repr

/-- One line of the notation of R122: "each line is one step of one agent". `site`, `time`, `pktlen` and
`data` are the keys `alu=`, `T=`, `pktlen=`, `data=` of a unit exercised alone; absent, they keep
their values (DESIGN CHOICE, log entry 5). -/
structure Line where
  agent  : Agent := .host
  body   : LineBody
  site   : Option Site := none
  time   : Option Nat := none
  pktlen : Option Nat := none
  data   : Option Word := none
  deriving DecidableEq, Repr

/-- The state of the block. -/
structure State where
  params : Params                       -- R8, R9: no step changes it
  strict : Strict                       -- R40
  cfg    : Store Nat                    -- R32 to R39, R58: the configuration store
  mem    : Memory                       -- R28, R29: `SRAM`, `STATS`, `SALU`, `SEL`
  tcam   : Store TcamEntry              -- R30, `[pipe, stage, entry]`
  gw     : Store GwEntry                -- R31, `[pipe, stage, row, entry]`
  row    : RowState                     -- R41
  stats  : StatsState                   -- R42
  sel    : Store SelLast                -- R43, `[pipe, stage, alu]`
  salu   : SaluState                    -- R44
  ctr    : CtrState                     -- R45
  snap   : Store SnapUnit               -- R47, `[pipe, stage, gress]`
  teop   : TeopCaches                   -- R48
  swp    : SweeperState                 -- R49, R51
  coord  : CoordState                   -- R52, R53
  err    : ErrState                     -- R56
  act    : ActState                     -- R21, R25: the activation in progress
  result : Ret                          -- what the last operation returned
  draws  : Nat                          -- the model's own: free values drawn so far
  agenda : List Line                    -- the model's own: the steps laid down from outside
  deriving DecidableEq, Repr

/-- Why the machine stops with a fault. -/
inductive Fault
  /-- Raised by `step` when `faulted` is set: "no agent steps, except the host's `GET_FIELD`,
  `RAM_READ` and reads of `error_log`" (R490). Safe: the spec says the machine is stuck. -/
  | machineFaulted
  deriving DecidableEq, Repr

/-- Why a step is refused: the spec gives the operation no meaning (R12, R480). -/
inductive Refusal
  /-- Raised by an arm of `exec` whose operation has no meaning yet. Safe. -/
  | notModelled (mnemonic : String)
  /-- Raised by `step` when the decoder rejects the word it is to run (R120). Safe. -/
  | undecodable (e : DecodeError)
  /-- Raised by `step` for operands outside the types of the operation's rule. Safe. -/
  | illFormed
  /-- Raised where a unit that runs reads a reserved code (R120, U1, U3). Safe. -/
  | reservedCode
  /-- Raised where a reserved bit of `SA`, `MA`, `CMP`, `AU`, `OUT`, `MISC`, `MM` is set (R120, U2).
  Safe. -/
  | reservedBits
  /-- Raised by `A_ADDC` and `A_SUBC` with `CHIP = TOFINO` (R120, R251, U3). Safe. -/
  | carryOnTofino
  /-- Raised by a rule that reads a configuration field holding a value outside its legal range
  (`10_state.md` section 4, U5). Safe. -/
  | illegalConfig (field : FieldName)
  /-- Raised by `get_word` and `set_word` with `n > 64` (R141, R142, U23). Safe. -/
  | wordTooWide
  /-- Raised by an enabled meter address and by a meter ALU that takes a tEOP bus (D62, R390, U21).
  Safe. -/
  | meterNotSupplied
  /-- Raised by the work of a sweeper operation with address type `IDLE` (R411 to R414, U21). Safe. -/
  | idleSweepNotSupplied
  /-- Raised by a host command that passes a packet the host does not own (R449, U4). Safe. -/
  | packetNotOwned
  /-- Raised by an operation on a pipe, stage, row, bus, ALU, worker or table that the launch parameters
  do not give the block, where no rule names an error. Safe. -/
  | noSuchUnit
  /-- Raised by `RAM_WRITE` with a value that is not of the unit of the space (R70). Safe. -/
  | ramUnitMismatch
  /-- Raised by `step` for a line whose agent has no right to the operation: "Rights are by agent" (R11,
  R119, R500). Safe. -/
  | notPermitted
  deriving DecidableEq, Repr

/-- The machine right after reset (R60, R520): everything sparse is empty, which reads as the reset
value of every index; the launch record is the default one (R8). -/
def State.reset : State where
  params := Params.default
  strict := {}
  cfg := []
  mem := []
  tcam := []
  gw := []
  row := {}
  stats := {}
  sel := []
  salu := {}
  ctr := {}
  snap := []
  teop := {}
  swp := {}
  coord := {}
  err := {}
  act := {}
  result := .none
  draws := 0
  agenda := []

end Sys2Proof.Machine
end

