-- ==== Sys2Proof/Machine/Update.lean ====
section
/-! DEFINITION. The named updates of the state, one per part. `params` has none: "a single immutable
configuration struct" (R9). `Laws/State.lean` says what each leaves alone. -/

namespace Sys2Proof.Machine

def State.setStrict (s : State) (v : Strict) : State := { s with strict := v }
def State.setCfg (s : State) (v : Store Nat) : State := { s with cfg := v }
def State.setMem (s : State) (v : Memory) : State := { s with mem := v }
def State.setTcam (s : State) (v : Store TcamEntry) : State := { s with tcam := v }
def State.setGw (s : State) (v : Store GwEntry) : State := { s with gw := v }
def State.setRow (s : State) (v : RowState) : State := { s with row := v }
def State.setStats (s : State) (v : StatsState) : State := { s with stats := v }
def State.setSel (s : State) (v : Store SelLast) : State := { s with sel := v }
def State.setSalu (s : State) (v : SaluState) : State := { s with salu := v }
def State.setCtr (s : State) (v : CtrState) : State := { s with ctr := v }
def State.setSnap (s : State) (v : Store SnapUnit) : State := { s with snap := v }
def State.setTeop (s : State) (v : TeopCaches) : State := { s with teop := v }
def State.setSwp (s : State) (v : SweeperState) : State := { s with swp := v }
def State.setCoord (s : State) (v : CoordState) : State := { s with coord := v }
def State.setErr (s : State) (v : ErrState) : State := { s with err := v }
def State.setAct (s : State) (v : ActState) : State := { s with act := v }
def State.setResult (s : State) (v : Ret) : State := { s with result := v }
def State.setDraws (s : State) (v : Nat) : State := { s with draws := v }
def State.setAgenda (s : State) (v : List Line) : State := { s with agenda := v }

end Sys2Proof.Machine
end

