-- ==== Sys2Proof/Machine/Ops.lean ====
section
/-! DEFINITION. The named operations every meaning is built from: the sequence of statements of a rule,
the raise of an error and the fault entry (`60_exceptions.md`, the block's only exception), the RAM
spaces, the configuration store, the per-index records. -/

namespace Sys2Proof.Machine

/-! ### Sequences of statements -/

/-- How a sequence ends before its last statement. -/
inductive Stop
  | faulted
  | refuse (r : Refusal)
  deriving DecidableEq, Repr

/-- A sequence of statements. A sequence that ends early keeps the state it reached: "effects of the step
made before the `raise` stay" (R490). -/
abbrev M := EStateM Stop State

/-- `refuse(reason)`: the step ends with a refusal (R14). -/
def refuse {α : Type} (r : Refusal) : M α := fun s => .error (.refuse r) s

/-- Read the state. -/
def look {α : Type} (f : State → α) : M α := fun s => .ok (f s) s

/-- Update the state. -/
def change (f : State → State) : M Unit := fun s => .ok () (f s)

/-- The outcome of an operation: its result is what it returns; a step that faulted is a next state with
`faulted` set (R490) (DEDUCED, log entry 9). -/
def outcome (m : M Ret) (s : State) : Host.Outcome State Fault Refusal :=
  match m s with
  | .ok r s' => .next (s'.setResult r)
  | .error .faulted s' => .next s'
  | .error (.refuse r) _ => .refused r

/-- A loop over a list, in order. -/
def forEach {α : Type} : List α → (α → M Unit) → M Unit
  | [], _ => pure ()
  | a :: as, f => do
    f a
    forEach as f

/-- A loop over a list that collects what each round returns. -/
def collect {α β : Type} : List α → (α → M β) → M (List β)
  | [], _ => pure []
  | a :: as, f => do
    let b ← f a
    let bs ← collect as f
    pure (b :: bs)

/-! ### Errors, and the fault entry -/

/-- The `code` of an error (R471). -/
def errCode : Err → Nat
  | .addrRange _ => 1
  | .pipeRange _ _ => 1
  | .tableRange _ => 1
  | .busOverride _ _ _ _ _ => 2
  | .statsBadFormat _ => 3
  | .statsBadSubword _ => 4
  | .selCountMismatch _ _ => 5
  | .saluCarryUnpaired _ _ => 6
  | .divNotEnabled _ _ => 7
  | .ctrIndex _ => 8
  | .teopDelay _ _ _ _ _ => 9
  | .teopCollision _ _ _ => 10
  | .lockUnderflow _ _ => 11
  | .waitIdleBound _ => 12

/-- Whether an error faults under these flags: a hard error whose relax flag is false, and `ERR_TEOP_DELAY`
under `STRICT_TEOP_CHECK` (R471, R472, R473). -/
def fatal (f : Strict) : Err → Bool
  | .addrRange _ => !f.sramVpn
  | .pipeRange _ _ => !f.sramVpn
  | .tableRange _ => !f.sramVpn
  | .busOverride _ _ _ _ _ => !f.busOverride
  | .statsBadFormat _ => !f.statsFormat
  | .statsBadSubword _ => !f.statsFormat
  | .selCountMismatch _ _ => !f.selectorCount
  | .saluCarryUnpaired _ _ => !f.saluCarry
  | .divNotEnabled _ _ => !f.divideEnable
  | .ctrIndex _ => !f.counterIndex
  | .teopDelay _ _ _ _ _ => f.teopCheck
  | .teopCollision _ _ _ => !f.teopCollision
  | .lockUnderflow _ _ => !f.lockCount
  | .waitIdleBound _ => !f.waitIdle

/-- The logical time of an error record: `io.T` "if inside a cycle" (R473), which is when a stage unit steps,
or a worker inside a stage cycle of its walk (DEDUCED, log entry 11). -/
def errTime (s : State) : Option Nat :=
  match s.act.agent with
  | .worker _ => if s.act.inCycle then some s.act.io.t else none
  | .unit _ _ => some s.act.io.t
  | .host | .sweeper => none

/-- The record an error writes (R473, R474). -/
def errRecord (s : State) (place : Option (Nat × Nat)) (e : Err) : ErrRec :=
  { code := errCode e, info := e, agent := s.act.agent, place := place, t := errTime s }

/-- `error_log <- error_log ++ [rec]` (R473). -/
def State.logError (s : State) (r : ErrRec) : State :=
  s.setErr { s.err with log := s.err.log ++ [r] }

/-- `fault(rec)`, the block's only trap entry: `faulted <- some(rec)`, sticky, and nothing else is saved
(R490). The return is reset alone, and "a second fault cannot occur" (R491): the first record stays
(DEDUCED, log entry 10). -/
def State.enterFault (s : State) (r : ErrRec) : State :=
  match s.err.faulted with
  | none => s.setErr { s.err with faulted := some r }
  | some _ => s

/-- Taking an exception: `faulted` is set and the step ends here (R490). -/
def takeFault {α : Type} (r : ErrRec) : M α := fun s => .error .faulted (s.enterFault r)

/-- `raise E(info)` (R473): the log is written in both modes. -/
def raise (place : Option (Nat × Nat)) (e : Err) : M Unit := fun s =>
  let r := errRecord s place e
  if fatal s.strict e then takeFault r (s.logError r) else .ok () (s.logError r)

/-! ### Launch sizes -/

/-- The size of a RAM space in words or entries (R70, R8). -/
def spaceSize (p : Params) : Space → Nat
  | .sram => p.sramDepth
  | .stats => p.statsRamWords
  | .salu => p.saluRamWords
  | .sel => p.selRamWords
  | .tcam => p.numTcam
  | .gw => p.gwEntries

/-- How many units of a space a stage has: rows for `SRAM` and `GW`, ALUs for the ALU RAMs, one TCAM. -/
def spaceUnits (p : Params) : Space → Nat
  | .sram => p.numRows
  | .stats => p.numStatsAlu
  | .salu => p.numSalu
  | .sel => p.numSelAlu
  | .tcam => 1
  | .gw => p.numRows

/-- How many columns a unit of a space has: the twelve SRAM columns of a row (R28). -/
def spaceCols : Space → Nat
  | .sram => numCols
  | _ => 1

/-- The address names a word or entry that the space has (R70, R71). An address whose stage, row, column or
ALU does not exist is out of range like one whose index is too great (DESIGN CHOICE, log entry 50). -/
def ramInRange (p : Params) (a : RamAddr) : Bool :=
  a.pipe < p.numPipes && a.stage < p.numStages && a.unit < spaceUnits p a.space
    && a.col < spaceCols a.space && a.index < spaceSize p a.space

/-- The pipe and stage of an address, for the error record. -/
def ramPlace (a : RamAddr) : Option (Nat × Nat) := some (a.pipe, a.stage)

/-- The stage exists. -/
def stageExists (p : Params) (pipe stage : Nat) : Bool := pipe < p.numPipes && stage < p.numStages

/-! ### The word-wide RAM spaces -/

/-- `MemRead(space, addr, 128)` (R71): out of range raises `ERR_ADDR_RANGE` and, when relaxed, reads 0. -/
def memRead (a : RamAddr) : M Word := do
  let s ← look id
  if ramInRange s.params a then pure (s.mem.read a)
  else do
    raise (ramPlace a) (.addrRange a)
    pure 0

/-- `MemWrite(space, addr, 128, v)` (R71): out of range raises `ERR_ADDR_RANGE` and, when relaxed, drops
the write. -/
def memWrite (a : RamAddr) (w : Word) : M Unit := do
  let s ← look id
  if ramInRange s.params a then change (fun s => s.setMem (s.mem.write a w))
  else raise (ramPlace a) (.addrRange a)

/-- The SRAM word of a column (R28). -/
def sramAddr (p s r c idx : Nat) : RamAddr :=
  { space := .sram, pipe := p, stage := s, unit := r, col := c, index := idx }

/-- A word of a stats ALU's RAM (R29). -/
def statsAddr (p s a word : Nat) : RamAddr :=
  { space := .stats, pipe := p, stage := s, unit := a, index := word }

/-- A word of a stateful ALU's RAM (R29). -/
def saluAddr (p s a word : Nat) : RamAddr :=
  { space := .salu, pipe := p, stage := s, unit := a, index := word }

/-- A word of a selector ALU's RAM (R29). -/
def selAddr (p s a word : Nat) : RamAddr :=
  { space := .sel, pipe := p, stage := s, unit := a, index := word }

/-! ### The configuration store -/

/-- `cfg.<field>` at its indices (R14): the stored value, 0 where the host has written none (R60). -/
def State.field (s : State) (name : FieldName) (idx : List Nat) : Nat :=
  Store.get 0 s.cfg (name.ctorIdx :: idx)

/-- A one-bit field. -/
def State.flag (s : State) (name : FieldName) (idx : List Nat) : Bool := s.field name idx % 2 == 1

/-- Store a field's value. -/
def State.putField (s : State) (name : FieldName) (idx : List Nat) (v : Nat) : State :=
  s.setCfg (Store.set 0 s.cfg (name.ctorIdx :: idx) v)

/-- An option-valued field (R38): 0 is `none`, `a + 1` is `some a`. -/
def State.optField (s : State) (name : FieldName) (idx : List Nat) : Option Nat :=
  match s.field name idx with
  | 0 => none
  | a + 1 => some a

/-- Membership in a set-valued field, "a set is a bit mask" (R485). -/
def State.inSet (s : State) (name : FieldName) (idx : List Nat) (a : Nat) : Bool :=
  (s.field name idx).testBit a

/-! ### Interrupts -/

/-- The key of an interrupt source in `irq_pending` (R494). -/
def irqKey : IrqSource → List Nat
  | .statsEvict p s a => [0, p, s, a]
  | .snapshot p s g => [1, p, s, g.ctorIdx]

/-- `irq_pending <- irq_pending + {source}` (R494). -/
def State.setIrq (s : State) (q : IrqSource) : State :=
  s.setErr { s.err with irq := Store.set false s.err.irq (irqKey q) true }

/-- `irq_pending <- irq_pending - {source}` (R495). -/
def State.clearIrq (s : State) (q : IrqSource) : State :=
  s.setErr { s.err with irq := Store.set false s.err.irq (irqKey q) false }

/-! ### Records by index -/

/-- The row bus record (R41). -/
def State.bus (s : State) (k : BusKind) (key : List Nat) : BusRec :=
  match k with
  | .matchBus => Store.get {} s.row.matchBus key
  | .tindBus => Store.get {} s.row.tindBus key

def State.putBus (s : State) (k : BusKind) (key : List Nat) (b : BusRec) : State :=
  match k with
  | .matchBus => s.setRow { s.row with matchBus := Store.set {} s.row.matchBus key b }
  | .tindBus => s.setRow { s.row with tindBus := Store.set {} s.row.tindBus key b }

/-- `evict_stash` of a stats ALU (R42). -/
def State.stash (s : State) (p st a : Nat) : List EvictRec := Store.get [] s.stats.stash [p, st, a]

def State.putStash (s : State) (p st a : Nat) (l : List EvictRec) : State :=
  s.setStats { s.stats with stash := Store.set [] s.stats.stash [p, st, a] l }

/-- A shadow pair of a stats ALU (R42). -/
def State.shadow (s : State) (p st a word sub : Nat) : ShadowPair :=
  Store.get {} s.stats.shadow [p, st, a, word, sub]

def State.putShadow (s : State) (p st a word sub : Nat) (v : ShadowPair) : State :=
  s.setStats { s.stats with shadow := Store.set {} s.stats.shadow [p, st, a, word, sub] v }

/-- `sel_last` (R43). -/
def State.selLast (s : State) (p st a : Nat) : SelLast := Store.get {} s.sel [p, st, a]

def State.putSelLast (s : State) (p st a : Nat) (v : SelLast) : State :=
  s.setSel (Store.set {} s.sel [p, st, a] v)

/-- `salu_last` (R44). -/
def State.saluLast (s : State) (p st a : Nat) : SaluLast := Store.get {} s.salu.last [p, st, a]

def State.putSaluLast (s : State) (p st a : Nat) (v : SaluLast) : State :=
  s.setSalu { s.salu with last := Store.set {} s.salu.last [p, st, a] v }

/-- The execution in progress of a stateful ALU (R252). -/
def State.saluRun (s : State) (p st a : Nat) : SaluRun := Store.get {} s.salu.run [p, st, a]

def State.putSaluRun (s : State) (p st a : Nat) (v : SaluRun) : State :=
  s.setSalu { s.salu with run := Store.set {} s.salu.run [p, st, a] v }

/-- A stateful counter (R45). -/
def State.counter (s : State) (p st c : Nat) : Counter := Store.get {} s.ctr.ctrs [p, st, c]

def State.putCounter (s : State) (p st c : Nat) (v : Counter) : State :=
  s.setCtr { s.ctr with ctrs := Store.set {} s.ctr.ctrs [p, st, c] v }

/-- The spinlock of a counter block (R351). -/
def State.putSpin (s : State) (p st : Nat) (v : Bool) : State :=
  s.setCtr { s.ctr with spin := Store.set false s.ctr.spin [p, st] v }

/-- A snapshot unit (R360). -/
def State.snapUnit (s : State) (p st : Nat) (g : Gress) : SnapUnit := Store.get {} s.snap [p, st, g.ctorIdx]

def State.putSnapUnit (s : State) (p st : Nat) (g : Gress) (v : SnapUnit) : State :=
  s.setSnap (Store.set {} s.snap [p, st, g.ctorIdx] v)

/-- The key of a table's control (R395). -/
def ctlKey (t : TableId) (a : AType) : List Nat := [t.pipe, t.stage, t.lt, a.ctorIdx]

/-- `ctl(table, atype)` (R395). -/
def State.ctl (s : State) (t : TableId) (a : AType) : TableOpCtl := Store.get {} s.swp.ctl (ctlKey t a)

def State.putCtl (s : State) (t : TableId) (a : AType) (v : TableOpCtl) : State :=
  s.setSwp { s.swp with ctl := Store.set {} s.swp.ctl (ctlKey t a) v }

/-- `host_out <- host_out ++ [r]` (R51). -/
def State.emit (s : State) (r : HostRec) : State :=
  s.setSwp { s.swp with hostOut := s.swp.hostOut ++ [r] }

/-- The queues, flags and clock of a pipe (R52, R27). -/
def State.pipe (s : State) (p : Nat) : PipeState := Store.get {} s.coord.pipes [p]

def State.putPipe (s : State) (p : Nat) (v : PipeState) : State :=
  s.setCoord { s.coord with pipes := Store.set {} s.coord.pipes [p] v }

/-- A worker's reset value: `last_pipe = NUM_PIPES - 1`, stopped, nothing held (R60); not notified, which R60 does not
say (DESIGN CHOICE, log entry 32). -/
def workerReset (p : Params) : Worker := { lastPipe := p.numPipes - 1 }

/-- A worker (R53). -/
def State.worker (s : State) (w : Nat) : Worker := Store.get (workerReset s.params) s.coord.workers [w]

def State.putWorker (s : State) (w : Nat) (v : Worker) : State :=
  s.setCoord { s.coord with workers := Store.set (workerReset s.params) s.coord.workers [w] v }

/-- Update the I/O object of the activation (R25). -/
def State.setIo (s : State) (io : IoObj) : State := s.setAct { s.act with io := io }

/-! ### Free values -/

/-- The next number of the free-value counter; each is used once. -/
def drawIndex : M Nat := fun s => .ok s.draws (s.setDraws (s.draws + 1))

end Sys2Proof.Machine
end

