-- ==== Sys2Proof/Machine/Operands.lean ====
section
/-! DEFINITION. Every operand form of the block: the PHV containers, the fields of a stateful
instruction word, the operand sources of its units, the entry a sub-address selects, the subwords of
the min/max unit, the formatted addresses. -/

namespace Sys2Proof.Machine

/-! ### PHV containers (R21) -/

/-- The number of containers. -/
def phvCount (p : Params) : Nat := p.phvN32 + p.phvN8 + p.phvN16

/-- The width of a container: 32-bit first, then 8-bit, then 16-bit; 0 outside the index space. -/
def phvWidth (p : Params) (i : Nat) : Nat :=
  if i < p.phvN32 then 32
  else if i < p.phvN32 + p.phvN8 then 8
  else if i < phvCount p then 16
  else 0

/-- `phv[i]`; an index outside the index space reads 0. -/
def phvGet (p : Params) (phv : Phv) (i : Nat) : Nat := phv.getD i 0 % 2 ^ phvWidth p i

/-- A PHV with exactly the containers of the block, each below two to its width (R20, R22) (DEDUCED, log
entry 34). -/
def phvNormal (p : Params) (phv : Phv) : Phv := (List.range (phvCount p)).map (phvGet p phv)

/-- `make_word_p(g, i)` (R21). -/
def makeWordP (g i : Nat) : Nat := 32 * g + i

/-! ### The stateful instruction word (R108) -/

/-- The 16-bit sub-format at a position of `SI`. -/
def siPart (instr : Word) (lo : Nat) : Nat := wordBits instr lo 16

def siCmp0 (instr : Word) : Nat := siPart instr 0
def siCmp1 (instr : Word) : Nat := siPart instr 16
def siAluLo (instr : Word) : Nat := siPart instr 32
def siAluHi (instr : Word) : Nat := siPart instr 48
def siOut (instr : Word) : Nat := siPart instr 64
def siMisc (instr : Word) : Nat := siPart instr 80

/-- `I.CONST mod 2^W` (R114). -/
def siConst (instr : Word) (W : Nat) : Nat := wordBits instr 96 32 % 2 ^ W

/-- No reserved (must-be-zero) bit of `CMP0`, `CMP1`, `ALU_LO`, `ALU_HI`, `OUT`, `MISC` is set (R120)
(DEDUCED, log entry 18). -/
def siReservedZero (instr : Word) : Bool :=
  !wordBit (siCmp0 instr) 15 && !wordBit (siCmp1 instr) 15 && !wordBit (siAluLo instr) 15
    && !wordBit (siAluHi instr) 15 && siOut instr / 2 ^ 8 % 256 == 0 && siMisc instr / 2 ^ 14 % 4 == 0

/-- `W` from `MISC.width` (R253); 3 is reserved. -/
def widthOf (code : BitVec 2) : Option Nat :=
  match code.toNat with
  | 0 => some 32
  | 1 => some 16
  | 2 => some 8
  | _ => none

/-- `MISC.mode` (R112); 3 is reserved. -/
def modeOf (code : Nat) : Option Mode :=
  match code with
  | 0 => some .dual
  | 1 => some .onebit
  | 2 => some .minmax
  | _ => none

/-- `cop` (R109); 3 is reserved. -/
def cmpOpOf (code : Nat) : Option CmpOp :=
  match code with
  | 0 => some .eq
  | 1 => some .ne
  | 2 => some .disabled
  | 4 => some .gtS
  | 5 => some .geS
  | 6 => some .ltS
  | 7 => some .leS
  | 8 => some .gtU
  | 9 => some .geU
  | 10 => some .ltU
  | 11 => some .leU
  | 12 => some .gtUus
  | 13 => some .geUus
  | 14 => some .ltUus
  | 15 => some .leUus
  | _ => none

/-- `aop[3:0]` of an arithmetic code (R110); 14 and 15 are reserved. -/
def arithOpOf (code : Nat) : Option ArithOp :=
  match code with
  | 0 => some .nop
  | 1 => some .add
  | 2 => some .sub
  | 3 => some .subr
  | 4 => some .saddu
  | 5 => some .sadds
  | 6 => some .ssubu
  | 7 => some .ssubs
  | 8 => some .minu
  | 9 => some .mins
  | 10 => some .maxu
  | 11 => some .maxs
  | 12 => some .addc
  | 13 => some .subc
  | _ => none

/-- `out_sel` (R111); 13 to 15 are reserved. -/
def outSelOf (code : Nat) : Option OutSel :=
  match code with
  | 0 => some .none
  | 1 => some .ramLo
  | 2 => some .ramHi
  | 3 => some .phvLo
  | 4 => some .phvHi
  | 5 => some .aluLo
  | 6 => some .aluHi
  | 7 => some .pred
  | 8 => some .div
  | 9 => some .mod
  | 10 => some .mmValue
  | 11 => some .mmIndex
  | 12 => some .bitOld
  | _ => none

/-- `bit_op` (R112); 7 is reserved. -/
def bitOpOf (code : Nat) : Option BitOp :=
  match code with
  | 0 => some .nop
  | 1 => some .read
  | 2 => some .readc
  | 3 => some .set
  | 4 => some .setc
  | 5 => some .clr
  | 6 => some .clrc
  | _ => none

/-! ### The addressed entry and the operand sources -/

/-- The first bit of the `2W`-bit entry that a sub-address selects (R254). -/
def entryBase (sub W : Nat) : Nat := sub / (2 * W) * (2 * W)

/-- `lo` and `hi` as read (R254). -/
def runLo (r : SaluRun) : Nat := wordBits r.input r.base r.width
def runHi (r : SaluRun) : Nat := wordBits r.input (r.base + r.width) r.width

/-- The halves of `word'` (R326). -/
def runNewLo (r : SaluRun) : Nat := wordBits r.output r.base r.width
def runNewHi (r : SaluRun) : Nat := wordBits r.output (r.base + r.width) r.width

/-- `phv_lo` and `phv_hi` (R114). -/
def runPhvLo (r : SaluRun) : Nat := wordBits r.data 0 r.width
def runPhvHi (r : SaluRun) : Nat := wordBits r.data r.width r.width

/-- `operand(code)` (R114, R255); 5 to 7 are reserved. -/
def operand (r : SaluRun) (code : BitVec 3) : Option Nat :=
  match code.toNat with
  | 0 => some (runLo r)
  | 1 => some (runHi r)
  | 2 => some (runPhvLo r)
  | 3 => some (runPhvHi r)
  | 4 => some (siConst r.instr r.width)
  | _ => none

/-- The half a unit works on, before the execution's write (R276). -/
def oldHalf (r : SaluRun) : Half → Nat
  | .lo => runLo r
  | .hi => runHi r

/-- The first bit of a half. -/
def halfBase (r : SaluRun) : Half → Nat
  | .lo => r.base
  | .hi => r.base + r.width

/-- A divide operand: the low 16 bits of a source, read as `s_16` (R115, R317). -/
def divOperand (v : Nat) : Int := signed 16 (v % 2 ^ 16)

/-- The operand bit of a 1-bit operation (R309). -/
def bitOperand (r : SaluRun) : Nat := wordBits r.input r.sub 1

/-! ### Min/max subwords (R320, R321) -/

/-- How many subwords, and their width. -/
def mmGeometry (c : MmFields) : Nat × Nat := if c.size16 then (8, 16) else (16, 8)

/-- The mask of the participating subwords. -/
def mmMask (c : MmFields) (data : Word) : Nat :=
  (if c.maskSrc then data.toNat else c.constMask.toNat) % 2 ^ (mmGeometry c).1

/-- Subword `j`. -/
def mmSubword (c : MmFields) (w : Word) (j : Nat) : Nat :=
  wordBits w ((mmGeometry c).2 * j) (mmGeometry c).2

/-- The selected set `S`, in increasing order. -/
def mmSet (c : MmFields) (data : Word) : List Nat :=
  (List.range (mmGeometry c).1).filter (fun j => (mmMask c data).testBit j)

/-! ### Formatted addresses -/

/-- The 20-bit entry address `{word, subword}` of a stats address (R104). -/
def saEntry (f : SaFields) : BitVec 20 := BitVec.ofNat 20 (f.subword.toNat + 2 ^ 3 * f.word.toNat)

/-- The code of a stats operation (R104). -/
def statsCode : StatsOp → Nat
  | .nop => 0
  | .stats => 1
  | .cfgRd => 2
  | .cfgRdclr => 3

/-- The 24 bits of an enabled stats address (R104), the `sa` that `ERR_STATS_BAD_SUBWORD` records (R192). -/
def saWord (op : StatsOp) (f : SaFields) : BitVec 24 :=
  BitVec.ofNat 24 (f.subword.toNat + 2 ^ 3 * f.word.toNat + 2 ^ 20 * statsCode op + 2 ^ 23)

/-- The `sa` of an entry that a sweeper operation addresses with no `SA` word: its address bits, with `en` and
`op` 0 (R207) (DESIGN CHOICE, log entry 49). -/
def entrySa (word sub : Nat) : BitVec 24 := BitVec.ofNat 24 (sub % 8 + 8 * word)

/-- A stats address as an ALU receives it (R104, R120): the operation and the address fields; a clear
enable bit is the no-operation; `none` when the reserved bit of an enabled address is set. -/
def saParse (w : Nat) : Option (StatsOp × SaFields) :=
  if !wordBit w 23 then some (.nop, saFields w)
  else if wordBit w 22 then none
  else some ((match w / 2 ^ 20 % 4 with
    | 0 => .nop
    | 1 => .stats
    | 2 => .cfgRd
    | _ => .cfgRdclr), saFields w)

/-- The signed adjustment `s_14(byte_adjust)` (R115, R198). -/
def byteAdjust (v : Nat) : Int := signed 14 v

/-- `EW(pkt, byt)` (R117). -/
def evictWordOf (pkt byt : Nat) : Word := BitVec.ofNat 128 (byt % 2 ^ 64 + 2 ^ 64 * (pkt % 2 ^ 64))

/-- `ptr >> 7` and `ptr[6:0]` of a counter pointer (R331). -/
def ptrWord (ptr : Nat) : Nat := ptr / 2 ^ 7
def ptrSub (ptr : Nat) : Nat := ptr % 2 ^ 7

/-! ### Sweep intervals (R115, R418) -/

def intervalToTicks (i : BitVec 5) : Nat := 2 ^ i.toNat
def intervalToCycles (p : Params) (i : BitVec 5) : Nat := 2 ^ i.toNat * p.tickCycles
def intervalToPsecs (p : Params) (i : BitVec 5) : Nat := 2 ^ i.toNat * p.tickCycles * p.clockPs

end Sys2Proof.Machine
end

