-- ==== Sys2Proof/Machine/Flags.lean ====
section
/-! DEFINITION. Every flag computation of the block: compare results and their gating, predicates, carry
and borrow, the reserved value of a stats entry, the counter flag byte (R57). -/

namespace Sys2Proof.Machine

/-! ### Compare results (R257 to R272) -/

/-- How a compare operation reads operands A and B, and the constant (R257). -/
def cmpReads (op : CmpOp) (W a b c : Nat) : Int × Int × Int :=
  match op with
  | .gtS | .geS | .ltS | .leS => (signed W a, signed W b, signed W c)
  | .gtUus | .geUus | .ltUus | .leUus => ((a : Int), (b : Int), signed W c)
  | .eq | .ne | .disabled | .gtU | .geU | .ltU | .leU => ((a : Int), (b : Int), (c : Int))

/-- The compared quantity `v`, an exact integer (R257). -/
def cmpValue (op : CmpOp) (c : CmpFields) (W a b k : Nat) : Int :=
  let r := cmpReads op W a b k
  r.1 + (if c.bNeg then -r.2.1 else r.2.1) + (if c.cEn then r.2.2 else 0)

/-- `relation(cop, v)` (R258 to R272). -/
def relation (op : CmpOp) (W : Nat) (v : Int) : Bool :=
  match op with
  | .eq => v % 2 ^ W == 0
  | .ne => v % 2 ^ W != 0
  | .disabled => false
  | .gtS | .gtU | .gtUus => decide (0 < v)
  | .geS | .geU | .geUus => decide (0 ≤ v)
  | .ltS | .ltU | .ltUus => decide (v < 0)
  | .leS | .leU | .leUus => decide (v ≤ 0)

/-- The raw result of a compare unit; `none` where it reads a reserved source (R257). Every compare reads
both operands, `CMP_DISABLED` among them, whose result is false "whatever the operands" (R257, R260). -/
def cmpRaw (op : CmpOp) (c : CmpFields) (r : SaluRun) : Option Bool :=
  match operand r c.srcA, operand r c.srcB with
  | some a, some b =>
    some (relation op r.width (cmpValue op c r.width a b (siConst r.instr r.width)))
  | _, _ => none

/-- Sbus gating (R273). -/
def gate (raw : Bool) (c : CmpFields) (s : Bool) : Bool :=
  let t := xor s c.sbusInv
  let r := if c.sbusAnd then raw && t else raw
  if c.sbusOr then r || t else r

/-- The sbus bit of ALU `i` from the raw results of the others (R274); `comb` 0 is OR, 1 is AND. -/
def sbusBit (numSalu : Nat) (comb : Bool) (mask i : Nat) (raw : Nat → Bool) : Bool :=
  let src := (List.range numSalu).filter (fun j => mask.testBit j && j != i)
  if comb then src.all raw else src.any raw

/-! ### Predicates (R275) -/

/-- `tt[2*p1 + p0]`. -/
def predicate (tt : BitVec 4) (p0 p1 : Bool) : Bool := tt.toNat.testBit (2 * p1.toNat + p0.toNat)

/-! ### Carry and borrow (R278, R279) -/

/-- The carry of the lo unit's add. -/
def carryOf (W a b : Nat) : Bool := (a + b) / 2 ^ W == 1

/-- The borrow of the lo unit's subtract. -/
def borrowOf (a b : Nat) : Bool := a < b

/-! ### The reserved value (R196) -/

/-- A sub-entry at the reserved value: both fields all ones, in a format that reserves it; a field of
width 0 counts as all ones. -/
def atReserved (f : StatsFormat) (pkt byt : Nat) : Bool :=
  f.onesRsvd && pkt == ones f.pktW && byt == ones f.byteW

/-! ### The counter flag byte (R46, R118, R350) -/

def flStartPending : BitVec 8 := 1#8
def flRunning : BitVec 8 := 2#8
def flOverflowed : BitVec 8 := 4#8
def flUnderflowed : BitVec 8 := 8#8

def hasFlag (f bit : BitVec 8) : Bool := f &&& bit != 0#8

/-- "active" (R350). -/
def ctrActive (f : BitVec 8) : Bool := hasFlag f flStartPending || hasFlag f flRunning

/-- "flagged" (R350). -/
def ctrFlagged (f : BitVec 8) : Bool := f &&& 0x0F#8 != 0#8

end Sys2Proof.Machine
end

