-- ==== Sys2Proof/Machine/BitVector.lean ====
section
/-! DEFINITION. The meanings of the BitVector operations (`40_bitvector.md`): pure functions that write
no flag and raise no error; only the result register of the model records what they return. -/

namespace Sys2Proof.Machine

/-- An operation that returns a value and changes nothing else. -/
def answer (r : Ret) (s : State) : Host.Outcome State Fault Refusal := outcome (pure r) s

/-- An access of more than 64 bits is refused (R141, R142). -/
def answerWithin64 (len : Nat) (r : Ret) (s : State) : Host.Outcome State Fault Refusal :=
  if len ≤ 64 then answer r s else .refused .wordTooWide

/-- R141. -/
def execBvGetWord (n v off len : Nat) (s : State) : Host.Outcome State Fault Refusal :=
  answerWithin64 len (.nat (getBits n v off len)) s

/-- R142. -/
def execBvSetWord (n v value off len : Nat) (s : State) : Host.Outcome State Fault Refusal :=
  answerWithin64 len (.nat (setBits n v value off len)) s

/-- R143. -/
def execBvFromWords (n : Nat) (words : List (BitVec 64)) (s : State) :
    Host.Outcome State Fault Refusal :=
  answer (.nat (fromWords n words)) s

/-- R144. -/
def execBvTcamCompare (n w0 w1 s0 s1 : Nat) (s : State) : Host.Outcome State Fault Refusal :=
  answer (.bool (tcamCompare n w0 w1 s0 s1)) s

/-- R145: the pair `(s0, s1)`. -/
def execBvSearchEncode (n key : Nat) (s : State) : Host.Outcome State Fault Refusal :=
  answer (.pair (searchEncode n key).1 (searchEncode n key).2) s

/-- R147. -/
def execBvMaskedS0q1S1q0Equals (n stored query m01 m10 : Nat) (s : State) :
    Host.Outcome State Fault Refusal :=
  answer (.bool (asymmetricEquals n stored query m01 m10)) s

/-- R148. -/
def execBvMaskedEquals (_n v w m : Nat) (s : State) : Host.Outcome State Fault Refusal :=
  answer (.bool (maskedEquals v w m)) s

/-- R149: the pair of the number of ones and the parity. -/
def execBvPopcountParity (n v : Nat) (s : State) : Host.Outcome State Fault Refusal :=
  answer (.pair (popcount n v) (parity n v)) s

/-- R150. -/
def execBvByteShift (n v k : Nat) (dir : ShiftDir) (s : State) : Host.Outcome State Fault Refusal :=
  answer (.nat (match dir with
    | .left => byteShiftLeft n v k
    | .right => byteShiftRight n v k)) s

/-- R151. -/
def execBvExtractInto (n src off m : Nat) (s : State) : Host.Outcome State Fault Refusal :=
  answer (.nat (getBits n src off m)) s

/-- R152. -/
def execBvSetFrom (n dst off m src : Nat) (s : State) : Host.Outcome State Fault Refusal :=
  answer (.nat (setBits n dst src off m)) s

end Sys2Proof.Machine
end

