-- ==== Sys2Proof/Machine/Stats.lean ====
section
/-! DEFINITION. The stats ALU (`42_stats_alu.md`): formats, counting, the reserved value, LRT eviction,
the shadow counters, reads and clears, and the entry helpers of the sweeper. -/

namespace Sys2Proof.Machine

/-! ### Formats (R191 to R194) -/

/-- `STATS_FORMAT_TABLE[fmt]`. -/
def statsFormatAt (p : Params) (fmt : Nat) : StatsFormat := p.statsFormats.getD fmt {}

/-- Where the fields of sub-entry `k` lie: byte count at `k * stride`, packet count above it (R194). -/
def byteOff (f : StatsFormat) (k : Nat) : Nat := k * f.stride
def pktOff (f : StatsFormat) (k : Nat) : Nat := k * f.stride + f.byteW

/-- The counts of sub-entry `k` (R195); 0 where the width is 0. -/
def pktOf (f : StatsFormat) (w : Word) (k : Nat) : Nat := wordBits w (pktOff f k) f.pktW
def byteOf (f : StatsFormat) (w : Word) (k : Nat) : Nat := wordBits w (byteOff f k) f.byteW

/-- The word with both counts of sub-entry `k` replaced (R197). -/
def setCounts (f : StatsFormat) (w : Word) (k pkt byt : Nat) : Word :=
  wordSet (wordSet w byt (byteOff f k) f.byteW) pkt (pktOff f k) f.pktW

/-- `EW` of sub-entry `k` (R117, R207). -/
def entryWord (f : StatsFormat) (w : Word) (k : Nat) : Word := evictWordOf (pktOf f w k) (byteOf f w k)

/-- Format and subword validation (R192): the format before the subword (R475); `none` when an error was
relaxed and the operation does nothing. -/
def statsValidate (p st a sub : Nat) (sa : BitVec 24) : M (Option StatsFormat) := do
  let s ← look id
  let fmt := s.field .statsFormat [p, st, a]
  let f := statsFormatAt s.params fmt
  if f.nEntries = 0 then do
    raise (some (p, st)) (.statsBadFormat fmt)
    pure none
  else if f.nEntries ≤ sub then do
    raise (some (p, st)) (.statsBadSubword sa)
    pure none
  else pure (some f)

/-! ### Counting -/

/-- `byte_increment(pktlen)` (R198). -/
def byteIncrement (adjust pktlen : Nat) : Nat := ((pktlen : Int) + byteAdjust adjust).toNat

/-- The LRT test fires (R200): enabled, not at the reserved value, and the exact product over the
threshold. -/
def lrtFires (s : State) (p st a : Nat) (f : StatsFormat) (pkt byt : Nat) : Bool :=
  s.flag .lrtEnable [p, st, a] && !atReserved f pkt byt
    && decide (s.field .lrtThreshold [p, st, a] <
      (if 0 < f.byteW then byt else pkt) * s.field .lrtMultiplier [p, st, a])

/-- Append to `evict_stash`; "every append ... adds the interrupt source `IRQ_STATS_EVICT`" (R202). -/
def State.stashEntry (s : State) (p st a : Nat) (e : EvictRec) : State :=
  (s.putStash p st a (s.stash p st a ++ [e])).setIrq (.statsEvict p st a)

/-- `lrt(pkt', byt', sa)` (R200): the counts that go back to the RAM. -/
def lrt (p st a : Nat) (f : StatsFormat) (entry : BitVec 20) (pkt byt : Nat) : M (Nat × Nat) := do
  let s ← look id
  if lrtFires s p st a f pkt byt then do
    change (fun s => s.stashEntry p st a { addr := entry, word := evictWordOf pkt byt })
    pure (0, 0)
  else pure (pkt, byt)

/-- `shadow_update(sa, inc)` (R203). -/
def shadowUpdate (p st a word sub inc : Nat) (s : State) : State :=
  let v := s.shadow p st a word sub
  s.putShadow p st a word sub { pkts := v.pkts + 1, bytes := v.bytes + BitVec.ofNat 64 inc }

/-- `STATS` after validation and the read (R197). -/
def statsCount (p st a : Nat) (f : StatsFormat) (sa : SaFields) (word : Word) (pktlen : Nat) : M Unit := do
  let s ← look id
  let k := sa.subword.toNat
  let inc := byteIncrement (s.field .byteAdjust [p, st, a]) pktlen
  if !atReserved f (pktOf f word k) (byteOf f word k) then do
    let (pkt, byt) ← lrt p st a f (saEntry sa) ((pktOf f word k + 1) % 2 ^ f.pktW)
      ((byteOf f word k + inc) % 2 ^ f.byteW)
    memWrite (statsAddr p st a sa.word.toNat) (setCounts f word k pkt byt)
  else pure ()
  if s.flag .fullResEnable [p, st, a] then
    change (shadowUpdate p st a sa.word.toNat k inc)
  else pure ()

/-- Read data goes to the outputs and to `host_out` (R543) (DEDUCED, log entry 20). -/
def readData (p st : Nat) (kind : AluKind) (a : Nat) (w : Word) : M AluOut := do
  change (fun s => s.emit (.cfgData p st kind a w))
  pure (.data w)

/-- `CFG_RDCLR` after the read (R205). -/
def statsClear (p st a : Nat) (f : StatsFormat) (sa : SaFields) (word : Word) : M Unit := do
  let k := sa.subword.toNat
  if !atReserved f (pktOf f word k) (byteOf f word k) then
    memWrite (statsAddr p st a sa.word.toNat) (setCounts f word k 0 0)
  else pure ()

/-- `run_alu_with_state(sa, pktlen, T)` of stats ALU `a` (R195). -/
def statsRun (p st a : Nat) (op : StatsOp) (sa : SaFields) (pktlen : Nat) : M AluOut :=
  match op with
  | .nop => pure .none
  | _ => do
    let fmt ← statsValidate p st a sa.subword.toNat (saWord op sa)
    match fmt with
    | none => pure .none
    | some f => do
      let word ← memRead (statsAddr p st a sa.word.toNat)
      match op with
      | .nop => pure .none
      | .stats => do
        statsCount p st a f sa word pktlen
        pure .none
      | .cfgRd => readData p st .stats a word
      | .cfgRdclr => do
        statsClear p st a f sa word
        readData p st .stats a word

/-- A raw stats address delivered to ALU `a`; a set reserved bit is refused (R120). -/
def statsAddress (p st a : Nat) (raw : BitVec 24) (pktlen : Nat) : M AluOut :=
  match saParse raw.toNat with
  | none => refuse .reservedBits
  | some (op, sa) => statsRun p st a op sa pktlen

/-! ### Entry helpers used by the sweeper (R207) -/

/-- The sub-entry's word, validated: `none` when an error was relaxed. -/
def entryRead (p st a word k : Nat) : M (Option (StatsFormat × Word)) := do
  let fmt ← statsValidate p st a k (entrySa word k)
  match fmt with
  | none => pure none
  | some f => do
    let w ← memRead (statsAddr p st a word)
    pure (some (f, w))

/-- `dump_entry(word, k)`. -/
def dumpEntry (p st a word k : Nat) : M (Option Word) := do
  let r ← entryRead p st a word k
  match r with
  | none => pure none
  | some (f, w) => pure (some (entryWord f w k))

/-- `evict_entry(word, k)`: the same, then the sub-entry is cleared unless it is at the reserved value. -/
def evictEntry (p st a word k : Nat) : M (Option Word) := do
  let r ← entryRead p st a word k
  match r with
  | none => pure none
  | some (f, w) => do
    if !atReserved f (pktOf f w k) (byteOf f w k) then
      memWrite (statsAddr p st a word) (setCounts f w k 0 0)
    else pure ()
    pure (some (entryWord f w k))

/-- `sweep_entry(word, k)`: the test of R200 on the stored counts. -/
def sweepEntry (p st a word k : Nat) : M Unit := do
  let r ← entryRead p st a word k
  match r with
  | none => pure ()
  | some (f, w) => do
    let s ← look id
    if lrtFires s p st a f (pktOf f w k) (byteOf f w k) then do
      change (fun s => s.stashEntry p st a
        { addr := BitVec.ofNat 20 (k % 8 + 8 * word), word := entryWord f w k })
      memWrite (statsAddr p st a word) (setCounts f w k 0 0)
    else pure ()

/-! ### The meanings, at the ALU of the current site -/

/-- The site's stats ALU exists; an operation elsewhere is refused. -/
def atStats {α : Type} (f : Nat → Nat → Nat → M α) : M α := do
  let s ← look id
  let k := s.act.site
  if stageExists s.params k.pipe k.stage && k.alu < s.params.numStatsAlu then f k.pipe k.stage k.alu
  else refuse .noSuchUnit

/-- A stats address delivered to the ALU of the site, with the packet length of the I/O object (R199). -/
def statsOp (op : StatsOp) (sa : SaFields) : M Ret :=
  atStats (fun p st a => do
    let len ← look (fun s => s.act.io.byteLen)
    let o ← statsRun p st a op sa len
    pure (.alu o))

/-- R206. -/
def execStatsNop (a : SaFields) (s : State) : Host.Outcome State Fault Refusal :=
  outcome (statsOp .nop a) s

/-- R197. -/
def execStats (a : SaFields) (s : State) : Host.Outcome State Fault Refusal :=
  outcome (statsOp .stats a) s

/-- R204. -/
def execCfgRd (a : SaFields) (s : State) : Host.Outcome State Fault Refusal :=
  outcome (statsOp .cfgRd a) s

/-- R205. -/
def execCfgRdclr (a : SaFields) (s : State) : Host.Outcome State Fault Refusal :=
  outcome (statsOp .cfgRdclr a) s

/-- R206: with `en = 0` every other field is ignored (R120). -/
def execStatsDisabled (_rest : BitVec 23) (s : State) : Host.Outcome State Fault Refusal :=
  outcome (atStats (fun _ _ _ => pure (.alu .none))) s

/-- R207 `dump_entry`. -/
def execStatsDumpEntry (word subword : Nat) (s : State) : Host.Outcome State Fault Refusal :=
  outcome (atStats (fun p st a => do
    let e ← dumpEntry p st a word subword
    pure (match e with
      | none => .none
      | some w => .word w))) s

/-- R200: the pair of counts that go back to the RAM. The `sa` of the row is that of the `STATS` address
whose check it is (DESIGN CHOICE, log entry 49). -/
def execStatsLrtCheck (a : SaFields) (pkt byt : Nat) (s : State) : Host.Outcome State Fault Refusal :=
  outcome (atStats (fun p st alu => do
    let fmt ← statsValidate p st alu a.subword.toNat (saWord .stats a)
    match fmt with
    | none => pure .none
    | some f => do
      let (pkt', byt') ← lrt p st alu f (saEntry a) pkt byt
      pure (.pair pkt' byt'))) s

end Sys2Proof.Machine
end

