-- ==== Sys2Proof/Machine/Salu.lean ====
section
/-! DEFINITION. The stateful ALU (`44_stateful_alu.md`): the execution sequence of R252 and its parts.
A row of the table that names one micro-operation (`CMP`, `AU`, `OUT`, `MISC`, `MM`) is that part of
the sequence, on the execution in progress of the current site's ALU. -/

namespace Sys2Proof.Machine

/-- Read the execution in progress. -/
def runOf (p st a : Nat) : M SaluRun := look (fun s => s.saluRun p st a)

/-- Replace the execution in progress. -/
def putRun (p st a : Nat) (r : SaluRun) : M Unit := change (fun s => s.putSaluRun p st a r)

/-- A value a unit needs; a reserved code is refused (R120). -/
def need {α : Type} (v : Option α) : M α := fun s =>
  match v with
  | some x => .ok x s
  | none => .error (.refuse .reservedCode) s

/-! ### Compare units (R257 to R273) -/

/-- The execution with the result of a compare unit. -/
def withCompare (r : SaluRun) (c : CmpFields) (raw : Bool) : SaluRun :=
  match c.unit with
  | .zero => { r with raw0 := raw, p0 := gate raw c r.sbus0 }
  | .one => { r with raw1 := raw, p1 := gate raw c r.sbus1 }

/-- The gated result of the unit. -/
def gatedOf (r : SaluRun) : CmpUnit → Bool
  | .zero => r.p0
  | .one => r.p1

/-- One compare unit: raw result, then the gate. -/
def compareUnit (p st a : Nat) (op : CmpOp) (c : CmpFields) : M Bool := do
  let r ← runOf p st a
  let raw ← need (cmpRaw op c r)
  putRun p st a (withCompare r c raw)
  pure (gatedOf (withCompare r c raw) c.unit)

/-! ### Arithmetic and logic units (R276 to R308) -/

/-- `clamp(v, -M/2, M/2 - 1)` re-encoded in `W` bits (R282, R284). -/
def clampSigned (W : Nat) (v : Int) : Nat :=
  unsigned W (max (-(2 ^ (W - 1) : Int)) (min v (2 ^ (W - 1) - 1)))

/-- `arith(op, a, b, half, old)` but for the carry chain (R277 to R288): the new half. -/
def arithValue (op : ArithOp) (W a b old : Nat) : Nat :=
  match op with
  | .nop => old
  | .add => (a + b) % 2 ^ W
  | .sub => unsigned W ((a : Int) - b)
  | .subr => unsigned W ((b : Int) - a)
  | .saddu => min (a + b) (ones W)
  | .sadds => clampSigned W (signed W a + signed W b)
  | .ssubu => a - b
  | .ssubs => clampSigned W (signed W a - signed W b)
  | .minu => min a b
  | .mins => if signed W a ≤ signed W b then a else b
  | .maxu => max a b
  | .maxs => if signed W b ≤ signed W a then a else b
  | .addc => (a + b) % 2 ^ W
  | .subc => unsigned W ((a : Int) - b)

/-- The value of a carry-chain operation with carry `k` (R289, R290). -/
def carryValue (op : ArithOp) (W a b : Nat) (k : Bool) : Nat :=
  match op with
  | .addc => (a + b + k.toNat) % 2 ^ W
  | .subc => unsigned W ((a : Int) - b - k.toNat)
  | _ => 0

/-- The lo half-operation that a carry-chain operation pairs with (R291). -/
def carryPartner : ArithOp → LoAddRan
  | .addc => .add
  | .subc => .sub
  | _ => .none

/-- What the lo unit records for the hi unit: `lo_add_ran` and `carry` (R278, R279). -/
def recordCarry (r : SaluRun) (op : ArithOp) (half : Half) (a b : Nat) : SaluRun :=
  match op, half with
  | .add, .lo => { r with loAddRan := .add, carry := carryOf r.width a b }
  | .sub, .lo => { r with loAddRan := .sub, carry := borrowOf a b }
  | _, _ => r

/-- `logic(tt, a, b)`: bit `i` of the result is `tt[2*a[i] + b[i]]` (R292). -/
def logicValue (tt W a b : Nat) : Nat :=
  (if tt.testBit 0 then notBits W a &&& notBits W b else 0)
    ||| (if tt.testBit 1 then notBits W a &&& b else 0)
    ||| (if tt.testBit 2 then a &&& notBits W b else 0)
    ||| (if tt.testBit 3 then a &&& b else 0)

/-- `word'` with a half replaced (R252). -/
def withHalf (r : SaluRun) (half : Half) (v : Nat) : SaluRun :=
  { r with output := wordSet r.output v (halfBase r half) r.width }

/-- `lo_add_ran <- NONE ; carry <- 0` (R44, R252). -/
def carryCleared (r : SaluRun) : SaluRun := { r with loAddRan := .none, carry := false }

/-- The carry of a carry-chain operation: the recorded one when the pairing holds, else
`ERR_SALU_CARRY_UNPAIRED` and 0 (R291). In the lo unit it never holds: "nothing precedes it". -/
def pairedCarry (p st a : Nat) (op : ArithOp) (half : Half) (r : SaluRun) : M Bool := do
  if half = .hi ∧ r.loAddRan = carryPartner op then pure r.carry
  else do
    raise (some (p, st)) (.saluCarryUnpaired a r.slot)
    pure false

/-- One arithmetic operation on operands `x`, `y` (R277 to R291): on `TOFINO` the carry chain is
reserved (R251). -/
def arithUnit (p st a : Nat) (op : ArithOp) (half : Half) (r : SaluRun) (x y : Nat) : M Nat :=
  match op with
  | .addc | .subc => do
    let chip ← look (fun s => s.params.chip)
    if chip = .tofino then refuse .carryOnTofino
    else do
      let k ← pairedCarry p st a op half r
      let v := carryValue op r.width x y k
      putRun p st a (withHalf r half v)
      pure v
  | _ => do
    let v := arithValue op r.width x y (oldHalf r half)
    putRun p st a (withHalf (recordCarry r op half x y) half v)
    pure v

/-- A unit whose predicate is false leaves its half "as it was" and reads nothing (R276). -/
def idleUnit (p st a : Nat) (half : Half) (r : SaluRun) : M Nat := do
  putRun p st a (withHalf r half (oldHalf r half))
  pure (oldHalf r half)

/-- `unit(U, half)` with an arithmetic code (R276). -/
def arithHalf (p st a : Nat) (op : ArithOp) (u : AuFields) : M Nat := do
  let r ← runOf p st a
  if predicate u.pred r.p0 r.p1 then do
    let x ← need (operand r u.srcA)
    let y ← need (operand r u.srcB)
    arithUnit p st a op u.half r x y
  else idleUnit p st a u.half r

/-- `unit(U, half)` with a logical code (R276, R292). -/
def logicHalf (p st a : Nat) (tt : Nat) (u : AuFields) : M Nat := do
  let r ← runOf p st a
  if predicate u.pred r.p0 r.p1 then do
    let x ← need (operand r u.srcA)
    let y ← need (operand r u.srcB)
    let v := logicValue tt r.width x y
    putRun p st a (withHalf r u.half v)
    pure v
  else idleUnit p st a u.half r

/-- The unit of an `AU` word (R110): a reserved arithmetic code is refused when the unit runs. -/
def unitOfWord (p st a : Nat) (half : Half) (w : Nat) : M Nat := do
  let u := auFields half w
  if wordBit w 4 then
    match arithOpOf (w % 16) with
    | some op => arithHalf p st a op u
    | none => do
      let r ← runOf p st a
      if predicate u.pred r.p0 r.p1 then refuse .reservedCode else idleUnit p st a half r
  else logicHalf p st a (w % 16) u

/-! ### One-bit operations (R309 to R316) -/

/-- The word after a 1-bit operation. -/
def bitWord (op : BitOp) (w : Word) (sub : Nat) : Word :=
  match op with
  | .set | .setc => wordSet w 1 sub 1
  | .clr | .clrc => wordSet w 0 sub 1
  | .nop | .read | .readc => w

/-- `bit_out`, from the old bit. -/
def bitOutOf (op : BitOp) (old : Nat) : Bool :=
  match op with
  | .nop => false
  | .read | .set | .clr => old == 1
  | .readc | .setc | .clrc => old == 0

/-- Mode `ONEBIT` on bit `ma.sub`. -/
def oneBit (p st a : Nat) (op : BitOp) : M Bool := do
  let r ← runOf p st a
  putRun p st a { r with output := bitWord op r.input r.sub, bitOut := bitOutOf op (bitOperand r) }
  pure (bitOutOf op (bitOperand r))

/-! ### Divide and modulo (R317 to R319) -/

/-- `get_divider_output` (R317). -/
def dividerOutput (x y : Int) : Nat :=
  if y = 0 then (if 0 ≤ x then 0x7FFF else 0x8000) else unsigned 16 (x.tdiv y)

/-- `get_modulus_output` (R318): the C remainder, corrected to the sign of the divisor. -/
def modulusOutput (x y : Int) : Nat :=
  if y = 0 then unsigned 16 x
  else
    let r := x - y * x.tdiv y
    unsigned 16 (if r ≠ 0 ∧ ¬(r < 0 ↔ y < 0) then r + y else r)

/-- `divmod()` with these sources. -/
def divide (p st a : Nat) (srcA srcB : BitVec 3) : M (Nat × Nat) := do
  let r ← runOf p st a
  let x ← need (operand r srcA)
  let y ← need (operand r srcB)
  let q := dividerOutput (divOperand x) (divOperand y)
  let m := modulusOutput (divOperand x) (divOperand y)
  putRun p st a { r with divRan := true, quot := q, rem := m }
  pure (q, m)

/-! ### Min/max unit (R320 to R325) -/

/-- The best value among the selected subwords (R322). -/
def mmBest (c : MmFields) (isMax : Bool) (w : Word) : List Nat → Nat
  | [] => 0
  | [j] => mmSubword c w j
  | j :: js =>
    if isMax then max (mmSubword c w j) (mmBest c isMax w js)
    else min (mmSubword c w j) (mmBest c isMax w js)

/-- The tie policy (R322): the highest or the lowest of the selected subwords that hold the best value. -/
def mmPick (c : MmFields) (best : Nat) (w : Word) (sel : List Nat) : Nat :=
  let js := sel.filter (fun j => mmSubword c w j == best)
  if c.tieHigh then js.getLastD 0 else js.headD 0

/-- `post(word, j, best)` (R323); a reserved code is refused. -/
def mmPost (c : MmFields) (w : Word) (j best : Nat) : Option Word :=
  let sw := (mmGeometry c).2
  match c.post.toNat with
  | 0 => some w
  | 1 => some (wordSet w (min (best + c.delta.toNat) (ones sw)) (sw * j) sw)
  | 2 => some (wordSet w (best - c.delta.toNat) (sw * j) sw)
  | _ => none

/-- `minmax(word, alu_data)` (R320): the value and index outputs. -/
def minMax (p st a : Nat) (isMax : Bool) (c : MmFields) : M (Nat × Nat) := do
  let r ← runOf p st a
  match mmSet c r.data with
  | [] => do
    putRun p st a { r with output := r.input, mmValue := 0, mmIndex := 0 }
    pure (0, 0)
  | j :: js => do
    let best := mmBest c isMax r.input (j :: js)
    let k := mmPick c best r.input (j :: js)
    let w ← need (mmPost c r.input k best)
    putRun p st a { r with output := w, mmValue := best, mmIndex := k }
    pure (best, k)

/-- Mode `MINMAX` with `cfg.mm_cfg` (R320); a set reserved bit is refused (R120). -/
def minMaxConfigured (p st a : Nat) : M (Nat × Nat) := do
  let w ← look (fun s => s.field .mmCfg [p, st, a])
  if w / 2 ^ 6 % 4 ≠ 0 then refuse .reservedBits
  else minMax p st a (wordBit w 0) (mmFields w)

/-! ### Output select (R326) -/

/-- The value an output selection names; `none` for a divide output without the divide unit (R319). The
16-bit values of the divide and min/max units are not cut to a width of 8 (DESIGN CHOICE, log entry 54). -/
def outValue (sel : OutSel) (r : SaluRun) : Option Nat :=
  match sel with
  | .none => some 0
  | .ramLo => some (runLo r)
  | .ramHi => some (runHi r)
  | .phvLo => some (runPhvLo r)
  | .phvHi => some (runPhvHi r)
  | .aluLo => some (runNewLo r)
  | .aluHi => some (runNewHi r)
  | .pred => some (2 * r.p1.toNat + r.p0.toNat)
  | .div => if r.divRan then some r.quot else none
  | .mod => if r.divRan then some r.rem else none
  | .mmValue => some r.mmValue
  | .mmIndex => some r.mmIndex
  | .bitOld => some r.bitOut.toNat

/-- `output(O)`: 0 when the predicate is false; `ERR_DIV_NOT_ENABLED` and 0 for a divide output without
the divide unit (R319). -/
def outputSelect (p st a : Nat) (sel : OutSel) (o : OutFields) : M Nat := do
  let r ← runOf p st a
  let v ← (if predicate o.pred r.p0 r.p1 then
      match outValue sel r with
      | some v => pure v
      | none => do
        raise (some (p, st)) (.divNotEnabled a r.slot)
        pure 0
    else pure 0)
  putRun p st a { r with action := v }
  pure v

/-! ### The `MISC` sub-format: width, mode, divide -/

/-- The width of the execution and the entry it selects (R253, R254). -/
def setWidth (p st a : Nat) (m : MiscFields) : M Unit := do
  let W ← need (widthOf m.width)
  let r ← runOf p st a
  putRun p st a { r with width := W, base := entryBase r.sub W }

/-- The divide unit, when enabled (R319). -/
def divideIfEnabled (p st a : Nat) (m : MiscFields) : M Unit :=
  if m.divEn then do
    let _ ← divide p st a m.divSrcA m.divSrcB
    pure ()
  else pure ()

/-- Mode `DUAL`: from `word' = word`, the lo unit, then the hi unit, of the instruction in progress (R252). The
lo unit starts with nothing recorded for the hi unit, so that the pairing fails where R291 says it does (DESIGN
CHOICE, log entry 19). -/
def dualUnits (p st a : Nat) : M Unit := do
  let r ← runOf p st a
  putRun p st a { carryCleared r with output := r.input }
  let _ ← unitOfWord p st a .lo (siAluLo r.instr)
  let _ ← unitOfWord p st a .hi (siAluHi r.instr)
  pure ()

/-- A `MISC` word in mode `DUAL`. -/
def miscDual (p st a : Nat) (m : MiscFields) : M Unit := do
  setWidth p st a m
  dualUnits p st a
  divideIfEnabled p st a m

/-- A `MISC` word in mode `ONEBIT`. -/
def miscOneBit (p st a : Nat) (m : MiscFields) (op : BitOp) : M Bool := do
  setWidth p st a m
  let out ← oneBit p st a op
  divideIfEnabled p st a m
  pure out

/-- A `MISC` word in mode `MINMAX`. -/
def miscMinMax (p st a : Nat) (m : MiscFields) : M (Nat × Nat) := do
  setWidth p st a m
  let out ← minMaxConfigured p st a
  divideIfEnabled p st a m
  pure out

/-- The `MISC` word of an instruction: reserved codes of the fields used are refused (R120). -/
def miscOfWord (p st a : Nat) (w : Nat) : M Unit := do
  let m := miscFields w
  let mode ← need (modeOf (w % 4))
  match mode with
  | .dual => miscDual p st a m
  | .onebit => do
    let op ← need (bitOpOf (w / 2 ^ 11 % 8))
    let _ ← miscOneBit p st a m op
    pure ()
  | .minmax => do
    let _ ← miscMinMax p st a m
    pure ()

/-! ### The execution sequence (R252) -/

/-- Instruction slot `k` of an ALU (R253). -/
def saluInstr (s : State) (p st a k : Nat) : Word := BitVec.ofNat 128 (s.field .saluInstr [p, st, a, k])

/-- The word an execution works on (R324): in mode `MINMAX`, the previous cycle's input word one cycle
later on the same address. -/
def saluForward (l : SaluLast) (addr t mode : Nat) (fresh : Word) : Word :=
  if mode == 2 && l.valid && l.addr == addr && t == l.t + 1 then l.inputWord else fresh

/-- The execution at its start: `lo_add_ran <- NONE`, `carry <- 0`, nothing computed yet. -/
def startRun (instr : Word) (ma : MaFields) (W : Nat) (data word : Word) (s0 s1 : Bool) : SaluRun :=
  { instr := instr, sub := ma.sub.toNat, slot := ma.instr.toNat, width := W, data := data, sbus0 := s0,
    sbus1 := s1, input := word, output := word, base := entryBase ma.sub.toNat W }

/-- A compare unit of the instruction in progress (R257): a reserved opcode is refused. -/
def compareOfWord (p st a : Nat) (unit : CmpUnit) (w : Nat) : M Unit := do
  let op ← need (cmpOpOf (w % 16))
  let _ ← compareUnit p st a op (cmpFields unit w)
  pure ()

/-- The output of the instruction in progress (R326): a reserved selection is refused where it is read. -/
def outputOfWord (p st a : Nat) (w : Nat) : M Nat := do
  let r ← runOf p st a
  match outSelOf (w % 16) with
  | some sel => outputSelect p st a sel (outFields w)
  | none =>
    if predicate (outFields w).pred r.p0 r.p1 then refuse .reservedCode
    else outputSelect p st a .none (outFields w)

/-- `run(ma, alu_data, T, sbus)` of a `SALU_EXEC` address (R252): the flags are cleared before the RAM read, so a
read that faults leaves them cleared (DEDUCED, log entry 59). A reserved bit of the instruction and the reserved
width are refused before the read, so before `ERR_ADDR_RANGE` (DEDUCED, log entry 18). -/
def saluExecute (p st a : Nat) (ma : MaFields) (data : Word) (t : Nat) (s0 s1 : Bool) : M AluOut := do
  let s ← look id
  let instr := saluInstr s p st a ma.instr.toNat
  if !siReservedZero instr then refuse .reservedBits
  else do
    let W ← need (widthOf (miscFields (siMisc instr)).width)
    change (fun s => s.putSaluRun p st a (carryCleared (s.saluRun p st a)))
    let fresh ← memRead (saluAddr p st a ma.word.toNat)
    let word := saluForward (s.saluLast p st a) ma.word.toNat t (siMisc instr % 4) fresh
    putRun p st a (startRun instr ma W data word s0 s1)
    compareOfWord p st a .zero (siCmp0 instr)
    compareOfWord p st a .one (siCmp1 instr)
    miscOfWord p st a (siMisc instr)
    let action ← outputOfWord p st a (siOut instr)
    let r ← runOf p st a
    memWrite (saluAddr p st a ma.word.toNat) r.output
    change (fun s => s.putSaluLast p st a
      { valid := true, addr := ma.word.toNat, t := t, inputWord := word, outputWord := r.output })
    pure (.salu action r.p0 r.p1)

/-! ### Raw compares of a stage, before any ALU writes (R274, R543) -/

/-- The raw result of a compare word on an execution at its start; false where it will be refused. -/
def rawOfWord (unit : CmpUnit) (w : Nat) (r : SaluRun) : Bool :=
  match cmpOpOf (w % 16) with
  | none => false
  | some op => (cmpRaw op (cmpFields unit w) r).getD false

/-- The raw results of both units of an ALU that executes `ma` (R274); nothing is written and nothing is
raised: an address out of range, a reserved code and a reserved bit are reported in the ALU's own turn, and an
instruction of the reserved width contributes its compares at width 32 (DESIGN CHOICE, log entry 55). -/
def rawCompares (s : State) (p st a : Nat) (ma : MaFields) (data : Word) (t : Nat) : Bool × Bool :=
  let instr := saluInstr s p st a ma.instr.toNat
  let addr := saluAddr p st a ma.word.toNat
  let fresh := if ramInRange s.params addr then s.mem.read addr else 0
  let word := saluForward (s.saluLast p st a) ma.word.toNat t (siMisc instr % 4) fresh
  let W := (widthOf (miscFields (siMisc instr)).width).getD 32
  let r := startRun instr ma W data word false false
  (rawOfWord .zero (siCmp0 instr) r, rawOfWord .one (siCmp1 instr) r)

/-- The sbus bits of ALU `a` from the raw results of the ALUs of the stage (R274). -/
def sbusOf (s : State) (p st a : Nat) (raws : List (Bool × Bool)) : Bool × Bool :=
  let comb := s.flag .sbusComb [p, st, a]
  let mask := s.field .sbusSrcMask [p, st, a]
  (sbusBit s.params.numSalu comb mask a (fun j => (raws.getD j (false, false)).1),
   sbusBit s.params.numSalu comb mask a (fun j => (raws.getD j (false, false)).2))

/-! ### The meanings of the addressed operations, at the ALU of the current site -/

/-- The site's stateful ALU exists; an operation elsewhere is refused. -/
def atSalu {α : Type} (f : Nat → Nat → Nat → M α) : M α := do
  let s ← look id
  let k := s.act.site
  if stageExists s.params k.pipe k.stage && k.alu < s.params.numSalu then f k.pipe k.stage k.alu
  else refuse .noSuchUnit

/-- R252; alone, no other ALU of the stage executes, so each contributes `raw = 0` (R274) (DEDUCED, log
entry 16). -/
def execSaluExec (a : MaFields) (s : State) : Host.Outcome State Fault Refusal :=
  outcome (atSalu (fun p st alu => do
    let s ← look id
    let sb := sbusOf s p st alu []
    let o ← saluExecute p st alu a s.act.aluData s.act.io.t sb.1 sb.2
    pure (.alu o))) s

/-- R543: a `MA` address with `op = NOP` runs nothing; delivered alone it goes to the stateful ALU of the site
(DESIGN CHOICE, log entry 17). -/
def execMaNop (_a : MaFields) (s : State) : Host.Outcome State Fault Refusal :=
  outcome (atSalu (fun _ _ _ => pure (.alu .none))) s

/-- R543, R120: with `en = 0` every other field is ignored; delivered alone the address goes to the stateful
ALU of the site (DESIGN CHOICE, log entry 17). -/
def execMaDisabled (_rest : BitVec 31) (s : State) : Host.Outcome State Fault Refusal :=
  outcome (atSalu (fun _ _ _ => pure (.alu .none))) s

/-- A `CFG_RD` of a selector or stateful ALU (R543): no state of the ALU changes. -/
def maRead (p st : Nat) (kind : AluKind) (a : Nat) (ma : MaFields) : M AluOut := do
  let addr := match kind with
    | .sel => selAddr p st a ma.word.toNat
    | _ => saluAddr p st a ma.word.toNat
  let w ← memRead addr
  readData p st kind a w

/-- R543: addressed alone, the ALU of the site is its stateful ALU (DEDUCED, log entry 20). -/
def execMaCfgRd (a : MaFields) (s : State) : Host.Outcome State Fault Refusal :=
  outcome (atSalu (fun p st alu => do
    let o ← maRead p st .salu alu a
    pure (.alu o))) s

end Sys2Proof.Machine
end

