-- ==== Sys2Proof/Machine/SaluOps.lean ====
section
/-! DEFINITION. The meanings of the micro-operations of a stateful instruction: compare, arithmetic,
logical, output, 1-bit, mode, divide and min/max rows, each one part of the execution sequence of
R252, on the execution in progress of the stateful ALU of the current site. -/

namespace Sys2Proof.Machine

/-- A compare row. -/
def cmpRow (op : CmpOp) (c : CmpFields) : M Ret :=
  atSalu (fun p st a => do
    let b ← compareUnit p st a op c
    pure (.bool b))

/-- An arithmetic row. -/
def arithRow (op : ArithOp) (u : AuFields) : M Ret :=
  atSalu (fun p st a => do
    let v ← arithHalf p st a op u
    pure (.nat v))

/-- A logical row; `tt` is its truth table. -/
def logicRow (tt : Nat) (u : AuFields) : M Ret :=
  atSalu (fun p st a => do
    let v ← logicHalf p st a tt u
    pure (.nat v))

/-- An output row. -/
def outRow (sel : OutSel) (o : OutFields) : M Ret :=
  atSalu (fun p st a => do
    let v ← outputSelect p st a sel o
    pure (.nat v))

/-- A 1-bit row. -/
def bitRow (op : BitOp) (m : MiscFields) : M Ret :=
  atSalu (fun p st a => do
    let b ← miscOneBit p st a m op
    pure (.bool b))

/-- R258. -/
def execCmpEq (c : CmpFields) (s : State) : Host.Outcome State Fault Refusal :=
  outcome (cmpRow .eq c) s

/-- R259. -/
def execCmpNe (c : CmpFields) (s : State) : Host.Outcome State Fault Refusal :=
  outcome (cmpRow .ne c) s

/-- R260. -/
def execCmpDisabled (c : CmpFields) (s : State) : Host.Outcome State Fault Refusal :=
  outcome (cmpRow .disabled c) s

/-- R261. -/
def execCmpGtS (c : CmpFields) (s : State) : Host.Outcome State Fault Refusal :=
  outcome (cmpRow .gtS c) s

/-- R262. -/
def execCmpGeS (c : CmpFields) (s : State) : Host.Outcome State Fault Refusal :=
  outcome (cmpRow .geS c) s

/-- R263. -/
def execCmpLtS (c : CmpFields) (s : State) : Host.Outcome State Fault Refusal :=
  outcome (cmpRow .ltS c) s

/-- R264. -/
def execCmpLeS (c : CmpFields) (s : State) : Host.Outcome State Fault Refusal :=
  outcome (cmpRow .leS c) s

/-- R265. -/
def execCmpGtU (c : CmpFields) (s : State) : Host.Outcome State Fault Refusal :=
  outcome (cmpRow .gtU c) s

/-- R266. -/
def execCmpGeU (c : CmpFields) (s : State) : Host.Outcome State Fault Refusal :=
  outcome (cmpRow .geU c) s

/-- R267. -/
def execCmpLtU (c : CmpFields) (s : State) : Host.Outcome State Fault Refusal :=
  outcome (cmpRow .ltU c) s

/-- R268. -/
def execCmpLeU (c : CmpFields) (s : State) : Host.Outcome State Fault Refusal :=
  outcome (cmpRow .leU c) s

/-- R269. -/
def execCmpGtUus (c : CmpFields) (s : State) : Host.Outcome State Fault Refusal :=
  outcome (cmpRow .gtUus c) s

/-- R270. -/
def execCmpGeUus (c : CmpFields) (s : State) : Host.Outcome State Fault Refusal :=
  outcome (cmpRow .geUus c) s

/-- R271. -/
def execCmpLtUus (c : CmpFields) (s : State) : Host.Outcome State Fault Refusal :=
  outcome (cmpRow .ltUus c) s

/-- R272. -/
def execCmpLeUus (c : CmpFields) (s : State) : Host.Outcome State Fault Refusal :=
  outcome (cmpRow .leUus c) s

/-- R277. -/
def execANop (u : AuFields) (s : State) : Host.Outcome State Fault Refusal :=
  outcome (arithRow .nop u) s

/-- R278. -/
def execAAdd (u : AuFields) (s : State) : Host.Outcome State Fault Refusal :=
  outcome (arithRow .add u) s

/-- R279. -/
def execASub (u : AuFields) (s : State) : Host.Outcome State Fault Refusal :=
  outcome (arithRow .sub u) s

/-- R280. -/
def execASubr (u : AuFields) (s : State) : Host.Outcome State Fault Refusal :=
  outcome (arithRow .subr u) s

/-- R281. -/
def execASaddu (u : AuFields) (s : State) : Host.Outcome State Fault Refusal :=
  outcome (arithRow .saddu u) s

/-- R282. -/
def execASadds (u : AuFields) (s : State) : Host.Outcome State Fault Refusal :=
  outcome (arithRow .sadds u) s

/-- R283. -/
def execASsubu (u : AuFields) (s : State) : Host.Outcome State Fault Refusal :=
  outcome (arithRow .ssubu u) s

/-- R284. -/
def execASsubs (u : AuFields) (s : State) : Host.Outcome State Fault Refusal :=
  outcome (arithRow .ssubs u) s

/-- R285. -/
def execAMinu (u : AuFields) (s : State) : Host.Outcome State Fault Refusal :=
  outcome (arithRow .minu u) s

/-- R286. -/
def execAMins (u : AuFields) (s : State) : Host.Outcome State Fault Refusal :=
  outcome (arithRow .mins u) s

/-- R287. -/
def execAMaxu (u : AuFields) (s : State) : Host.Outcome State Fault Refusal :=
  outcome (arithRow .maxu u) s

/-- R288. -/
def execAMaxs (u : AuFields) (s : State) : Host.Outcome State Fault Refusal :=
  outcome (arithRow .maxs u) s

/-- R289. -/
def execAAddc (u : AuFields) (s : State) : Host.Outcome State Fault Refusal :=
  outcome (arithRow .addc u) s

/-- R290. -/
def execASubc (u : AuFields) (s : State) : Host.Outcome State Fault Refusal :=
  outcome (arithRow .subc u) s

/-- R293. -/
def execLSetz (u : AuFields) (s : State) : Host.Outcome State Fault Refusal :=
  outcome (logicRow 0 u) s

/-- R294. -/
def execLNor (u : AuFields) (s : State) : Host.Outcome State Fault Refusal :=
  outcome (logicRow 1 u) s

/-- R295. -/
def execLAndca (u : AuFields) (s : State) : Host.Outcome State Fault Refusal :=
  outcome (logicRow 2 u) s

/-- R296. -/
def execLNota (u : AuFields) (s : State) : Host.Outcome State Fault Refusal :=
  outcome (logicRow 3 u) s

/-- R297. -/
def execLAndcb (u : AuFields) (s : State) : Host.Outcome State Fault Refusal :=
  outcome (logicRow 4 u) s

/-- R298. -/
def execLNotb (u : AuFields) (s : State) : Host.Outcome State Fault Refusal :=
  outcome (logicRow 5 u) s

/-- R299. -/
def execLXor (u : AuFields) (s : State) : Host.Outcome State Fault Refusal :=
  outcome (logicRow 6 u) s

/-- R300. -/
def execLNand (u : AuFields) (s : State) : Host.Outcome State Fault Refusal :=
  outcome (logicRow 7 u) s

/-- R301. -/
def execLAnd (u : AuFields) (s : State) : Host.Outcome State Fault Refusal :=
  outcome (logicRow 8 u) s

/-- R302. -/
def execLXnor (u : AuFields) (s : State) : Host.Outcome State Fault Refusal :=
  outcome (logicRow 9 u) s

/-- R303. -/
def execLB (u : AuFields) (s : State) : Host.Outcome State Fault Refusal :=
  outcome (logicRow 10 u) s

/-- R304. -/
def execLOrca (u : AuFields) (s : State) : Host.Outcome State Fault Refusal :=
  outcome (logicRow 11 u) s

/-- R305. -/
def execLA (u : AuFields) (s : State) : Host.Outcome State Fault Refusal :=
  outcome (logicRow 12 u) s

/-- R306. -/
def execLOrcb (u : AuFields) (s : State) : Host.Outcome State Fault Refusal :=
  outcome (logicRow 13 u) s

/-- R307. -/
def execLOr (u : AuFields) (s : State) : Host.Outcome State Fault Refusal :=
  outcome (logicRow 14 u) s

/-- R308. -/
def execLSethi (u : AuFields) (s : State) : Host.Outcome State Fault Refusal :=
  outcome (logicRow 15 u) s

/-- R326. -/
def execONone (o : OutFields) (s : State) : Host.Outcome State Fault Refusal :=
  outcome (outRow .none o) s

/-- R326. -/
def execORamLo (o : OutFields) (s : State) : Host.Outcome State Fault Refusal :=
  outcome (outRow .ramLo o) s

/-- R326. -/
def execORamHi (o : OutFields) (s : State) : Host.Outcome State Fault Refusal :=
  outcome (outRow .ramHi o) s

/-- R326. -/
def execOPhvLo (o : OutFields) (s : State) : Host.Outcome State Fault Refusal :=
  outcome (outRow .phvLo o) s

/-- R326. -/
def execOPhvHi (o : OutFields) (s : State) : Host.Outcome State Fault Refusal :=
  outcome (outRow .phvHi o) s

/-- R326. -/
def execOAluLo (o : OutFields) (s : State) : Host.Outcome State Fault Refusal :=
  outcome (outRow .aluLo o) s

/-- R326. -/
def execOAluHi (o : OutFields) (s : State) : Host.Outcome State Fault Refusal :=
  outcome (outRow .aluHi o) s

/-- R326. -/
def execOPred (o : OutFields) (s : State) : Host.Outcome State Fault Refusal :=
  outcome (outRow .pred o) s

/-- R326. -/
def execODiv (o : OutFields) (s : State) : Host.Outcome State Fault Refusal :=
  outcome (outRow .div o) s

/-- R326. -/
def execOMod (o : OutFields) (s : State) : Host.Outcome State Fault Refusal :=
  outcome (outRow .mod o) s

/-- R326. -/
def execOMmValue (o : OutFields) (s : State) : Host.Outcome State Fault Refusal :=
  outcome (outRow .mmValue o) s

/-- R326. -/
def execOMmIndex (o : OutFields) (s : State) : Host.Outcome State Fault Refusal :=
  outcome (outRow .mmIndex o) s

/-- R326. -/
def execOBitOld (o : OutFields) (s : State) : Host.Outcome State Fault Refusal :=
  outcome (outRow .bitOld o) s

/-- R310. -/
def execBitNop (m : MiscFields) (s : State) : Host.Outcome State Fault Refusal :=
  outcome (bitRow .nop m) s

/-- R311. -/
def execBitRead (m : MiscFields) (s : State) : Host.Outcome State Fault Refusal :=
  outcome (bitRow .read m) s

/-- R312. -/
def execBitReadc (m : MiscFields) (s : State) : Host.Outcome State Fault Refusal :=
  outcome (bitRow .readc m) s

/-- R313. -/
def execBitSet (m : MiscFields) (s : State) : Host.Outcome State Fault Refusal :=
  outcome (bitRow .set m) s

/-- R314. -/
def execBitSetc (m : MiscFields) (s : State) : Host.Outcome State Fault Refusal :=
  outcome (bitRow .setc m) s

/-- R315. -/
def execBitClr (m : MiscFields) (s : State) : Host.Outcome State Fault Refusal :=
  outcome (bitRow .clr m) s

/-- R316. -/
def execBitClrc (m : MiscFields) (s : State) : Host.Outcome State Fault Refusal :=
  outcome (bitRow .clrc m) s

/-- R252 mode `DUAL`, with the width and the divide unit of the same word; `bit_op` belongs to a unit that
does not run (R120). -/
def execModeDual (m : MiscFields) (_bitOp : BitVec 3) (s : State) : Host.Outcome State Fault Refusal :=
  outcome (atSalu (fun p st a => do
    miscDual p st a m
    let r ← runOf p st a
    pure (.pair (runNewLo r) (runNewHi r)))) s

/-- R320 mode `MINMAX`: the value and the index. -/
def execModeMinmax (m : MiscFields) (_bitOp : BitVec 3) (s : State) : Host.Outcome State Fault Refusal :=
  outcome (atSalu (fun p st a => do
    let o ← miscMinMax p st a m
    pure (.pair o.1 o.2))) s

/-- R317 to R319: the divide unit of a `MISC` word with `div_en = 1`, independent of its mode; the quotient
and the modulus. -/
def execDivMod (d : DivFields) (s : State) : Host.Outcome State Fault Refusal :=
  outcome (atSalu (fun p st a => do
    setWidth p st a { width := d.width, divEn := true, divSrcA := d.divSrcA, divSrcB := d.divSrcB }
    let o ← divide p st a d.divSrcA d.divSrcB
    pure (.pair o.1 o.2))) s

/-- R322 with `is_max = 0`. -/
def execMmMin (m : MmFields) (s : State) : Host.Outcome State Fault Refusal :=
  outcome (atSalu (fun p st a => do
    let o ← minMax p st a false m
    pure (.pair o.1 o.2))) s

/-- R322 with `is_max = 1`. -/
def execMmMax (m : MmFields) (s : State) : Host.Outcome State Fault Refusal :=
  outcome (atSalu (fun p st a => do
    let o ← minMax p st a true m
    pure (.pair o.1 o.2))) s

end Sys2Proof.Machine
end

