-- ==== Sys2Proof/Machine/Selector.lean ====
section
/-! DEFINITION. The selector ALU (`43_selector_alu.md`): resilient selection, the Plan-B fallback, fair
mode, and the forwarding gap of `SEL_EXEC`. -/

namespace Sys2Proof.Machine

/-- The answer for no member (R220). -/
def noMember : Nat := 0xFF

/-! ### Hash buckets (R224, R225) -/

/-- `SBOX14` and `SBOX18`, OPEN functions with the identity as reference (R225, R228). -/
def sbox14 (p : Params) (x : Nat) : Nat := p.sbox14.getD x x % 2 ^ 14
def sbox18 (p : Params) (x : Nat) : Nat := p.sbox18.getD x x % 2 ^ 18

/-- `b_k`: bucket `k` of the hash, scrambled when enabled. -/
def bucket (params : Params) (sboxEn : Bool) (hash52 : Nat) (k : Nat) : Nat :=
  let raw := hash52 / 2 ^ (14 * k) % 2 ^ 14
  if sboxEn then sbox14 params raw else raw

/-- `s_word_msb(pv)` (R227). -/
def sWordMsb (d : SelModDef) (pv : Nat) : Nat :=
  match d with
  | .liveCount => popcount 128 pv
  | .msbPlus1 => if pv = 0 then 0 else Nat.log2 pv + 1

/-! ### Resilient mode (R226) -/

/-- The first enabled bucket that lands on a live member, in priority order. -/
def firstLive (pv m : Nat) (enable : Nat) (b : Nat → Nat) : List Nat → Option Nat
  | [] => none
  | k :: ks =>
    if enable.testBit k && pv.testBit (b k % m) then some (b k % m) else firstLive pv m enable b ks

/-- `get_resilient_selection_index`, on the configuration of the ALU. -/
def resilientIndex (params : Params) (enable : Nat) (sboxEn : Bool) (pv hash52 : Nat) : Nat :=
  let m := sWordMsb params.selModDef pv
  if m = 0 then noMember
  else (firstLive pv m enable (bucket params sboxEn hash52) [0, 1, 2]).getD noMember

/-! ### Plan-B (R228 to R231) -/

/-- `perm(p, h)` (R229), its own inverse (R231). -/
def perm (h p : Nat) : Nat :=
  2 * ((p / 2) ^^^ (if p % 2 = 0 then h % 2 ^ 6 else h / 2 ^ 6 % 2 ^ 6)) + p % 2

/-- `permute(pv, h)` (R229). -/
def permute (pv h : Nat) : Nat :=
  (List.range 128).foldl (fun acc p => if pv.testBit p then acc ||| 2 ^ perm h p else acc) 0

/-- A scan from `q` down to 0. -/
def scanDown (pv : Nat) : Nat → Option Nat
  | 0 => if pv.testBit 0 then some 0 else none
  | q + 1 => if pv.testBit (q + 1) then some (q + 1) else scanDown pv q

/-- `circular_priority_encode(pv', h)` (R230): from the head down, then from the top down. -/
def circularEncode (pv h : Nat) : Option Nat :=
  match scanDown pv (2 * (h / 2 ^ 12 % 2 ^ 6) + 1) with
  | some q => some q
  | none => scanDown pv 127

/-- `get_planB_resilient_selection_index` (R228) (DEDUCED, log entry 42). -/
def planBIndex (params : Params) (pv hash52 : Nat) : Nat :=
  if pv = 0 then noMember
  else
    let h := sbox18 params (hash52 / 2 ^ 34 % 2 ^ 18)
    match circularEncode (permute pv h) h with
    | none => noMember
    | some q => perm h q

/-! ### Fair mode (R233) -/

/-- The position table: set-bit indices in increasing order. -/
def positions (pv : Nat) : List Nat := (List.range 128).filter (fun m => pv.testBit m)

/-- `get_fair_selection_index` (R233, R234). -/
def fairIndex (p st a : Nat) (pv hash52 : Nat) : M Nat := do
  let s ← look id
  let pos := positions pv
  let n := pos.length
  if n ≠ sWordMsb s.params.selModDef pv then
    raise (some (p, st)) (.selCountMismatch n (sWordMsb s.params.selModDef pv))
  else pure ()
  if n = 0 then pure noMember
  else
    let sel := s.field .fairBucketSel [p, st, a]
    if sel < 3 then
      pure (pos.getD (bucket s.params (s.flag .sboxEnable [p, st, a]) hash52 sel % n) noMember)
    else refuse (.illegalConfig .fairBucketSel)

/-- The resilient index under the ALU's configuration. -/
def resilientAt (s : State) (p st a : Nat) (pv hash52 : Nat) : Nat :=
  resilientIndex s.params (s.field .hashEnable [p, st, a]) (s.flag .sboxEnable [p, st, a]) pv hash52

/-- `select(pv, hash52)` (R222). -/
def selectMember (p st a : Nat) (pv hash52 : Nat) : M Nat := do
  let s ← look id
  if s.flag .selMode [p, st, a] then
    let r := resilientAt s p st a pv hash52
    if r ≠ noMember then pure r else pure (planBIndex s.params pv hash52)
  else fairIndex p st a pv hash52

/-! ### Execution (R238) -/

/-- The word an execution uses: the previous cycle's input word one cycle later on the same address, the
freshly read word otherwise. -/
def selForward (l : SelLast) (addr t : Nat) (fresh : Word) : Word :=
  if l.valid && l.addr == addr && t == l.t + 1 then l.inputWord else fresh

/-- `run_alu_with_state(ma, alu_data, T)` of a `SEL_EXEC` address. -/
def selRun (p st a : Nat) (ma : MaFields) (data : Word) (t : Nat) : M AluOut := do
  let fresh ← memRead (selAddr p st a ma.word.toNat)
  let s ← look id
  let w := selForward (s.selLast p st a) ma.word.toNat t fresh
  change (fun s => s.putSelLast p st a { valid := true, addr := ma.word.toNat, t := t, inputWord := w })
  let m ← selectMember p st a w.toNat (data.toNat % 2 ^ 52)
  pure (.member m)

/-! ### The meanings, at the ALU of the current site -/

/-- The site's selector ALU exists; an operation elsewhere is refused. -/
def atSel {α : Type} (f : Nat → Nat → Nat → M α) : M α := do
  let s ← look id
  let k := s.act.site
  if stageExists s.params k.pipe k.stage && k.alu < s.params.numSelAlu then f k.pipe k.stage k.alu
  else refuse .noSuchUnit

/-- R238. -/
def execSelExec (a : MaFields) (s : State) : Host.Outcome State Fault Refusal :=
  outcome (atSel (fun p st alu => do
    let s ← look id
    let o ← selRun p st alu a s.act.aluData s.act.io.t
    pure (.alu o))) s

/-- R226. -/
def execSelResilient (pv : Word) (hash52 : BitVec 52) (s : State) : Host.Outcome State Fault Refusal :=
  outcome (atSel (fun p st a => look (fun s => .nat (resilientAt s p st a pv.toNat hash52.toNat)))) s

/-- R228. -/
def execSelPlanB (pv : Word) (hash52 : BitVec 52) (s : State) : Host.Outcome State Fault Refusal :=
  outcome (atSel (fun _ _ _ => look (fun s => .nat (planBIndex s.params pv.toNat hash52.toNat)))) s

/-- R233. -/
def execSelFair (pv : Word) (hash52 : BitVec 52) (s : State) : Host.Outcome State Fault Refusal :=
  outcome (atSel (fun p st a => do
    let m ← fairIndex p st a pv.toNat hash52.toNat
    pure (.nat m))) s

end Sys2Proof.Machine
end

