-- ==== Sys2Proof/Machine/Counters.lean ====
section
/-! DEFINITION. The stateful counters (`45_stateful_counters.md`): bounds and wrapping, push and pop, the
watermark, and the clear sweep. -/

namespace Sys2Proof.Machine

/-! ### Bounds (R331 to R334) -/

/-- The bounds of a counter: `min_value`, `max_value`, `unit` (R331, R332). -/
structure Bounds where
  lo   : Nat
  hi   : Nat
  unit : Nat
  deriving DecidableEq, Repr

/-- The bounds of a configuration (R332). -/
def boundsOf (vpnBase vpnLimit shift : Nat) : Bounds :=
  { lo := vpnBase * 2 ^ 17, hi := (vpnLimit + 1) * 2 ^ 17 - 2 ^ shift, unit := 2 ^ shift }

/-- `capacity(c)` (R332). -/
def capacity (b : Bounds) : Nat := (b.hi - b.lo) / b.unit + 1

/-- `increment_with_wrap` (R333). -/
def incrementWrap (b : Bounds) (v : Nat) : Nat := if b.hi ≤ v then b.lo else v + b.unit

/-- `decrement_with_wrap` (R334). Above `min_value` but below one unit, where R334 gives a negative number, the answer
is 0 (DESIGN CHOICE, log entry 64). -/
def decrementWrap (b : Bounds) (v : Nat) : Nat := if v ≤ b.lo then b.hi else v - b.unit

/-- The configured bounds of counter `c` (R332). -/
def boundsAt (s : State) (p st c : Nat) : Bounds :=
  boundsOf (s.field .vpnBase [p, st, c]) (s.field .vpnLimit [p, st, c]) (s.field .ctrShift [p, st, c])

/-- Reading the bounds: `vpn_base > vpn_limit` is outside the legal range and refused (R36, U5). -/
def readBounds (p st c : Nat) : M Bounds := do
  let s ← look id
  if s.field .vpnBase [p, st, c] ≤ s.field .vpnLimit [p, st, c] then pure (boundsAt s p st c)
  else refuse (.illegalConfig .vpnLimit)

/-! ### Records and the spinlock (R351) -/

def counterOf (p st c : Nat) : M Counter := look (fun s => s.counter p st c)
def putCtr (p st c : Nat) (v : Counter) : M Unit := change (fun s => s.putCounter p st c v)

/-- `spinlock()` and `spinunlock()`: every operation is one atomic step, so the lock is free when it is
taken (DEDUCED, log entry 39). -/
def spinLock (p st : Nat) : M Unit := change (fun s => s.putSpin p st true)
def spinUnlock (p st : Nat) : M Unit := change (fun s => s.putSpin p st false)

/-- The index check (R330): when relaxed the operation does nothing and returns `none`. -/
def withCounter (p st c : Nat) (f : M Ret) : M Ret := do
  let s ← look id
  if c < s.params.numCtrs then f
  else do
    raise (some (p, st)) (.ctrIndex c)
    pure .none

/-! ### Watermark (R342) -/

/-- `watermark(c, kind)`: counts pushes or pops, wrapping to 0 at the shifted threshold. -/
def watermarkStep (s : State) (p st c : Nat) (pop : Bool) (v : Counter) : Counter :=
  if !s.flag .wmEnable [p, st, c] || (pop != s.flag .wmCountPops [p, st, c]) then v
  else if s.field .wmThreshold [p, st, c] * 2 ^ 7 ≤ v.wmCount + 1 then { v with wmCount := 0 }
  else { v with wmCount := v.wmCount + 1 }

/-! ### Push and pop (R336 to R339) -/

/-- `push_fifo` and `push_stack` (R336, R338): at full only `Overflowed` is set. -/
def pushCtr (p st c : Nat) : M (Option Nat) := do
  let b ← readBounds p st c
  let v ← counterOf p st c
  if v.fill = capacity b then do
    putCtr p st c { v with flags := v.flags ||| flOverflowed }
    pure none
  else do
    let s ← look id
    putCtr p st c (watermarkStep s p st c false
      { v with value := incrementWrap b v.value, fill := v.fill + 1 })
    pure (some v.value)

/-- `pop_fifo` (R337): at empty only `Underflowed` is set. -/
def popFifo (p st c : Nat) : M (Option Nat) := do
  let v ← counterOf p st c
  if v.fill = 0 then do
    putCtr p st c { v with flags := v.flags ||| flUnderflowed }
    pure none
  else do
    let b ← readBounds p st c
    let s ← look id
    putCtr p st c (watermarkStep s p st c true
      { v with popValue := incrementWrap b v.popValue, fill := v.fill - 1 })
    pure (some v.popValue)

/-- `pop_stack` (R339): the pointer steps back first. -/
def popStack (p st c : Nat) : M (Option Nat) := do
  let v ← counterOf p st c
  if v.fill = 0 then do
    putCtr p st c { v with flags := v.flags ||| flUnderflowed }
    pure none
  else do
    let b ← readBounds p st c
    let s ← look id
    putCtr p st c (watermarkStep s p st c true
      { v with value := decrementWrap b v.value, fill := v.fill - 1 })
    pure (some (decrementWrap b v.value))

/-! ### The clear sweep (R343 to R349) -/

/-- The counter emptied at the first step of a clear (R343, R346). -/
def emptied (b : Bounds) (v : Counter) : Counter :=
  { v with flags := (v.flags &&& ~~~flStartPending) ||| flRunning, value := b.lo, popValue := b.lo,
           fill := 0, wmCount := 0, clearPtr := b.lo }

/-- `clear_step(c)` (R346). -/
def clearStep (p st c : Nat) : M Unit := do
  let b ← readBounds p st c
  let v ← counterOf p st c
  let v := if hasFlag v.flags flStartPending then emptied b v else v
  putCtr p st c v
  let w ← memRead (saluAddr p st c (ptrWord v.clearPtr))
  memWrite (saluAddr p st c (ptrWord v.clearPtr)) (wordSet w 0 (ptrSub v.clearPtr) b.unit)
  if b.hi ≤ v.clearPtr then putCtr p st c { v with flags := v.flags &&& ~~~flRunning }
  else putCtr p st c { v with clearPtr := v.clearPtr + b.unit }

/-- An upper bound on the steps of a sweep: each step moves `clear_ptr` a unit towards `max_value`
(DEDUCED, log entry 35). -/
def clearFuel (s : State) (p st c : Nat) : Nat :=
  let b := boundsAt s p st c
  (b.hi - b.lo) + (b.hi - (s.counter p st c).clearPtr) + 2

/-- The loop of R347. -/
def clearTillLoop (p st c tStop : Nat) : Nat → M Unit
  | 0 => pure ()
  | n + 1 => do
    let v ← counterOf p st c
    if ctrActive v.flags && decide (v.tClearNext ≤ tStop) then do
      clearStep p st c
      let v ← counterOf p st c
      let period ← look (fun s => s.params.ctrClearPeriod)
      putCtr p st c { v with tClearNext := v.tClearNext + period }
      clearTillLoop p st c tStop n
    else pure ()

/-- `continue_clear_till(c, T_stop)` (R347). -/
def continueClearTill (p st c tStop : Nat) : M Unit := do
  spinLock p st
  let n ← look (fun s => clearFuel s p st c)
  clearTillLoop p st c tStop n
  spinUnlock p st

/-- The loop of R349. -/
def clearAllLoop (p st c : Nat) : Nat → M Unit
  | 0 => pure ()
  | n + 1 => do
    let v ← counterOf p st c
    if ctrActive v.flags then do
      clearStep p st c
      clearAllLoop p st c n
    else pure ()

/-- `maybe_synchronous_clear(c)` (R349). -/
def maybeSynchronousClear (p st c : Nat) : M Unit := do
  let s ← look id
  if s.flag .syncClear [p, st] then do
    spinLock p st
    clearAllLoop p st c (clearFuel s p st c)
    spinUnlock p st
  else pure ()

/-- `start_clear_at(c, T)` (R345). -/
def startClearAt (p st c t : Nat) : M Unit := do
  spinLock p st
  let v ← counterOf p st c
  putCtr p st c { v with flags := v.flags ||| flStartPending, tClearNext := t }
  spinUnlock p st
  maybeSynchronousClear p st c

/-! ### Dispatch from the datapath (R340) -/

/-- The counter's discipline chooses the push or pop (R340). -/
def ctrRequest (p st c : Nat) (pop : Bool) : M (Option Nat) := do
  let stack ← look (fun s => s.flag .ctrDiscipline [p, st, c])
  if !pop then pushCtr p st c
  else if stack then popStack p st c
  else popFifo p st c

/-- The pointer replaces the word and sub-address of a raw stateful address; on `none` it is disabled
(R340). -/
def withPointer (raw : BitVec 32) (ptr : Option Nat) : BitVec 32 :=
  match ptr with
  | none => raw &&& 0x7FFFFFFF#32
  | some q => (raw &&& 0xFF000000#32) ||| BitVec.ofNat 32 (q % 2 ^ 24)

/-! ### The meanings, in the stage of the current site -/

/-- The site's stage exists; an operation elsewhere is refused. -/
def atStage {α : Type} (f : Nat → Nat → M α) : M α := do
  let s ← look id
  let k := s.act.site
  if stageExists s.params k.pipe k.stage then f k.pipe k.stage else refuse .noSuchUnit

/-- A push or a pop on counter `c` of the site's stage. -/
def pointerOp (c : Nat) (f : Nat → Nat → M (Option Nat)) : M Ret :=
  atStage (fun p st => withCounter p st c (do
    let q ← f p st
    pure (.pointer q)))

/-- An operation on counter `c` of the site's stage that returns nothing. -/
def counterOp (c : Nat) (f : Nat → Nat → M Unit) : M Ret :=
  atStage (fun p st => withCounter p st c (do
    f p st
    pure .none))

/-- R336. -/
def execCtrPushFifo (c : Nat) (s : State) : Host.Outcome State Fault Refusal :=
  outcome (pointerOp c (fun p st => pushCtr p st c)) s

/-- R337. -/
def execCtrPopFifo (c : Nat) (s : State) : Host.Outcome State Fault Refusal :=
  outcome (pointerOp c (fun p st => popFifo p st c)) s

/-- R338. -/
def execCtrPushStack (c : Nat) (s : State) : Host.Outcome State Fault Refusal :=
  outcome (pointerOp c (fun p st => pushCtr p st c)) s

/-- R339. -/
def execCtrPopStack (c : Nat) (s : State) : Host.Outcome State Fault Refusal :=
  outcome (pointerOp c (fun p st => popStack p st c)) s

/-- R342. -/
def execCtrWatermark (c : Nat) (pop : Bool) (s : State) : Host.Outcome State Fault Refusal :=
  outcome (counterOp c (fun p st => do
    let s ← look id
    putCtr p st c (watermarkStep s p st c pop (s.counter p st c)))) s

/-- R345. -/
def execCtrStartClearAt (c t : Nat) (s : State) : Host.Outcome State Fault Refusal :=
  outcome (counterOp c (fun p st => startClearAt p st c t)) s

/-- R346. -/
def execCtrClearStep (c : Nat) (s : State) : Host.Outcome State Fault Refusal :=
  outcome (counterOp c (fun p st => clearStep p st c)) s

/-- R347. -/
def execCtrContinueClearTill (c tStop : Nat) (s : State) : Host.Outcome State Fault Refusal :=
  outcome (counterOp c (fun p st => continueClearTill p st c tStop)) s

/-- R349. -/
def execCtrMaybeSynchronousClear (c : Nat) (s : State) : Host.Outcome State Fault Refusal :=
  outcome (counterOp c (fun p st => maybeSynchronousClear p st c)) s

/-- R119 `CTR_START_CLEAR`: R345 with `T = cycle[pipe]`. -/
def execCtrStartClear (pipe stage ctr : Nat) (s : State) : Host.Outcome State Fault Refusal :=
  outcome (do
    let s ← look id
    if stageExists s.params pipe stage then
      withCounter pipe stage ctr (do
        startClearAt pipe stage ctr (s.pipe pipe).cycle
        pure .none)
    else refuse .noSuchUnit) s

end Sys2Proof.Machine
end

