-- ==== Sys2Proof/Machine/Row.lean ====
section
/-! DEFINITION. The SRAM row (`41_sram_row.md`): hash index, exact, ternary, tind and gateway lookups,
output-bus arbitration, ALU input data. A lookup addressed alone works on the row of the current site
and the current PHV. -/

namespace Sys2Proof.Machine

/-! ### Hash index (R162) -/

/-- `get_hash_index`; `none` is the answer -1. -/
def hashIndex (params : Params) (p st r c : Nat) (phv : Phv) : Option Nat :=
  if hashValidFn params p st r c phv then some (hashFn params p st r c phv % params.sramDepth)
  else none

/-! ### Output buses (R170 to R175) -/

/-- What a bus write does. -/
inductive BusWrite
  | land (b : BusRec)       -- first write, or OR-merge
  | override (b : BusRec)   -- `ERR_BUS_OVERRIDE`, then overwrite
  | ignored
  deriving DecidableEq, Repr

/-- The OR-merge of a write of the bus's own group (R170). Only a write that changes the bus, its value or its
priority, records its hit address (R165) (DEDUCED, log entry 21). -/
def busMerge (b : BusRec) (out p : Nat) (h : BitVec 32) : BusRec :=
  if b.value ||| out = b.value ∧ p ≤ b.prio then b
  else { b with value := b.value ||| out, prio := max b.prio p, hit := h }

/-- The priority-ordered OR-merge (R170): priority `p`, group `g`, hit address `h` of the column. -/
def busWrite (b : BusRec) (out p g : Nat) (h : BitVec 32) : BusWrite :=
  if !b.inUse then .land { inUse := true, value := out, prio := p, group := g, hit := h }
  else if g = b.group then .land (busMerge b out p h)
  else if b.prio < p then .override { inUse := true, value := out, prio := p, group := g, hit := h }
  else .ignored

/-- `(col << 20) | idx` in 32 bits (R165). -/
def hitAddress (col idx : Nat) : BitVec 32 := BitVec.ofNat 32 (col <<< 20 ||| idx)

def busCount (p : Params) : BusKind → Nat
  | .matchBus => p.numMatchBuses
  | .tindBus => p.numTindBuses

def busWidth (p : Params) : BusKind → Nat
  | .matchBus => p.matchBusW
  | .tindBus => p.tindBusW

/-- `set_match_output_bus` and `set_tind_output_bus` of row `r` (R170, R171); `idx` is the SRAM index the
output was read at (DEDUCED, log entry 22). A column that the row does not have has priority and group 0 (DESIGN CHOICE,
log entry 71). -/
def setOutputBus (k : BusKind) (p st r bus out col idx : Nat) : M Unit := do
  let s ← look id
  let key := [p, st, r, bus]
  let b := s.bus k key
  let prio := s.params.priority.getD col 0
  let group := s.params.prigroup.getD col 0
  match busWrite b (out % 2 ^ busWidth s.params k) prio group (hitAddress col idx) with
  | .land b' => change (fun s => s.putBus k key b')
  | .override b' => do
    raise (some (p, st)) (.busOverride r bus col b.prio prio)
    change (fun s => s.putBus k key b')
  | .ignored => pure ()

/-- The keys of a row's buses. -/
def inRow (p st r : Nat) (key : List Nat) : Bool := key.take 3 == [p, st, r]

/-- `reset_resources()` (R175): every bus of the row, its value and its hit address. -/
def resetResources (p st r : Nat) (s : State) : State :=
  s.setRow { s.row with matchBus := Store.dropWhere (inRow p st r) s.row.matchBus
                        tindBus := Store.dropWhere (inRow p st r) s.row.tindBus }

/-- `bus_hit_addr[bus]` (R165): 0 for a bus not in use. -/
def busHitAddr (s : State) (k : BusKind) (key : List Nat) : BitVec 32 :=
  if (s.bus k key).inUse then (s.bus k key).hit else 0

/-! ### Lookups -/

/-- A configuration field that must be below a bound where it is read (R32, U5) (DEDUCED, log entry 29). -/
def legalField (name : FieldName) (idx : List Nat) (bound : Nat) : M Nat := do
  let v ← look (fun s => s.field name idx)
  if v < bound then pure v else refuse (.illegalConfig name)

/-- `get_word`, refused beyond 64 bits (R141). -/
def getWordOp (N v off n : Nat) : M Nat := if n ≤ 64 then pure (getBits N v off n) else refuse .wordTooWide

/-- The column's logical table hit in this cycle (R542 `lt_hit`). After a lookup addressed alone the mark
stays until the next cycle of the stage (DESIGN CHOICE, log entry 51). -/
def markHit (p st lt : Nat) (s : State) : State :=
  s.setRow { s.row with ltHit := Store.set 0 s.row.ltHit [p, st] (Store.get 0 s.row.ltHit [p, st] ||| 2 ^ lt) }

/-- The gateway inhibited a logical table in this cycle (R169, R542 `lt_inhibit`). After a gateway addressed
alone the mark stays until the next cycle of the stage (DESIGN CHOICE, log entry 51). -/
def markInhibit (p st lt : Nat) (s : State) : State :=
  s.setRow { s.row with
    ltInhibit := Store.set 0 s.row.ltInhibit [p, st] (Store.get 0 s.row.ltInhibit [p, st] ||| 2 ^ lt) }

/-- The entry test of R164. -/
def exactMatches (s : State) (p st r c : Nat) (word : Word) : Bool :=
  maskedEquals word.toNat (matchKey s.params p st r c s.act.phv).toNat (s.field .emKeyMask [p, st, r, c])
    && (!s.flag .emValidEn [p, st, r, c] || word.getLsbD (s.field .emValidBit [p, st, r, c]))

/-- `exact_lookup(c, phv)` (R164): the SRAM index of a hit. `col_lt` and the bus number are read on a match alone, before
the bus is written (DEDUCED, log entry 29). -/
def exactLookup (p st r c : Nat) : M (Option Nat) := do
  let s ← look id
  match hashIndex s.params p st r c s.act.phv with
  | none => pure none
  | some idx => do
    let word ← memRead (sramAddr p st r c idx)
    if exactMatches s p st r c word then do
      let lt ← legalField .colLt [p, st, r, c] s.params.numLt
      let out ← getWordOp 128 word.toNat (s.field .emOutOff [p, st, r, c]) s.params.matchBusW
      let bus ← legalField .colMatchBus [p, st, r, c] s.params.numMatchBuses
      setOutputBus .matchBus p st r bus out c idx
      change (markHit p st lt)
      pure (some idx)
    else pure none

/-- Entry `e` of the ternary array (R30). -/
def State.tcamEntry (s : State) (p st e : Nat) : TcamEntry := Store.get {} s.tcam [p, st, e]

/-- Entry `e` takes part in lookups of table `lt` and matches the key (R166). -/
def tcamHit (s : State) (p st lt key e : Nat) : Bool :=
  s.flag .tcamEntryValid [p, st, e] && s.field .tcamEntryLt [p, st, e] == lt
    && tcamCompare s.params.tcamW (s.tcamEntry p st e).w0 (s.tcamEntry p st e).w1
        (searchEncode s.params.tcamW key).1 (searchEncode s.params.tcamW key).2

/-- The hit vector `H` (R166, R167), in increasing entry order. -/
def ternaryHits (s : State) (p st lt : Nat) : List Nat :=
  (List.range s.params.numTcam).filter (tcamHit s p st lt (tcamKey s.params p st lt s.act.phv))

/-- The hit vector as a number: bit `e` for each entry `e` of `H` (R167). -/
def hitVector (hits : List Nat) : Nat := hits.foldl (fun v e => v ||| 2 ^ e) 0

/-- A valid entry names a logical table that the stage does not have (R58, U5). -/
def tcamIllegal (s : State) (p st : Nat) : Bool :=
  (List.range s.params.numTcam).any (fun e =>
    s.flag .tcamEntryValid [p, st, e] && decide (s.params.numLt ≤ s.field .tcamEntryLt [p, st, e]))

/-- `ternary_lookup(lt, phv)` (R166): the highest entry of `H` (DEDUCED, log entry 43). -/
def ternaryLookup (p st lt : Nat) : M (Option Nat) := do
  let s ← look id
  if tcamIllegal s p st then refuse (.illegalConfig .tcamEntryLt)
  else pure (ternaryHits s p st lt).getLast?

/-- `tind_lookup(c, phv)` (R168): the SRAM index of a hit. `col_lt` is read first, since it names the table looked up
(DEDUCED, log entry 29). -/
def tindLookup (p st r c : Nat) : M (Option Nat) := do
  let s ← look id
  let lt ← legalField .colLt [p, st, r, c] s.params.numLt
  let e ← ternaryLookup p st lt
  match e with
  | none => pure none
  | some e => do
    let idx := e % s.params.sramDepth
    let word ← memRead (sramAddr p st r c idx)
    let out ← getWordOp 128 word.toNat (s.field .tindOutOff [p, st, r, c]) s.params.tindBusW
    let bus ← legalField .colTindBus [p, st, r, c] s.params.numTindBuses
    setOutputBus .tindBus p st r bus out c idx
    change (markHit p st lt)
    pure (some idx)

/-- Entry `e` of a gateway (R31). -/
def State.gwEntry (s : State) (p st r e : Nat) : GwEntry := Store.get {} s.gw [p, st, r, e]

/-- Gateway entry `e` accepts the query (R169). -/
def gwHit (s : State) (p st r q e : Nat) : Bool :=
  (s.gwEntry p st r e).valid && asymmetricEquals s.params.gwW (s.gwEntry p st r e).stored q
    (s.gwEntry p st r e).m01 (s.gwEntry p st r e).m10

/-- The lowest gateway entry that accepts the current PHV (R169). -/
def gatewayMatch (s : State) (p st r : Nat) : Option Nat :=
  (List.range s.params.gwEntries).find?
    (gwHit s p st r (gwKey s.params p st r s.act.phv % 2 ^ s.params.gwW))

/-- Record a row's gateway result (R542). After a gateway addressed alone it stays until the next cycle of the
stage (DESIGN CHOICE, log entry 51). -/
def putGateway (p st r : Nat) (g : GwResult) (s : State) : State :=
  s.setRow { s.row with gateway := Store.set .notRun s.row.gateway [p, st, r] g }

/-- `gateway_lookup(phv)` of a row with `gw_enable` (R169): a hit inhibits table `gw_lt`. -/
def gatewayLookup (p st r : Nat) : M GwResult := do
  let s ← look id
  match gatewayMatch s p st r with
  | none => do
    change (putGateway p st r .miss)
    pure .miss
  | some e => do
    let lt ← legalField .gwLt [p, st, r] s.params.numLt
    change (putGateway p st r (.hit e))
    change (markInhibit p st lt)
    pure (.hit e)

/-- `alu_data(alu, phv)` (R176) on row `r`. -/
def aluDataOf (s : State) (p st r alu : Nat) : Word :=
  (if s.flag .aluDataHashEn [p, st, r] then xbarHash s.params p st r alu s.act.phv else 0)
    ||| (if s.flag .aluDataPhvEn [p, st, r] then xbarPhv s.params p st r alu s.act.phv else 0)

/-- One column in its turn (R160): off, an exact lookup or a tind lookup; `col_mode` 3 is refused where
it is read (R120). -/
def runColumn (p st r c : Nat) : M (Option (Option Nat)) := do
  let mode ← look (fun s => s.field .colMode [p, st, r, c])
  match mode with
  | 0 => pure none
  | 1 => do
    let h ← exactLookup p st r c
    pure (some h)
  | 2 => do
    let h ← tindLookup p st r c
    pure (some h)
  | _ => refuse (.illegalConfig .colMode)

/-- The gateway in its turn: only with `gw_enable` (R169). -/
def runGateway (p st r : Nat) : M GwResult := do
  let en ← look (fun s => s.flag .gwEnable [p, st, r])
  if en then gatewayLookup p st r else pure .notRun

/-- One row's cycle (R160): clean buses, gateway, columns 0 to 11. -/
def runRow (p st r : Nat) : M Unit := do
  change (resetResources p st r)
  let _ ← runGateway p st r
  forEach (List.range numCols) (fun c => do
    let _ ← runColumn p st r c
    pure ())

/-! ### The meanings, at the row of the current site -/

/-- The site's row exists; an operation elsewhere is refused (DESIGN CHOICE, log entry 26). -/
def atRow {α : Type} (f : Nat → Nat → Nat → M α) : M α := do
  let s ← look id
  let k := s.act.site
  if stageExists s.params k.pipe k.stage && k.row < s.params.numRows then f k.pipe k.stage k.row
  else refuse .noSuchUnit

/-- A lookup's answer: nothing where it does not run, else a miss or a hit. -/
def lookupRet : Option (Option Nat) → Ret
  | none => .none
  | some none => .miss
  | some (some i) => .hit i

def gwRet : GwResult → Ret
  | .notRun => .none
  | .miss => .miss
  | .hit e => .hit e

/-- R162. Alone, for any column number the hash answers (DESIGN CHOICE, log entry 71). -/
def execRowGetHashIndex (col : Nat) (s : State) : Host.Outcome State Fault Refusal :=
  outcome (atRow (fun p st r => look (fun s =>
    match hashIndex s.params p st r col s.act.phv with
    | none => .int (-1)
    | some i => .int i))) s

/-- R164: the lookup runs "only when `col_mode[c] = EXACT`" (DEDUCED, log entry 23). -/
def execRowExactLookup (col : Nat) (s : State) : Host.Outcome State Fault Refusal :=
  outcome (atRow (fun p st r => do
    let mode ← look (fun s => s.field .colMode [p, st, r, col])
    if mode = 1 then do
      let h ← exactLookup p st r col
      pure (lookupRet (some h))
    else if mode = 3 then refuse (.illegalConfig .colMode)
    else pure .none)) s

/-- R165: the hit address of each match bus of the row, bus 0 in the low 32 bits. -/
def execRowHitAddress (s : State) : Host.Outcome State Fault Refusal :=
  outcome (atRow (fun p st r => look (fun s =>
    .nat (((List.range s.params.numMatchBuses).map
      (fun b => (busHitAddr s .matchBus [p, st, r, b]).toNat * 2 ^ (32 * b))).sum)))) s

/-- R166, R167: the answer, and the hit vector, which "is itself an output". No entry is of a table that the stage does
not have, so its lookup alone is a miss (DESIGN CHOICE, log entry 71). -/
def execRowTernaryLookup (lt : Nat) (s : State) : Host.Outcome State Fault Refusal :=
  outcome (atRow (fun p st _ => do
    let h ← ternaryLookup p st lt
    look (fun s => .ternary (hitVector (ternaryHits s p st lt)) h))) s

/-- R168: the lookup runs "only when `col_mode[c] = TIND`". -/
def execRowTindLookup (col : Nat) (s : State) : Host.Outcome State Fault Refusal :=
  outcome (atRow (fun p st r => do
    let mode ← look (fun s => s.field .colMode [p, st, r, col])
    if mode = 2 then do
      let h ← tindLookup p st r col
      pure (lookupRet (some h))
    else if mode = 3 then refuse (.illegalConfig .colMode)
    else pure .none)) s

/-- R169: the lookup runs "only when `gw_enable = 1`". -/
def execRowGatewayLookup (s : State) : Host.Outcome State Fault Refusal :=
  outcome (atRow (fun p st r => do
    let g ← runGateway p st r
    pure (gwRet g))) s

/-- A bus write addressed alone: the bus exists, and the hit address carries SRAM index 0 (DEDUCED, log
entry 21). -/
def busOp (k : BusKind) (bus output col : Nat) : M Ret :=
  atRow (fun p st r => do
    let n ← look (fun s => busCount s.params k)
    if bus < n then do
      setOutputBus k p st r bus output col 0
      pure .none
    else refuse .noSuchUnit)

/-- R170. -/
def execRowSetMatchOutputBus (bus output col : Nat) (s : State) : Host.Outcome State Fault Refusal :=
  outcome (busOp .matchBus bus output col) s

/-- R171. -/
def execRowSetTindOutputBus (bus output col : Nat) (s : State) : Host.Outcome State Fault Refusal :=
  outcome (busOp .tindBus bus output col) s

/-- R175. -/
def execRowResetResources (s : State) : Host.Outcome State Fault Refusal :=
  outcome (atRow (fun p st r => do
    change (resetResources p st r)
    pure .none)) s

/-- R176. Alone, for any ALU number the crossbars answer (DESIGN CHOICE, log entry 71). -/
def execRowAluData (alu : Nat) (s : State) : Host.Outcome State Fault Refusal :=
  outcome (atRow (fun p st r => look (fun s => .word (aluDataOf s p st r alu)))) s

end Sys2Proof.Machine
end

