-- ==== Sys2Proof/Machine/Snapshot.lean ====
section
/-! DEFINITION. The snapshot unit (`46_snapshot.md`): triggers, propagation of the flag on the I/O object,
and the two capture passes. -/

namespace Sys2Proof.Machine

/-- `gress_bit` (R363). -/
def gressBit : Gress → Nat
  | .ingress => 0
  | .egress => 1

/-! ### Triggers (R364 to R367) -/

/-- `cfg.snap_match[i]`, the pair `(w0, w1)` of R37: `w0` is the field's part 0 and `w1` its part 1 (DESIGN
CHOICE, log entry 52). -/
def snapMatchAt (s : State) (p st : Nat) (g : Gress) (i : Nat) : Nat × Nat :=
  let v := s.field .snapMatch [p, st, gressBit g, i]
  (v % 2 ^ 64, v / 2 ^ 64 % 2 ^ 64)

/-- One container's part of `phv_match` (R365): a word never configured is a non-match. -/
def containerMatches (params : Params) (w : Nat × Nat) (phv : Phv) (i : Nat) : Bool :=
  let n := phvWidth params i
  let k := phvGet params phv i
  !(w.1 == 0 && w.2 == 0) && tcamCompare n w.1 w.2 (searchEncode n k).1 (searchEncode n k).2

/-- `phv_match(u, phv)` (R365): every container but those of `PHV_DARK` (R366). -/
def phvMatch (s : State) (p st : Nat) (g : Gress) (phv : Phv) : Bool :=
  (List.range (phvCount s.params)).all (fun i =>
    s.params.phvDark.contains i || containerMatches s.params (snapMatchAt s p st g i) phv i)

/-- `advance_clock(u, io)` (R367). -/
def advancedClock (u : SnapUnit) (cycle t : Nat) : Nat := max (max u.clock cycle) (max t u.lastNop)

/-- `time_match(u)` (R367). -/
def timeMatch (s : State) (p st : Nat) (g : Gress) (clock : Nat) : Bool :=
  s.flag .snapTimeEnable [p, st, gressBit g]
    && decide (s.field .snapTimeTrigger [p, st, gressBit g] ≤ clock % 2 ^ 48)

/-- The unit evaluates its own trigger (R362, R364). -/
def evaluatesOwn : SnapState → Bool
  | .armed | .triggerHappy => true
  | .passive | .full => false

/-- The unit captures (R362). -/
def snapFires (st : SnapState) (own inFlag : Bool) : Bool :=
  match st with
  | .armed => own
  | .triggerHappy => own || inFlag
  | .passive | .full => false

/-- The flag passed on (R362, R369). -/
def flagOut (st : SnapState) (own inFlag : Bool) : Bool :=
  match st with
  | .passive => inFlag
  | .armed => own
  | .triggerHappy => own || inFlag
  | .full => false

/-! ### The two passes -/

/-- `capture(u, io)` (R371). -/
def firstPass (u : SnapUnit) (io : IoObj) : SnapUnit :=
  { u with dpVersion := io.pktVersion, dpThreadActive := io.threadActive,
           dpGhost := io.threadActive.getLsbD 2, pending := true }

/-- `snapshot_step(io, phv)` (R363). -/
def snapshotStep (p st : Nat) (s : State) : State :=
  let io := s.act.io
  let u := s.snapUnit p st io.gress
  let u := { u with clock := advancedClock u (s.pipe p).cycle io.t }
  if !io.threadActive.getLsbD (gressBit io.gress) then
    s.putSnapUnit p st io.gress { u with lastNop := io.t }
  else
    let own := evaluatesOwn u.state
      && (phvMatch s p st io.gress s.act.phv || timeMatch s p st io.gress u.clock)
    let u' := if snapFires u.state own io.snapTriggered then firstPass u io else u
    (s.putSnapUnit p st io.gress u').setIo
      { io with snapTriggered := flagOut u.state own io.snapTriggered }

/-- The keys of the row buses of a stage and their hit addresses, listed where not 0 (R372). -/
def captureBusHits (s : State) (p st : Nat) : Store (BitVec 32) :=
  ((List.range s.params.numRows).flatMap (fun r =>
    (List.range s.params.numMatchBuses).map (fun b =>
      ([r, b], busHitAddr s .matchBus [p, st, r, b])))).filter (fun e => e.2 ≠ 0)

/-- The captured PHV: selected containers take their value, the others keep theirs (R372). -/
def capturePhv (s : State) (p st : Nat) (g : Gress) (old : Store Nat) : Store Nat :=
  (List.range (phvCount s.params)).foldl (fun acc i =>
    if s.flag .snapCaptureSel [p, st, gressBit g, i] then
      Store.set 0 acc [i] (phvGet s.params s.act.phv i)
    else acc) old

/-- The unit after `finalize_snapshot` (R372). -/
def finalized (s : State) (p st : Nat) (nextTable : BitVec 8) (u : SnapUnit) : SnapUnit :=
  { u with capNextTable := nextTable, capBusHit := captureBusHits s p st,
           capLtHit := Store.get 0 s.row.ltHit [p, st], capLtInhibit := Store.get 0 s.row.ltInhibit [p, st],
           capPhv := capturePhv s p st s.act.io.gress u.capPhv, state := .full, pending := false }

/-- `finalize_snapshot(u, phv_in, res)` (R372), on the PHV as it entered the stage. -/
def finalizeSnapshot (p st : Nat) (nextTable : BitVec 8) (s : State) : State :=
  let u := s.snapUnit p st s.act.io.gress
  if u.pending then
    (s.putSnapUnit p st s.act.io.gress (finalized s p st nextTable u)).setIrq
      (.snapshot p st s.act.io.gress)
  else s

/-- `snap_state` of a 2-bit code (R361). -/
def snapStateOf (sn : BitVec 2) : SnapState :=
  match sn.toNat with
  | 0 => .passive
  | 1 => .armed
  | 2 => .triggerHappy
  | _ => .full

/-! ### The meanings -/

/-- R363, in the stage of the current site. -/
def execSnapStep (s : State) : Host.Outcome State Fault Refusal :=
  outcome (atStage (fun p st => do
    change (snapshotStep p st)
    pure .none)) s

/-- R371, in the stage of the current site: the unit of the current gress, in whatever state it is (DESIGN CHOICE, log
entry 72). -/
def execSnapFirstPass (s : State) : Host.Outcome State Fault Refusal :=
  outcome (atStage (fun p st => do
    change (fun s => s.putSnapUnit p st s.act.io.gress
      (firstPass (s.snapUnit p st s.act.io.gress) s.act.io))
    pure .none)) s

/-- R372, in the stage of the current site: the row's `next_table` is an operand, the other results are those
that the last cycle or lookup of the stage left (DESIGN CHOICE, log entry 53). -/
def execSnapFinalizeSnapshot (nextTable : BitVec 8) (s : State) : Host.Outcome State Fault Refusal :=
  outcome (atStage (fun p st => do
    change (finalizeSnapshot p st nextTable)
    pure .none)) s

/-- R374. -/
def execSnapSetState (pipe stage : Nat) (gress : Gress) (sn : BitVec 2) (s : State) :
    Host.Outcome State Fault Refusal :=
  outcome (do
    let s ← look id
    if stageExists s.params pipe stage then do
      change (fun s => s.putSnapUnit pipe stage gress
        { s.snapUnit pipe stage gress with state := snapStateOf sn, pending := false })
      pure .none
    else refuse .noSuchUnit) s

end Sys2Proof.Machine
end

