-- ==== Sys2Proof/Machine/Teop.lean ====
section
/-! DEFINITION. The tEOP bus routing (`47_teop.md`): bus masks and their cache, the required delay and its
check, address output and consumption. -/

namespace Sys2Proof.Machine

/-! ### Bus masks (R383, R384) -/

/-- Bus `b` is implicated for table `lt` by the named crossbar fields. -/
def busImplicated (meterSet statsSet : FieldName) (s : State) (p st lt b : Nat) : Bool :=
  (match s.optField .ltMeterAlu [p, st, lt] with
    | some a => s.inSet meterSet [p, st, b] a
    | none => false)
  || (match s.optField .ltStatsAlu [p, st, lt] with
    | some a => s.inSet statsSet [p, st, b] a
    | none => false)

/-- A mask with bit `b` for each bus `b` that satisfies a test (R382). -/
def busMask (n : Nat) (f : Nat → Bool) : Nat :=
  (List.range n).foldl (fun m b => if f b then m ||| 2 ^ b else m) 0

/-- `teop_buses_at_hdrtime(s, lt)` (R383). -/
def busesAtHdrtime (s : State) (p st lt : Nat) : Nat :=
  busMask s.params.numTeopBuses (busImplicated .busHdrMeter .busHdrStats s p st lt)

/-- `teop_buses_at_teoptime(s, lt)` (R384). -/
def busesAtTeoptime (s : State) (p st lt : Nat) : Nat :=
  busMask s.params.numTeopBuses (busImplicated .busTeopMeter .busTeopStats s p st lt)

/-! ### Required delay (R386) -/

/-- Some logical table of the stage uses bus `b` at header time. -/
def stageUsesHdr (s : State) (p st b : Nat) : Bool :=
  (List.range s.params.numLt).any (fun lt => (busesAtHdrtime s p st lt).testBit b)

/-- `teop_delay_required(s, lt, b)` (R386). -/
def delayRequired (s : State) (p st lt b : Nat) : Nat :=
  if s.flag .ltMatchDependent [p, st, lt] && (List.range st).any (fun st' => stageUsesHdr s p st' b) then
    s.params.pipeLatency - 4
  else if stageUsesHdr s p st b then s.params.pipeLatency - s.params.predicationDelay - 7
  else 0

/-- `check_teop_delay(s, lt, b)` (R387). -/
def checkTeopDelay (p st lt b : Nat) : M Unit := do
  let s ← look id
  let cfg := s.field .teopDelayCfg [p, st, b]
  let req := delayRequired s p st lt b
  if cfg ≠ req then raise (some (p, st)) (.teopDelay st lt b cfg req) else pure ()

/-! ### Address output (R388, R389) -/

/-- Bus `b` of the I/O object. -/
def busOf (io : IoObj) (b : Nat) : TeopBus := Store.get {} io.buses [b]

def putTeopBus (io : IoObj) (b : Nat) (v : TeopBus) : IoObj := { io with buses := Store.set {} io.buses [b] v }

/-- Another ALU already uses the bus for this bus, stage and table (R388). -/
def busCollides (u : TeopBus) (st lt alu : Nat) (isStats : Bool) : Bool :=
  u.valid && u.stage == st && u.lt == lt && (u.alu != alu || u.isStats != isStats)

/-- One bus of an address output. -/
def outputOnBus (p st lt alu : Nat) (addr : BitVec 32) (isStats : Bool) (b : Nat) : M Unit := do
  let s ← look id
  if busCollides (busOf s.act.io b) st lt alu isStats then
    raise (some (p, st)) (.teopCollision st lt b)
  else do
    change (fun s => s.setIo (putTeopBus s.act.io b
      { valid := true, addr := addr, stage := st, lt := lt, alu := alu, isStats := isStats }))
    checkTeopDelay p st lt b

/-- `teop_output_stats_addr` and `teop_output_meter_addr` (R388, R389): every bus the ALU drives at header
time, in bus order. -/
def outputAddr (p st lt alu : Nat) (addr : BitVec 32) (isStats : Bool) : M Unit := do
  let s ← look id
  let field := if isStats then FieldName.busHdrStats else FieldName.busHdrMeter
  forEach ((List.range s.params.numTeopBuses).filter (fun b => s.inSet field [p, st, b] alu))
    (outputOnBus p st lt alu addr isStats)

/-! ### Consumption (R390) -/

/-- The stats ALUs of the stage that take bus `b` at tEOP time, in increasing order (DESIGN CHOICE, log entry 68). -/
def consumers (s : State) (p st b : Nat) : List Nat :=
  (List.range s.params.numStatsAlu).filter (fun a => s.inSet .busTeopStats [p, st, b] a)

/-- One bus in its turn: executed by each consumer, then not valid; a meter ALU that takes a meter bus is
refused (DEDUCED, log entry 24). Data that a consumer reads goes to `host_out` and not to the outputs that
`ActionFn` sees (DESIGN CHOICE, log entry 56). -/
def consumeBus (p st b : Nat) : M Unit := do
  let s ← look id
  let u := busOf s.act.io b
  if u.valid then
    if u.isStats then
      if consumers s p st b = [] then pure ()
      else do
        forEach (consumers s p st b) (fun a => do
          let _ ← statsAddress p st a (BitVec.ofNat 24 u.addr.toNat) s.act.io.byteLen
          pure ())
        change (fun s => s.setIo (putTeopBus s.act.io b { busOf s.act.io b with valid := false }))
    else if s.field .busTeopMeter [p, st, b] = 0 then pure ()
    else refuse .meterNotSupplied
  else pure ()

/-- Every bus in increasing order, the consumers of each in increasing order: R390 says "for each" alone (DESIGN CHOICE,
log entry 68). -/
def consumeAll (p st : Nat) : M Unit := do
  let n ← look (fun s => s.params.numTeopBuses)
  forEach (List.range n) (consumeBus p st)

/-! ### The meanings, in the stage of the current site

A table that the stage does not have names no ALU and is not match dependent, so its masks are 0; a bus that the
stage does not have is used by no table, so its delay is 0 (DESIGN CHOICE, log entry 57). -/

/-- R383, R385: the mask, which the cache then holds. -/
def execTeopBusesAtHdrtime (lt : Nat) (s : State) : Host.Outcome State Fault Refusal :=
  outcome (atStage (fun p st => do
    let m ← look (fun s => busesAtHdrtime s p st lt)
    change (fun s => s.setTeop { s.teop with hdr := Store.set none s.teop.hdr [p, st, lt] (some m) })
    pure (.nat m))) s

/-- R384, R385. -/
def execTeopBusesAtTeoptime (lt : Nat) (s : State) : Host.Outcome State Fault Refusal :=
  outcome (atStage (fun p st => do
    let m ← look (fun s => busesAtTeoptime s p st lt)
    change (fun s => s.setTeop { s.teop with teop := Store.set none s.teop.teop [p, st, lt] (some m) })
    pure (.nat m))) s

/-- R386. -/
def execTeopDelayRequired (lt bus : Nat) (s : State) : Host.Outcome State Fault Refusal :=
  outcome (atStage (fun p st => look (fun s => .nat (delayRequired s p st lt bus)))) s

/-- R388. -/
def execTeopOutputStatsAddr (lt alu : Nat) (addr : BitVec 32) (s : State) :
    Host.Outcome State Fault Refusal :=
  outcome (atStage (fun p st => do
    outputAddr p st lt alu addr true
    pure .none)) s

/-- R389. -/
def execTeopOutputMeterAddr (lt alu : Nat) (addr : BitVec 32) (s : State) :
    Host.Outcome State Fault Refusal :=
  outcome (atStage (fun p st => do
    outputAddr p st lt alu addr false
    pure .none)) s

/-- R390. -/
def execTeopConsume (s : State) : Host.Outcome State Fault Refusal :=
  outcome (atStage (fun p st => do
    consumeAll p st
    pure .none)) s

end Sys2Proof.Machine
end

