-- ==== Sys2Proof/Machine/StageCycle.lean ====
section
/-! DEFINITION. One PHV visiting one stage (`70_reset_and_hazards.md` rules R540 to R543): clean
resources, clear sweeps, snapshot, lookups, addresses, counter requests, ALUs, tEOP consumption, action
and second snapshot pass. -/

namespace Sys2Proof.Machine

/-! ### The pieces of a cycle -/

/-- Step 1: every row's resources, and the results of the previous cycle's lookups. -/
def cleanStage (p st : Nat) (s : State) : State :=
  let s := (List.range s.params.numRows).foldl (fun s r => resetResources p st r s) s
  s.setRow { s.row with gateway := Store.dropWhere (fun k => k.take 2 == [p, st]) s.row.gateway
                        ltHit := Store.set 0 s.row.ltHit [p, st] 0
                        ltInhibit := Store.set 0 s.row.ltInhibit [p, st] 0 }

/-- The lookup results `L` of the stage (R542). -/
def lookupOf (s : State) (p st : Nat) : Lookup :=
  let rows := List.range s.params.numRows
  { matchBus := rows.map (fun r => (List.range s.params.numMatchBuses).map (fun b =>
      s.bus .matchBus [p, st, r, b]))
    tindBus := rows.map (fun r => (List.range s.params.numTindBuses).map (fun b =>
      s.bus .tindBus [p, st, r, b]))
    matchHit := rows.map (fun r => (List.range s.params.numMatchBuses).map (fun b =>
      busHitAddr s .matchBus [p, st, r, b]))
    tindHit := rows.map (fun r => (List.range s.params.numTindBuses).map (fun b =>
      busHitAddr s .tindBus [p, st, r, b]))
    gateway := rows.map (fun r => Store.get .notRun s.row.gateway [p, st, r])
    ltHit := Store.get 0 s.row.ltHit [p, st]
    ltInhibit := Store.get 0 s.row.ltInhibit [p, st] }

/-- `ALU_ROW[kind][a]` (R8, R543). -/
def aluRowOf (params : Params) (kind : AluKind) (a : Nat) : Nat :=
  match Store.get 0 params.aluRow [kind.ctorIdx, a] with
  | 0 => a
  | r + 1 => r

/-- Step 5: `d[a]`, the input data of an ALU (R176, R540). -/
def aluInput (s : State) (p st : Nat) (kind : AluKind) (a : Nat) : Word :=
  aluDataOf s p st (aluRowOf s.params kind a) a

/-- A raw stateful or selector address (R106, R120): `none` is a clear enable bit. -/
def maParse (w : Nat) : Except Refusal (Option (Nat × MaFields)) :=
  if !wordBit w 31 then .ok none
  else if w / 2 ^ 29 % 4 ≠ 0 then .error .reservedBits
  else if w / 2 ^ 24 % 8 < 4 then .ok (some (w / 2 ^ 24 % 8, maFields w))
  else .error .reservedCode

/-- A parsed address, or the refusal of the ALU that receives it (R541). -/
def receive (raw : BitVec 32) : M (Option (Nat × MaFields)) := fun s =>
  match maParse raw.toNat with
  | .ok v => .ok v s
  | .error r => .error (.refuse r) s

/-- Step 6, counter `c`: the request of the address distribution (R340). -/
def ctrDispatch (p st c : Nat) (req : CtrReq) (raw : BitVec 32) : M (BitVec 32) :=
  match req with
  | .none => pure raw
  | .push => do
    let q ← ctrRequest p st c false
    pure (withPointer raw q)
  | .pop => do
    let q ← ctrRequest p st c true
    pure (withPointer raw q)

/-- Step 7, selector ALU `a` (R238, R543). -/
def runSelector (p st a : Nat) (raw : BitVec 32) : M AluOut := do
  let ma ← receive raw
  match ma with
  | none => pure .none
  | some (op, f) =>
    if op = 2 then do
      let s ← look id
      selRun p st a f (aluInput s p st .sel a) s.act.io.t
    else if op = 3 then maRead p st .sel a f
    else pure .none

/-- Step 7, the raw compares of stateful ALU `a` (R274): (false, false) when it does not execute, an address with a
reserved bit among these (DESIGN CHOICE, log entry 55). -/
def rawOfAddress (s : State) (p st a : Nat) (raw : BitVec 32) : Bool × Bool :=
  match maParse raw.toNat with
  | .ok (some (1, f)) => rawCompares s p st a f (aluInput s p st .salu a) s.act.io.t
  | _ => (false, false)

/-- Step 7, stateful ALU `a` (R252, R543). -/
def runStateful (p st a : Nat) (raws : List (Bool × Bool)) (raw : BitVec 32) : M AluOut := do
  let ma ← receive raw
  match ma with
  | none => pure .none
  | some (op, f) =>
    if op = 1 then do
      let s ← look id
      let sb := sbusOf s p st a raws
      saluExecute p st a f (aluInput s p st .salu a) s.act.io.t sb.1 sb.2
    else if op = 3 then maRead p st .salu a f
    else pure .none

/-- The stats ALU counts at tEOP time: some bus takes its address at header time (R540 step 7). -/
def countsAtTeop (s : State) (p st a : Nat) : Bool :=
  (List.range s.params.numTeopBuses).any (fun b => s.inSet .busHdrStats [p, st, b] a)

/-- Step 7, stats ALU `a` (R540): executed, or its address put on the tEOP buses, where the reserved bit of the address
is not tested until an ALU executes it (DESIGN CHOICE, log entry 70). -/
def runStats (p st a lt : Nat) (raw : BitVec 24) : M AluOut := do
  let s ← look id
  if !raw.getLsbD 23 then pure .none
  else if countsAtTeop s p st a then do
    outputAddr p st lt a (BitVec.ofNat 32 raw.toNat) true
    pure .none
  else statsAddress p st a raw s.act.io.byteLen

/-- Every raw compare of the stage, before any stateful ALU writes (R274). -/
def allRaws (s : State) (p st : Nat) (mas : List (BitVec 32)) : List (Bool × Bool) :=
  (List.range s.params.numSalu).map (fun a => rawOfAddress s p st a (mas.getD a 0))

/-- Steps 5 to 7: addresses, counter requests, ALUs (R540, R541, R543). A meter address that is there is enabled, whatever
its bits (DESIGN CHOICE, log entry 75). -/
def runAlus (p st : Nat) (A : AddrOut) : M AluOuts := do
  let params ← look (fun s => s.params)
  let mas ← collect (List.range (max params.numSalu params.numCtrs)) (fun c =>
    if c < params.numCtrs then ctrDispatch p st c (A.ctrOp.getD c .none) (A.ma.getD c 0)
    else pure (A.ma.getD c 0))
  let selOut ← collect (List.range params.numSelAlu) (fun a => runSelector p st a (A.selMa.getD a 0))
  let raws ← look (fun s => allRaws s p st mas)
  let saluOut ← collect (List.range params.numSalu) (fun a => runStateful p st a raws (mas.getD a 0))
  let statsOut ← collect (List.range params.numStatsAlu) (fun a =>
    runStats p st a (A.saLt.getD a 0) (A.sa.getD a 0))
  if A.me.any Option.isSome then refuse .meterNotSupplied
  else pure { sel := selOut, salu := saluOut, stats := statsOut }

/-- `stage_cycle(p, s, phv, io)` (R540), on the PHV and the I/O object of the activation. The mark `inCycle` is set
from its begin to its end (R473). The counters of steps 2 and 6 go in increasing order (DESIGN CHOICE, log entry 68). -/
def stageCycle (p st : Nat) : M Unit := do
  change (fun s => s.setAct { s.act with inCycle := true })
  change (cleanStage p st)
  let s ← look id
  forEach (List.range s.params.numCtrs) (fun c => continueClearTill p st c s.act.io.t)
  change (snapshotStep p st)
  forEach (List.range s.params.numRows) (runRow p st)
  let s ← look id
  let L := lookupOf s p st
  let A := addrFn s.params p st s.act.phv L
  let outs ← runAlus p st A
  consumeAll p st
  let phv' := phvNormal s.params (actionFn s.params st s.act.phv L outs)
  change (finalizeSnapshot p st A.nextTable)
  change (fun s => s.setAct { s.act with phv := phv', inCycle := false })

/-! ### The meaning -/

/-- R540. -/
def execStageCycle (p st : Nat) (s : State) : Host.Outcome State Fault Refusal :=
  outcome (do
    let s ← look id
    if stageExists s.params p st then do
      stageCycle p st
      pure .none
    else refuse .noSuchUnit) s

end Sys2Proof.Machine
end

