-- ==== Sys2Proof/Machine/Coordinator.lean ====
section
/-! DEFINITION. The packet coordinator (`49_coordinator.md`): packet ingress, claiming a pipe, the two
activations, release, waiting, idle and stop, and packet egress. -/

namespace Sys2Proof.Machine

/-! ### Port functions (R457) -/

def pipeOfPort (p : Params) (port : Nat) : Nat :=
  match Store.get 0 p.pipeOfPort [port] with
  | 0 => port / 128
  | q + 1 => q

def portMapOutbound (p : Params) (port : Nat) : Nat :=
  match Store.get 0 p.portMap [port] with
  | 0 => port
  | q + 1 => q

def isPciePort (p : Params) (port : Nat) : Bool := p.pciePorts.contains port

/-! ### Ownership (R24, R449) -/

/-- The host has handed the packet over, or never had it. -/
def isTaken (s : State) (id : Nat) : Bool := s.coord.taken.contains id

/-- The identity leaves the host's hands. -/
def takeId (id : Nat) (s : State) : State :=
  s.setCoord { s.coord with taken := s.coord.taken ++ [id], nextId := max s.coord.nextId (id + 1) }

/-- A fresh identity. -/
def freshId : M Nat := do
  let id ← look (fun s => s.coord.nextId)
  change (takeId id)
  pure id

/-! ### Notification (R448, R452) -/

/-- The workers in `WAITING` that are not notified yet. -/
def waiters (s : State) : List Nat :=
  (List.range s.params.numWorkers).filter (fun w =>
    (s.worker w).wstate == .waiting && !(s.worker w).notified)

def notifyWorker (w : Nat) (s : State) : State := s.putWorker w { s.worker w with notified := true }

/-- "notify one waiter": which one of several is open (DESIGN CHOICE, log entry 32). -/
def notifyOne : M Unit := do
  let ws ← look waiters
  match ws with
  | [] => pure ()
  | [w] => change (notifyWorker w)
  | _ => do
    let n ← drawIndex
    change (notifyWorker (ws.getD (Config.waiter n % ws.length) 0))

/-- `packet_arrived()` (R448). -/
def packetArrived : M Unit := do
  change (fun s => s.setCoord { s.coord with pending := s.coord.pending + 1 })
  notifyOne

/-- `packets_processed(n)` (R448). With `n` above the count it leaves 0 (DESIGN CHOICE, log entry 65). -/
def packetsProcessed (n : Nat) (s : State) : State :=
  s.setCoord { s.coord with pending := s.coord.pending - n }

/-! ### Queues (R52) -/

def pushRx (p : Nat) (pkt : Packet) (s : State) : State :=
  s.putPipe p { s.pipe p with qRx := (s.pipe p).qRx ++ [pkt] }

def pushPgen (p : Nat) (pkt : Packet) (s : State) : State :=
  s.putPipe p { s.pipe p with qPgen := (s.pipe p).qPgen ++ [pkt] }

def pushTm (p : Nat) (pkt : Packet) (s : State) : State :=
  s.putPipe p { s.pipe p with qTm := (s.pipe p).qTm ++ [pkt] }

/-- `ENQUEUE_FROM_TM` of a packet the caller holds (R436). -/
def enqueueTm (pipe : Nat) (pkt : Packet) : M Unit := do
  let n ← look (fun s => s.params.numPipes)
  if pipe < n then do
    change (pushTm pipe { pkt with pipe := pipe, kind := .fromTm })
    packetArrived
  else raise none (.pipeRange pkt.port pipe)

/-! ### Claiming a pipe (R438 to R440) -/

/-- `select_input(p)` (R440). -/
def selectInput (p : Nat) : M (Option Packet) := do
  let q ← look (fun s => s.pipe p)
  if q.rr then
    match q.qPgen, q.qRx with
    | pkt :: rest, _ => do
      change (fun s => s.putPipe p { s.pipe p with qPgen := rest, rr := false })
      pure (some pkt)
    | [], pkt :: rest => do
      change (fun s => s.putPipe p { s.pipe p with qRx := rest })
      pure (some pkt)
    | [], [] => pure none
  else
    match q.qRx, q.qPgen with
    | pkt :: rest, _ => do
      change (fun s => s.putPipe p { s.pipe p with qRx := rest, rr := true })
      pure (some pkt)
    | [], pkt :: rest => do
      change (fun s => s.putPipe p { s.pipe p with qPgen := rest })
      pure (some pkt)
    | [], [] => pure none

/-- The head of `q_tm[p]`, removed. -/
def takeTm (p : Nat) : M (Option Packet) := do
  let q ← look (fun s => s.pipe p)
  match q.qTm with
  | [] => pure none
  | pkt :: rest => do
    change (fun s => s.putPipe p { s.pipe p with qTm := rest })
    pure (some pkt)

/-- The pipe has no queued packet. -/
def noWork (q : PipeState) : Bool := q.qRx.isEmpty && q.qPgen.isEmpty && q.qTm.isEmpty

/-- `dequeue(p)` (R439). -/
def dequeue (p : Nat) : M (Option Held) := do
  let q ← look (fun s => s.pipe p)
  if q.active || noWork q then pure none
  else do
    change (fun s => s.putPipe p { s.pipe p with active := true })
    let inPkt ← selectInput p
    let separate ← look (fun s => s.params.processGressesSeparately)
    if separate && inPkt.isSome then pure (some { pipe := p, inPkt := inPkt, tmPkt := none })
    else do
      let tmPkt ← takeTm p
      pure (some { pipe := p, inPkt := inPkt, tmPkt := tmPkt })

/-- The scan of R438 over the pipes in their order. -/
def scanPipes (w : Nat) : List Nat → M Unit
  | [] => change (fun s =>
      let s := s.putWorker w { s.worker w with wstate := .waiting, notified := false }
      s.setCoord { s.coord with threadsWaiting := s.coord.threadsWaiting + 1 })
  | p :: ps => do
    let r ← dequeue p
    match r with
    | some h => change (fun s =>
        s.putWorker w { s.worker w with held := some h, lastPipe := p, wstate := .processing })
    | none => scanPipes w ps

/-- The scan order: just after the last pipe the worker processed (R438). -/
def scanOrder (numPipes lastPipe : Nat) : List Nat :=
  (List.range numPipes).map (fun k => (lastPipe + (k + 1)) % numPipes)

/-- `worker_scan(w)` (R438); nothing where it is not enabled. -/
def workerScan (w : Nat) : M Unit := do
  let s ← look id
  if (s.worker w).wstate = .scanning then
    if s.coord.run then scanPipes w (scanOrder s.params.numPipes (s.worker w).lastPipe)
    else change (fun s => s.putWorker w { s.worker w with wstate := .stopped })
  else pure ()

/-! ### Egress (R456) -/

/-- The record a transmission appends. -/
def txRecord (p : Params) (pkt : Packet) : TxRec :=
  if isPciePort p pkt.port then
    .druRx p.chipId (pkt.bytes.take (pkt.bytes.length - 4)) (pkt.bytes.length - 4)
      ((pkt.bytes.headD 0).setWidth 3)
  else .tx p.chipId (portMapOutbound p pkt.port) pkt.bytes pkt.bytes.length

/-- `transmit(pkt)` (R456). -/
def transmit (pkt : Packet) (s : State) : State :=
  s.setCoord { s.coord with txOut := s.coord.txOut ++ [txRecord s.params pkt] }

/-! ### Processing (R441 to R446) -/

/-- The I/O object at injection (R445). -/
def injectedIo (gress : Gress) (t len : Nat) : IoObj :=
  { gress := gress, t := t, snapTriggered := false, pktVersion := 0,
    threadActive := BitVec.ofNat 3 (2 ^ gressBit gress), byteLen := len, buses := [] }

/-- "A bus that no stage consumes is dropped at the end of the pipe" (R390). -/
def dropBuses (s : State) : State := s.setIo { s.act.io with buses := [] }

/-- `mau_walk(p, gress, phv, pkt)` (R445, R446): injection after `g` idle cycles, then every stage. -/
def mauWalk (p : Nat) (gress : Gress) (phv : Phv) (pkt : Packet) : M Phv := do
  let n ← drawIndex
  let g := Config.idleGap n
  change (fun s =>
    let c := (s.pipe p).cycle
    let s := s.setAct { s.act with io := injectedIo gress (c + g) pkt.bytes.length, phv := phv }
    s.putPipe p { s.pipe p with cycle := c + g + 1 })
  let stages ← look (fun s => s.params.numStages)
  forEach (List.range stages) (stageCycle p)
  change dropBuses
  look (fun s => s.act.phv)

/-- The packet after an activation's walk: `Parse`, `mau_walk`, `Deparse` (R442, R443). -/
def walkPacket (p : Nat) (gress : Gress) (pkt : Packet) : M Packet := do
  let params ← look (fun s => s.params)
  let phv ← mauWalk p gress (phvNormal params (parseFn params pkt.bytes pkt.port)) pkt
  pure { pkt with bytes := deparseFn params phv pkt.bytes }

/-- The packets `TmFn` returns: "a fresh packet (replication) or `pkt` itself, each at most once" (R442)
(DESIGN CHOICE, log entry 31). -/
def dispatchTm (pkt : Packet) : Bool → List TmOut → M Unit
  | _, [] => pure ()
  | used, o :: os => do
    let id ← (if o.same && !used then pure pkt.id else freshId)
    enqueueTm o.pipe { pkt with bytes := o.bytes, port := o.port, id := id }
    dispatchTm pkt (used || o.same) os

/-- `ingress_activation(p, pkt)` (R442). -/
def ingressActivation (p : Nat) (pkt : Packet) : M Unit := do
  let params ← look (fun s => s.params)
  let pkt' ← walkPacket p .ingress pkt
  dispatchTm pkt' false (tmFn params pkt')

/-- `egress_activation(p, pkt)` (R443). -/
def egressActivation (p : Nat) (pkt : Packet) : M Unit := do
  let pkt' ← walkPacket p .egress pkt
  change (transmit pkt')

/-- `release(w, p, n)` (R447). -/
def release (w p n : Nat) (s : State) : State :=
  let s := s.putPipe p { s.pipe p with active := false }
  let s := packetsProcessed n s
  s.putWorker w { s.worker w with held := none, wstate := .scanning }

/-- The rails of an activation (R441): the input packet, then the TM packet. -/
def processHeld (p : Nat) (h : Held) : M Nat := do
  let n ← (match h.inPkt with
    | none => pure 0
    | some pkt => do
      ingressActivation p pkt
      pure 1)
  match h.tmPkt with
  | none => pure n
  | some pkt => do
    if pkt.kind = .resubmit then ingressActivation p pkt else egressActivation p pkt
    pure (n + 1)

/-- `worker_process(w)` (R441); nothing where it is not enabled. -/
def workerProcess (w : Nat) : M Unit := do
  let s ← look id
  match (s.worker w).wstate, (s.worker w).held with
  | .processing, some h => do
    let n ← processHeld h.pipe h
    change (release w h.pipe n)
  | _, _ => pure ()

/-! ### Waiting, idle, stop (R452 to R455) -/

/-- `worker_wake(w)` is enabled (R452) (DEDUCED, log entry 41). -/
def canWake (s : State) (w : Nat) : Bool :=
  (s.worker w).wstate == .waiting && ((s.worker w).notified || !s.coord.run || w == 0)

/-- `worker_wake(w)` (R452); nothing where it is not enabled. -/
def workerWake (w : Nat) (s : State) : State :=
  if canWake s w then
    let s := s.putWorker w { s.worker w with wstate := .scanning, notified := false }
    s.setCoord { s.coord with threadsWaiting := s.coord.threadsWaiting - 1 }
  else s

/-- The condition of `WAIT_FOR_IDLE` (R453). -/
def isIdle (s : State) : Bool :=
  s.coord.threadsWaiting == s.params.numWorkers && s.coord.pending == 0 && s.params.preFifoEmpty

/-- One more evaluation by the `k`-th blocked `WAIT_FOR_IDLE` (R453): at most `WAIT_IDLE_BOUND` failed
re-evaluations; one more raises (DESIGN CHOICE, log entry 33). -/
def waitPoll (k : Nat) : M Ret := do
  let s ← look id
  match s.coord.idleWaits[k]? with
  | none => pure .none
  | some n =>
    if isIdle s then do
      change (fun s => s.setCoord { s.coord with idleWaits := s.coord.idleWaits.eraseIdx k })
      pure .none
    else if n < s.params.waitIdleBound then do
      change (fun s => s.setCoord { s.coord with idleWaits := s.coord.idleWaits.set k (n + 1) })
      pure .blocked
    else do
      raise none (.waitIdleBound s.params.waitIdleBound)
      change (fun s => s.setCoord { s.coord with idleWaits := s.coord.idleWaits.eraseIdx k })
      pure .none

/-- Every worker is stopped: the join of R455. -/
def allStopped (s : State) : Bool :=
  (List.range s.params.numWorkers).all (fun w => (s.worker w).wstate == .stopped)

/-- "notify every WAITING worker" (R455). -/
def notifyAll (s : State) : State := (waiters s).foldl (fun s w => notifyWorker w s) s

/-- One round of the loop of `STOP` (R455), for every `STOP` that has not returned (DESIGN CHOICE, log entry 33). -/
def stopPoll : M Ret := do
  let s ← look id
  if s.coord.stopping then do
    change notifyAll
    if allStopped s then do
      change (fun s => s.setCoord { s.coord with stopping := false })
      pure .none
    else pure .blocked
  else pure .none

/-- Worker `w` after `START` (R437). -/
def startWorker (s : State) (w : Nat) : State :=
  if (s.worker w).wstate = .stopped then s.putWorker w { s.worker w with wstate := .scanning } else s

/-! ### The meanings: host commands (R433 to R437, R453, R455) -/

/-- R433. -/
def execEnqueue (port : Nat) (bytes : List Byte) (s : State) : Host.Outcome State Fault Refusal :=
  outcome (do
    let s ← look id
    let p := pipeOfPort s.params port
    if p < s.params.numPipes then do
      let id ← freshId
      change (pushRx p { bytes := bytes, port := port, pipe := p, kind := .rx, id := id })
      packetArrived
    else raise none (.pipeRange port p)
    pure .none) s

/-- A command that is handed a packet (R449): refused where the host does not own it; the identity
leaves the host's hands (DEDUCED, log entry 30). -/
def handOver (pkt : Packet) (p : Nat) (push : State → State) : M Ret := do
  let s ← look id
  if isTaken s pkt.id then refuse .packetNotOwned
  else do
    if p < s.params.numPipes then do
      change (takeId pkt.id)
      change push
      packetArrived
    else do
      raise none (.pipeRange pkt.port p)
      change (takeId pkt.id)
    pure .none

/-- R434. -/
def execEnqueuePkt (port : Nat) (pkt : Packet) (pgen : Bool) (s : State) :
    Host.Outcome State Fault Refusal :=
  outcome (do
    let s ← look id
    let p := pipeOfPort s.params port
    if pgen then
      let pkt := { pkt with port := port, pipe := p, kind := .pgen }
      handOver pkt p (pushPgen p pkt)
    else
      let pkt := { pkt with port := port, pipe := p, kind := .rx }
      handOver pkt p (pushRx p pkt)) s

/-- R435 (DEDUCED, log entry 30). -/
def execEnqueueResubmit (pkt : Packet) (s : State) : Host.Outcome State Fault Refusal :=
  outcome (do
    let s ← look id
    let p := pipeOfPort s.params pkt.port
    let pkt := { pkt with pipe := p, kind := .resubmit }
    handOver pkt p (pushTm p pkt)) s

/-- R436. -/
def execEnqueueFromTm (pkt : Packet) (pipe : Nat) (s : State) : Host.Outcome State Fault Refusal :=
  outcome (do
    let pkt := { pkt with pipe := pipe, kind := .fromTm }
    handOver pkt pipe (pushTm pipe pkt)) s

/-- R453: returns at once when the condition holds, else blocks. -/
def execWaitForIdle (s : State) : Host.Outcome State Fault Refusal :=
  outcome (do
    let s ← look id
    if isIdle s then pure .none
    else do
      change (fun s => s.setCoord { s.coord with idleWaits := s.coord.idleWaits ++ [0] })
      pure .blocked) s

/-- R455: `run <- false`, the first round of notifications, and the return when every worker is stopped. -/
def execStop (s : State) : Host.Outcome State Fault Refusal :=
  outcome (do
    change (fun s => s.setCoord { s.coord with run := false, stopping := true })
    stopPoll) s

/-- R437. -/
def execStart (s : State) : Host.Outcome State Fault Refusal :=
  outcome (do
    change (fun s => s.setCoord { s.coord with run := true })
    change (fun s => (List.range s.params.numWorkers).foldl startWorker s)
    pure .none) s

/-! ### The meanings: the coordinator's own operations -/

/-- The worker exists; an operation on another is refused. -/
def onWorker {α : Type} (w : Nat) (f : M α) : M α := do
  let n ← look (fun s => s.params.numWorkers)
  if w < n then f else refuse .noSuchUnit

/-- The pipe exists; an operation on another is refused. -/
def onPipe {α : Type} (p : Nat) (f : M α) : M α := do
  let n ← look (fun s => s.params.numPipes)
  if p < n then f else refuse .noSuchUnit

/-- R438. -/
def execCoordWorkerScan (w : Nat) (s : State) : Host.Outcome State Fault Refusal :=
  outcome (onWorker w (do
    workerScan w
    pure .none)) s

/-- R439. Alone, the claimed packets are in the answer only (DESIGN CHOICE, log entry 73). -/
def execCoordDequeue (p : Nat) (s : State) : Host.Outcome State Fault Refusal :=
  outcome (onPipe p (do
    let h ← dequeue p
    pure (.claimed h))) s

/-- R440. Alone, the chosen packet is in the answer only (DESIGN CHOICE, log entry 73). -/
def execCoordSelectInput (p : Nat) (s : State) : Host.Outcome State Fault Refusal :=
  outcome (onPipe p (do
    let pkt ← selectInput p
    pure (.packet pkt))) s

/-- R441. -/
def execCoordWorkerProcess (w : Nat) (s : State) : Host.Outcome State Fault Refusal :=
  outcome (onWorker w (do
    workerProcess w
    pure .none)) s

/-- R442. Alone, it runs on the packet it is given, held or not (DESIGN CHOICE, log entry 66). -/
def execCoordIngressActivation (p : Nat) (pkt : Packet) (s : State) :
    Host.Outcome State Fault Refusal :=
  outcome (onPipe p (do
    ingressActivation p pkt
    pure .none)) s

/-- R443. Alone, it runs on the packet it is given, held or not (DESIGN CHOICE, log entry 66). -/
def execCoordEgressActivation (p : Nat) (pkt : Packet) (s : State) :
    Host.Outcome State Fault Refusal :=
  outcome (onPipe p (do
    egressActivation p pkt
    pure .none)) s

/-- R447. -/
def execCoordRelease (w p n : Nat) (s : State) : Host.Outcome State Fault Refusal :=
  outcome (onWorker w (onPipe p (do
    change (release w p n)
    pure .none))) s

/-- R448. -/
def execCoordPacketArrived (s : State) : Host.Outcome State Fault Refusal :=
  outcome (do
    packetArrived
    pure .none) s

/-- R452. -/
def execCoordWaitForPackets (w : Nat) (s : State) : Host.Outcome State Fault Refusal :=
  outcome (onWorker w (do
    change (workerWake w)
    pure .none)) s

/-- R456. Alone, it sends the packet it is given, held or not (DESIGN CHOICE, log entry 66). -/
def execCoordTransmit (pkt : Packet) (s : State) : Host.Outcome State Fault Refusal :=
  outcome (do
    change (transmit pkt)
    pure .none) s

end Sys2Proof.Machine
end

