-- ==== Sys2Proof/Machine/Sweeper.lean ====
section
/-! DEFINITION. The sweeper (`48_sweeper.md`): table controls, the two queues, beginning and finishing an
operation, interval masks and the timer. -/

namespace Sys2Proof.Machine

/-! ### Table controls (R395 to R404) -/

/-- The table exists. -/
def tableInRange (p : Params) (t : TableId) : Bool := stageExists p t.pipe t.stage && t.lt < p.numLt

/-- `inc_lock` (R398). -/
def lockedCtl (c : TableOpCtl) : TableOpCtl :=
  if c.lockCount = 0 then
    let e : BitVec 8 := if c.lastEpoch = 255 then 1 else c.lastEpoch + 1
    { c with lockCount := 1, epoch := e, lastEpoch := e }
  else { c with lockCount := c.lockCount + 1 }

/-- `dec_lock` of a locked control (R400). -/
def unlockedCtl (c : TableOpCtl) : TableOpCtl :=
  if c.lockCount = 1 then { c with lockCount := 0, epoch := 0 }
  else { c with lockCount := c.lockCount - 1 }

/-- `inc_lock(ctl)` (R398). -/
def incLock (t : TableId) (a : AType) (s : State) : State := s.putCtl t a (lockedCtl (s.ctl t a))

/-- `dec_lock(ctl)` (R400): at count 0 `ERR_LOCK_UNDERFLOW`, and nothing when relaxed. -/
def decLock (t : TableId) (a : AType) : M Unit := do
  let s ← look id
  if (s.ctl t a).lockCount = 0 then raise (some (t.pipe, t.stage)) (.lockUnderflow t a)
  else change (fun s => s.putCtl t a (unlockedCtl (s.ctl t a)))

/-- `op_start(ctl)` (R403). -/
def opStart (t : TableId) (a : AType) (s : State) : State :=
  s.putCtl t a { s.ctl t a with running := (s.ctl t a).running + 1 }

/-- `op_stop(ctl)` (R403); the waiters re-evaluate when they step. Alone with nothing running it leaves the count
at 0, since `running >= 0` (R396) (DESIGN CHOICE, log entry 62). -/
def opStop (t : TableId) (a : AType) (s : State) : State :=
  s.putCtl t a { s.ctl t a with running := (s.ctl t a).running - 1 }

/-- `stale(op)` (R401). -/
def stale (s : State) (op : Op) : Bool := op.epoch != (s.ctl op.table op.atype).epoch

/-! ### Interval masks (R417) -/

/-- Every (lt, atype) of a stage. -/
def tableSlots (p : Params) : List (Nat × AType) :=
  (List.range p.numLt).flatMap (fun lt => [(lt, .idle), (lt, .stats)])

/-- The table has an active sweep of interval code `i`. -/
def sweepsAt (s : State) (p st lt : Nat) (a : AType) (i : Nat) : Bool :=
  s.flag .sweepActive [p, st, lt, a.ctorIdx] && s.field .sweepInterval [p, st, lt, a.ctorIdx] == i

/-- The interval code that an active table contributes to its stage's mask. -/
def slotMask (s : State) (p st : Nat) (x : Nat × AType) : BitVec 32 :=
  if s.flag .sweepActive [p, st, x.1, x.2.ctorIdx] then
    BitVec.ofNat 32 (2 ^ s.field .sweepInterval [p, st, x.1, x.2.ctorIdx])
  else 0

/-- `interval_mask_stage[st]` as a function of the configuration. -/
def stageMask (s : State) (st : Nat) : BitVec 32 :=
  ((List.range s.params.numPipes).flatMap (fun p => (tableSlots s.params).map (slotMask s p st))).foldl
    (· ||| ·) 0

/-- `interval_mask_global`. -/
def globalMask (s : State) : BitVec 32 :=
  ((List.range s.params.numStages).map (stageMask s)).foldl (· ||| ·) 0

/-- The masks recomputed (R416, R417). -/
def recomputeMasks (s : State) : State :=
  s.setSwp { s.swp with
    maskGlobal := globalMask s
    maskStage := (List.range s.params.numStages).foldl
      (fun m st => Store.set 0 m [st] (stageMask s st)) [] }

/-! ### The work of the operations (R411 to R414) -/

/-- The table's stats ALU (R39); a number that is no stats ALU is refused where it is read (U5). -/
def tableStatsAlu (t : TableId) : M (Option Nat) := do
  let s ← look id
  match s.optField .ltStatsAlu [t.pipe, t.stage, t.lt] with
  | none => pure none
  | some a => if a < s.params.numStatsAlu then pure (some a) else refuse (.illegalConfig .ltStatsAlu)

/-- Every `(word, k)` of a stats RAM, in increasing order (R411). -/
def allEntries (words n : Nat) : List (Nat × Nat) :=
  (List.range words).flatMap (fun w => (List.range n).map (fun k => (w, k)))

/-- A function of every sub-entry of a table's stats ALU; an invalid format raises
`ERR_STATS_BAD_FORMAT` (R411, R412). -/
def overEntries (t : TableId) (f : Nat → Nat → Nat → M Unit) : M Unit := do
  let a ← tableStatsAlu t
  match a with
  | none => pure ()
  | some a => do
    let s ← look id
    let fmt := s.field .statsFormat [t.pipe, t.stage, a]
    let n := (statsFormatAt s.params fmt).nEntries
    if n = 0 then raise (some (t.pipe, t.stage)) (.statsBadFormat fmt)
    else forEach (allEntries s.params.statsRamWords n) (fun e => f a e.1 e.2)

/-- The entry of a word operation: `arg[19:0] = {word, subword}`, the other bits 0 (R413) (DEDUCED, log
entry 27). -/
def entryArg (op : Op) : M (Nat × Nat) :=
  if op.arg.toNat / 2 ^ 20 = 0 then pure (op.arg.toNat / 8, op.arg.toNat % 8) else refuse .reservedBits

/-- The work of an operation; with address type `IDLE` it is not supplied (R411 to R414) (DEDUCED, log
entry 40). A word operation on a table without a stats ALU does nothing, as `SWEEP` and `DUMP` do (DESIGN CHOICE,
log entry 61). -/
def work (op : Op) : M Unit :=
  match op.atype with
  | .idle => refuse .idleSweepNotSupplied
  | .stats =>
    let t := op.table
    match op.opcode with
    | .sweep => overEntries t (fun a w k => sweepEntry t.pipe t.stage a w k)
    | .dump => overEntries t (fun a w k => do
        let e ← dumpEntry t.pipe t.stage a w k
        match e with
        | none => pure ()
        | some ew => change (fun s => s.emit (.dumpRec t (w * 8 + k) ew)))
    | .dumpWord => do
        let wk ← entryArg op
        let a ← tableStatsAlu t
        match a with
        | none => pure ()
        | some a => do
          let e ← dumpEntry t.pipe t.stage a wk.1 wk.2
          match e with
          | none => pure ()
          | some ew => change (fun s => s.emit (.dumpRec t op.arg.toNat ew))
    | .evictWord => do
        let wk ← entryArg op
        let a ← tableStatsAlu t
        match a with
        | none => pure ()
        | some a => do
          let e ← evictEntry t.pipe t.stage a wk.1 wk.2
          match e with
          | none => pure ()
          | some ew => change (fun s => s.emit (.evictRec t op.arg.toNat ew))
    | .intervalSet | .lock | .unlock | .barrier => pure ()

/-! ### Beginning, finishing, completing -/

/-- The bits of `INTERVAL_SET`'s argument that must be 0: all but `arg[4:0]` and `arg[8]` (R416) (DEDUCED,
log entry 27). -/
def intervalArgOk (arg : BitVec 64) : Bool := arg &&& ~~~(0x11F#64) == 0#64

/-- `INTERVAL_SET` (R416). -/
def intervalSet (op : Op) : M Unit :=
  if intervalArgOk op.arg then
    change (fun s =>
      let k := [op.table.pipe, op.table.stage, op.table.lt, op.atype.ctorIdx]
      recomputeMasks ((s.putField .sweepInterval k (op.arg.toNat % 32)).putField .sweepActive k
        (op.arg.toNat / 256 % 2)))
  else refuse .reservedBits

/-- Beginning an operation that has left its queue (R409, R410, R415, R416); a stale work operation is
discarded. An operation equal to one already in flight is a second entry (DESIGN CHOICE, log entry 74). -/
def beginOp (op : Op) : M Unit :=
  match op.opcode with
  | .intervalSet => intervalSet op
  | .lock => change (fun s =>
      let s := incLock op.table op.atype s
      s.setSwp { s.swp with lockWaiting := s.swp.lockWaiting ++ [op] })
  | .unlock => do
      decLock op.table op.atype
      change (fun s => s.emit (.unlockAck op.table op.atype))
  | .barrier => change (fun s => s.emit (.barrierAck op.arg))
  | .sweep | .dump | .dumpWord | .evictWord => do
      let s ← look id
      if stale s op then pure ()
      else change (fun s =>
        let s := opStart op.table op.atype s
        s.setSwp { s.swp with inFlight := s.swp.inFlight ++ [op] })

/-- `finish_work(op)` (R409): an operation that has become stale since it was begun "is dropped", and does no
work (R479) (DEDUCED, log entry 58). Of equal operations in flight one leaves (DESIGN CHOICE, log entry 74). -/
def finishWork (op : Op) : M Unit := do
  let s ← look id
  if stale s op then pure () else work op
  change (fun s => opStop op.table op.atype
    (s.setSwp { s.swp with inFlight := s.swp.inFlight.erase op }))

/-- `complete LOCK(op)`: enabled iff `running = 0` (R402, R410). -/
def completeLock (op : Op) (s : State) : State :=
  if (s.ctl op.table op.atype).running = 0 then
    (s.setSwp { s.swp with lockWaiting := s.swp.lockWaiting.erase op }).emit
      (.lockAck op.table op.atype (s.ctl op.table op.atype).epoch)
  else s

/-- The sweeper may begin this operation: nothing waits in `lock_wait`, and a barrier finds nothing in
flight (R406, R415). A barrier of `ops_hi` does not wait for `ops_lo`, as R415 says (DEDUCED, log entry 48). -/
def canBegin (s : State) (op : Op) : Bool :=
  s.swp.lockWaiting.isEmpty && (op.opcode != .barrier || s.swp.inFlight.isEmpty)

/-- The sweeper begins the head of `ops_hi`, else the head of `ops_lo` (R406). -/
def sweeperBegin : M Unit := do
  let s ← look id
  match s.swp.opsHi, s.swp.opsLo with
  | op :: rest, _ =>
    if canBegin s op then do
      change (fun s => s.setSwp { s.swp with opsHi := rest })
      beginOp op
    else pure ()
  | [], op :: rest =>
    if canBegin s op then do
      change (fun s => s.setSwp { s.swp with opsLo := rest })
      beginOp op
    else pure ()
  | [], [] => pure ()

/-- Finishing the `k`-th operation in flight (R409: "any order among in_flight"). -/
def sweeperFinish (k : Nat) : M Unit := do
  let s ← look id
  match s.swp.inFlight[k]? with
  | some op => finishWork op
  | none => pure ()

/-- Completing the `k`-th operation inside `lock_wait` (R410). -/
def lockComplete (k : Nat) : M Unit := do
  let s ← look id
  match s.swp.lockWaiting[k]? with
  | some op => change (completeLock op)
  | none => pure ()

/-! ### The timer (R419) -/

/-- The sweeps that a tick creates. -/
def tickOps (s : State) (tick : Nat) : List Op :=
  ((List.range 32).filter (fun i => s.swp.maskGlobal.getLsbD i && tick % 2 ^ i == 0)).flatMap (fun i =>
    ((List.range s.params.numStages).filter (fun st => (Store.get 0 s.swp.maskStage [st]).getLsbD i)).flatMap
      (fun st => (List.range s.params.numPipes).flatMap (fun p =>
        ((tableSlots s.params).filter (fun x => sweepsAt s p st x.1 x.2 i)).map (fun x =>
          let t : TableId := { pipe := p, stage := st, lt := x.1 }
          { table := t, atype := x.2, opcode := .sweep, arg := 0, epoch := (s.ctl t x.2).epoch }))))

/-- `timer_tick()` (R419). -/
def timerTick (s : State) : State :=
  s.setSwp { s.swp with tick := s.swp.tick + 1, opsLo := s.swp.opsLo ++ tickOps s (s.swp.tick + 1) }

/-! ### The meanings -/

/-- The operation an `OP` word encodes (R116). -/
def opOfFields (opcode : OpCode) (o : OpFields) : Op :=
  { table := { pipe := o.pipe.toNat, stage := o.stage.toNat, lt := o.lt.toNat }, atype := o.atype,
    opcode := opcode, arg := o.arg, epoch := o.epoch }

/-- One step of the sweeper on this operation: finished if it is in flight, completed if it is inside
`lock_wait`, begun if it may begin, else put at the head of `ops_hi` (R406, R409, R410) (DESIGN CHOICE, log
entry 25). A table out of range raises as in R407 (DESIGN CHOICE, log entry 67). -/
def opStep (op : Op) : M Unit := do
  let s ← look id
  if !tableInRange s.params op.table then
    raise (some (op.table.pipe, op.table.stage)) (.tableRange op.table)
  else if s.swp.inFlight.contains op then finishWork op
  else if s.swp.lockWaiting.contains op then change (completeLock op)
  else if canBegin s op then beginOp op
  else change (fun s => s.setSwp { s.swp with opsHi := op :: s.swp.opsHi })

/-- An `OP` row. -/
def opRow (opcode : OpCode) (o : OpFields) : M Ret := do
  opStep (opOfFields opcode o)
  pure .none

/-- R416. -/
def execIntervalSet (o : OpFields) (s : State) : Host.Outcome State Fault Refusal :=
  outcome (opRow .intervalSet o) s

/-- R410. -/
def execLock (o : OpFields) (s : State) : Host.Outcome State Fault Refusal :=
  outcome (opRow .lock o) s

/-- R410. -/
def execUnlock (o : OpFields) (s : State) : Host.Outcome State Fault Refusal :=
  outcome (opRow .unlock o) s

/-- R411. -/
def execSweep (o : OpFields) (s : State) : Host.Outcome State Fault Refusal :=
  outcome (opRow .sweep o) s

/-- R412. -/
def execDump (o : OpFields) (s : State) : Host.Outcome State Fault Refusal :=
  outcome (opRow .dump o) s

/-- R413. -/
def execDumpWord (o : OpFields) (s : State) : Host.Outcome State Fault Refusal :=
  outcome (opRow .dumpWord o) s

/-- R414. -/
def execEvictWord (o : OpFields) (s : State) : Host.Outcome State Fault Refusal :=
  outcome (opRow .evictWord o) s

/-- R415. -/
def execBarrier (o : OpFields) (s : State) : Host.Outcome State Fault Refusal :=
  outcome (opRow .barrier o) s

/-- `opcode` of an `OP` record (R116); 8 to 15 are reserved. -/
def opCodeOf (code : BitVec 4) : Option OpCode :=
  match code.toNat with
  | 0 => some .intervalSet
  | 1 => some .lock
  | 2 => some .unlock
  | 3 => some .sweep
  | 4 => some .dump
  | 5 => some .dumpWord
  | 6 => some .evictWord
  | 7 => some .barrier
  | _ => none

/-- Append to one of the two queues (R407). -/
def enqueueOp (q : QueueSel) (op : Op) (s : State) : State :=
  match q with
  | .hi => s.setSwp { s.swp with opsHi := s.swp.opsHi ++ [op] }
  | .lo => s.setSwp { s.swp with opsLo := s.swp.opsLo ++ [op] }

/-- R407: the epoch is captured at creation. A table out of range records the table and, relaxed, makes no operation
(DESIGN CHOICE, log entry 67). -/
def execOpCreate (opcode : BitVec 4) (atype : AType) (table : TableId) (arg : BitVec 64)
    (queue : QueueSel) (s : State) : Host.Outcome State Fault Refusal :=
  outcome (do
    let s ← look id
    match opCodeOf opcode with
    | none => refuse .reservedCode
    | some oc => do
      if tableInRange s.params table then
        change (enqueueOp queue
          { table := table, atype := atype, opcode := oc, arg := arg, epoch := (s.ctl table atype).epoch })
      else raise (some (table.pipe, table.stage)) (.tableRange table)
      pure .none) s

/-- The table exists; an operation on another is refused. -/
def onTable (t : TableId) (f : M Ret) : M Ret := do
  let s ← look id
  if tableInRange s.params t then f else refuse .noSuchUnit

/-- R398. -/
def execSwpIncLock (t : TableId) (a : AType) (s : State) : Host.Outcome State Fault Refusal :=
  outcome (onTable t (do
    change (incLock t a)
    pure .none)) s

/-- R400. -/
def execSwpDecLock (t : TableId) (a : AType) (s : State) : Host.Outcome State Fault Refusal :=
  outcome (onTable t (do
    decLock t a
    pure .none)) s

/-- R402: returns when `running = 0`, else the caller is still suspended. -/
def execSwpLockWait (t : TableId) (a : AType) (s : State) : Host.Outcome State Fault Refusal :=
  outcome (onTable t (look (fun s => if (s.ctl t a).running = 0 then .none else .blocked))) s

/-- R403. -/
def execSwpOpStartStop (t : TableId) (a : AType) (starts : Bool) (s : State) :
    Host.Outcome State Fault Refusal :=
  outcome (onTable t (do
    change (if starts then opStart t a else opStop t a)
    pure .none)) s

/-- R404. -/
def execSwpIsLockedElseOpStart (t : TableId) (a : AType) (s : State) :
    Host.Outcome State Fault Refusal :=
  outcome (onTable t (do
    let s ← look id
    if 0 < (s.ctl t a).lockCount then pure (.bool true)
    else do
      change (opStart t a)
      pure (.bool false))) s

/-- R419. -/
def execSwpTimerTick (s : State) : Host.Outcome State Fault Refusal :=
  outcome (do
    change timerTick
    pure .none) s

end Sys2Proof.Machine
end

