-- ==== Sys2Proof/Machine/HostCmd.lean ====
section
/-! DEFINITION. The host's configuration interface (`60_exceptions.md` rules R485, R486), its RAM accesses
(R71), the drain of the evict stash (R202), the interrupt acknowledge (R495), and the fault entry as
an operation (R490). -/

namespace Sys2Proof.Machine

/-! ### The shape of the configuration store (R32 to R39, R58) -/

/-- The widths of the 64-bit parts of an `n`-bit field, part 0 least significant (R485). -/
def partsOf (n : Nat) : List Nat :=
  List.replicate (n / 64) 64 ++ (if n % 64 = 0 then [] else [n % 64])

/-- A row's index. -/
def rowIdx (p : Params) (pi st r : Nat) : Bool := stageExists p pi st && r < p.numRows

/-- The part widths of a configuration field at its indices; `none` where the name or an index does not
exist (R476). An option and a set of meter ALUs take one 64-bit part (DESIGN CHOICE, log entry 12). -/
def fieldParts (p : Params) (name : FieldName) (idx : List Nat) : Option (List Nat) :=
  match name, idx with
  | .colMode, [pi, st, r, c] => if rowIdx p pi st r && c < numCols then some [2] else none
  | .colLogicalRow, [pi, st, r, c] => if rowIdx p pi st r && c < numCols then some [1] else none
  | .colLt, [pi, st, r, c] => if rowIdx p pi st r && c < numCols then some [4] else none
  | .colMatchBus, [pi, st, r, c] => if rowIdx p pi st r && c < numCols then some [1] else none
  | .colTindBus, [pi, st, r, c] => if rowIdx p pi st r && c < numCols then some [1] else none
  | .emKeyMask, [pi, st, r, c] => if rowIdx p pi st r && c < numCols then some [64, 64] else none
  | .emValidEn, [pi, st, r, c] => if rowIdx p pi st r && c < numCols then some [1] else none
  | .emValidBit, [pi, st, r, c] => if rowIdx p pi st r && c < numCols then some [7] else none
  | .emOutOff, [pi, st, r, c] => if rowIdx p pi st r && c < numCols then some [7] else none
  | .tindOutOff, [pi, st, r, c] => if rowIdx p pi st r && c < numCols then some [7] else none
  | .gwEnable, [pi, st, r] => if rowIdx p pi st r then some [1] else none
  | .aluDataHashEn, [pi, st, r] => if rowIdx p pi st r then some [1] else none
  | .aluDataPhvEn, [pi, st, r] => if rowIdx p pi st r then some [1] else none
  | .gwLt, [pi, st, r] => if rowIdx p pi st r then some [4] else none
  | .statsFormat, [pi, st, a] => if stageExists p pi st && a < p.numStatsAlu then some [5] else none
  | .byteAdjust, [pi, st, a] => if stageExists p pi st && a < p.numStatsAlu then some [14] else none
  | .lrtEnable, [pi, st, a] => if stageExists p pi st && a < p.numStatsAlu then some [1] else none
  | .lrtMultiplier, [pi, st, a] => if stageExists p pi st && a < p.numStatsAlu then some [32] else none
  | .lrtThreshold, [pi, st, a] => if stageExists p pi st && a < p.numStatsAlu then some [64] else none
  | .fullResEnable, [pi, st, a] => if stageExists p pi st && a < p.numStatsAlu then some [1] else none
  | .selMode, [pi, st, a] => if stageExists p pi st && a < p.numSelAlu then some [1] else none
  | .hashEnable, [pi, st, a] => if stageExists p pi st && a < p.numSelAlu then some [3] else none
  | .sboxEnable, [pi, st, a] => if stageExists p pi st && a < p.numSelAlu then some [1] else none
  | .fairBucketSel, [pi, st, a] => if stageExists p pi st && a < p.numSelAlu then some [2] else none
  | .saluInstr, [pi, st, a, k] =>
      if stageExists p pi st && a < p.numSalu && k < 4 then some [64, 64] else none
  | .mmCfg, [pi, st, a] => if stageExists p pi st && a < p.numSalu then some [32] else none
  | .sbusComb, [pi, st, a] => if stageExists p pi st && a < p.numSalu then some [1] else none
  | .sbusSrcMask, [pi, st, a] =>
      if stageExists p pi st && a < p.numSalu then some (partsOf p.numSalu) else none
  | .vpnBase, [pi, st, c] => if stageExists p pi st && c < p.numCtrs then some [6] else none
  | .vpnLimit, [pi, st, c] => if stageExists p pi st && c < p.numCtrs then some [6] else none
  | .ctrShift, [pi, st, c] => if stageExists p pi st && c < p.numCtrs then some [3] else none
  | .ctrDiscipline, [pi, st, c] => if stageExists p pi st && c < p.numCtrs then some [1] else none
  | .wmEnable, [pi, st, c] => if stageExists p pi st && c < p.numCtrs then some [1] else none
  | .wmCountPops, [pi, st, c] => if stageExists p pi st && c < p.numCtrs then some [1] else none
  | .wmThreshold, [pi, st, c] => if stageExists p pi st && c < p.numCtrs then some [16] else none
  | .syncClear, [pi, st] => if stageExists p pi st then some [1] else none
  | .snapMatch, [pi, st, g, i] =>
      if stageExists p pi st && g < 2 && i < phvCount p then some [phvWidth p i, phvWidth p i] else none
  | .snapTimeEnable, [pi, st, g] => if stageExists p pi st && g < 2 then some [1] else none
  | .snapTimeTrigger, [pi, st, g] => if stageExists p pi st && g < 2 then some [48] else none
  | .snapCaptureSel, [pi, st, g, i] =>
      if stageExists p pi st && g < 2 && i < phvCount p then some [1] else none
  | .ltMeterAlu, [pi, st, lt] => if stageExists p pi st && lt < p.numLt then some [64] else none
  | .ltStatsAlu, [pi, st, lt] => if stageExists p pi st && lt < p.numLt then some [64] else none
  | .ltMatchDependent, [pi, st, lt] => if stageExists p pi st && lt < p.numLt then some [1] else none
  | .busHdrMeter, [pi, st, b] => if stageExists p pi st && b < p.numTeopBuses then some [64] else none
  | .busHdrStats, [pi, st, b] =>
      if stageExists p pi st && b < p.numTeopBuses then some (partsOf p.numStatsAlu) else none
  | .busTeopMeter, [pi, st, b] => if stageExists p pi st && b < p.numTeopBuses then some [64] else none
  | .busTeopStats, [pi, st, b] =>
      if stageExists p pi st && b < p.numTeopBuses then some (partsOf p.numStatsAlu) else none
  | .teopDelayCfg, [pi, st, b] => if stageExists p pi st && b < p.numTeopBuses then some [8] else none
  | .sweepInterval, [pi, st, lt, a] =>
      if stageExists p pi st && lt < p.numLt && a < 2 then some [5] else none
  | .sweepActive, [pi, st, lt, a] =>
      if stageExists p pi st && lt < p.numLt && a < 2 then some [1] else none
  | .tcamEntryValid, [pi, st, e] => if stageExists p pi st && e < p.numTcam then some [1] else none
  | .tcamEntryLt, [pi, st, e] => if stageExists p pi st && e < p.numTcam then some [4] else none
  | _, _ => none

/-- The field belongs to R38, whose writes invalidate the bus-mask caches (R92, R485). -/
def isTeopField : FieldName → Bool
  | .ltMeterAlu | .ltStatsAlu | .ltMatchDependent | .busHdrMeter | .busHdrStats | .busTeopMeter
  | .busTeopStats | .teopDelayCfg => true
  | _ => false

/-- The field feeds the interval masks (R39, R417). -/
def isSweepField : FieldName → Bool
  | .sweepInterval | .sweepActive => true
  | _ => false

/-- The bus-mask caches of a stage set to `none` (R92). -/
def invalidateCaches (idx : List Nat) (s : State) : State :=
  s.setTeop { hdr := Store.dropWhere (fun k => k.take 2 == idx.take 2) s.teop.hdr
              teop := Store.dropWhere (fun k => k.take 2 == idx.take 2) s.teop.teop }

/-- The observers of a field (R485) (DEDUCED, log entry 28). -/
def observers (name : FieldName) (idx : List Nat) (s : State) : State :=
  if isTeopField name then invalidateCaches idx s
  else if isSweepField name then recomputeMasks s
  else s

/-! ### Host-writable state beside configuration (R203, R485) -/

/-- The counter named by `idx`, when it exists. -/
def ctrIdx (p : Params) (idx : List Nat) : Option (Nat × Nat × Nat) :=
  match idx with
  | [pi, st, c] => if stageExists p pi st && c < p.numCtrs then some (pi, st, c) else none
  | _ => none

/-- The shadow pair named by `idx`, when it exists: a word of the RAM and a subword of three bits (DESIGN CHOICE, log
entry 63). -/
def shadowIdx (p : Params) (idx : List Nat) : Option (Nat × Nat × Nat × Nat × Nat) :=
  match idx with
  | [pi, st, a, w, k] =>
    if stageExists p pi st && a < p.numStatsAlu && w < p.statsRamWords && k < 8 then some (pi, st, a, w, k)
    else none
  | _ => none

/-- A counter with one field written; flag bits 7:4 stay zero (R46), a pointer has 23 bits (R331) and keeps its low
`ctr_shift` bits as written (R485) (DEDUCED, log entry 44). -/
def writeCounter (name : FieldName) (v : BitVec 64) (c : Counter) : Option Counter :=
  match name with
  | .ctrFlags => some { c with flags := v.setWidth 8 &&& 0x0F#8 }
  | .ctrValue => some { c with value := v.toNat % 2 ^ 23 }
  | .ctrPopValue => some { c with popValue := v.toNat % 2 ^ 23 }
  | .ctrFill => some { c with fill := v.toNat }
  | _ => none

/-- A shadow pair with one field written. -/
def writeShadow (name : FieldName) (v : BitVec 64) (x : ShadowPair) : Option ShadowPair :=
  match name with
  | .shadowPkts => some { x with pkts := v }
  | .shadowBytes => some { x with bytes := v }
  | _ => none

/-- A write of host-writable state; `none` where the item or an index does not exist. -/
def writeState (s : State) (name : FieldName) (idx : List Nat) (v : BitVec 64) : Option State :=
  match ctrIdx s.params idx, shadowIdx s.params idx with
  | some (p, st, c), _ => (writeCounter name v (s.counter p st c)).map (s.putCounter p st c)
  | none, some (p, st, a, w, k) => (writeShadow name v (s.shadow p st a w k)).map (s.putShadow p st a w k)
  | none, none => none

/-! ### `SET_FIELD` (R485) -/

/-- The written part of a field's value. -/
def setPart (old part width : Nat) (v : BitVec 64) : Nat :=
  old - (old / 2 ^ (64 * part) % 2 ^ 64) * 2 ^ (64 * part) + (v.toNat % 2 ^ width) * 2 ^ (64 * part)

/-- A write of a configuration field and its observers. -/
def writeField (name : FieldName) (idx : List Nat) (part width : Nat) (v : BitVec 64) (s : State) : State :=
  observers name idx (s.putField name idx (setPart (s.field name idx) part width v))

/-- `SET_FIELD` as a function: `none` is `BF_HW_COMM_FAIL` (R476). -/
def setFieldOp (s : State) (name : FieldName) (idx : List Nat) (part : Nat) (v : BitVec 64) : Option State :=
  match fieldParts s.params name idx with
  | some parts =>
    match parts[part]? with
    | some width => some (writeField name idx part width v s)
    | none => none
  | none => if part = 0 then writeState s name idx v else none

/-! ### `GET_FIELD` (R485) -/

/-- A counter's readable field. -/
def readCounter (name : FieldName) (c : Counter) : Option (BitVec 64) :=
  match name with
  | .ctrFlags => some (c.flags.setWidth 64)
  | .ctrValue => some (BitVec.ofNat 64 c.value)
  | .ctrPopValue => some (BitVec.ofNat 64 c.popValue)
  | .ctrFill => some (BitVec.ofNat 64 c.fill)
  | _ => none

/-- A shadow pair's readable field. -/
def readShadow (name : FieldName) (x : ShadowPair) : Option (BitVec 64) :=
  match name with
  | .shadowPkts => some x.pkts
  | .shadowBytes => some x.bytes
  | _ => none

/-- A capture register or the state of a snapshot unit (R374, R47). -/
def readSnap (params : Params) (name : FieldName) (u : SnapUnit) (rest : List Nat) (part : Nat) :
    Option (BitVec 64) :=
  match name, rest with
  | .snapState, [] => if part = 0 then some (BitVec.ofNat 64 u.state.ctorIdx) else none
  | .dpPktVersion, [] => if part = 0 then some (u.dpVersion.setWidth 64) else none
  | .dpThreadActive, [] => if part = 0 then some (u.dpThreadActive.setWidth 64) else none
  | .dpGhost, [] => if part = 0 then some (BitVec.ofNat 64 u.dpGhost.toNat) else none
  | .capNextTable, [] => if part = 0 then some (u.capNextTable.setWidth 64) else none
  | .capBusHitAddr, [r, b] =>
    if part = 0 ∧ r < params.numRows ∧ b < params.numMatchBuses then
      some ((Store.get 0 u.capBusHit [r, b]).setWidth 64)
    else none
  | .capLtHit, [] =>
    if part < (partsOf params.numLt).length then some (BitVec.ofNat 64 (u.capLtHit / 2 ^ (64 * part)))
    else none
  | .capLtInhibit, [] =>
    if part < (partsOf params.numLt).length then some (BitVec.ofNat 64 (u.capLtInhibit / 2 ^ (64 * part)))
    else none
  | .capPhv, [i] =>
    if part = 0 ∧ i < phvCount params then some (BitVec.ofNat 64 (Store.get 0 u.capPhv [i])) else none
  | _, _ => none

/-- The gress of an index. -/
def gressOf : Nat → Option Gress
  | 0 => some .ingress
  | 1 => some .egress
  | _ => none

/-- A read of state beside configuration; `none` where the item or an index does not exist. -/
def readState (s : State) (name : FieldName) (idx : List Nat) (part : Nat) : Option (BitVec 64) :=
  match idx with
  | pi :: st :: g :: rest =>
    let snap := match gressOf g with
      | some gress =>
        if stageExists s.params pi st then readSnap s.params name (s.snapUnit pi st gress) rest part
        else none
      | none => none
    match snap with
    | some v => some v
    | none =>
      if part ≠ 0 then none
      else match ctrIdx s.params idx, shadowIdx s.params idx with
        | some (p, st, c), _ => readCounter name (s.counter p st c)
        | none, some (p, st, a, w, k) => readShadow name (s.shadow p st a w k)
        | none, none => none
  | _ => none

/-- A configuration field's part, zero-extended to 64 bits. -/
def readField (s : State) (name : FieldName) (idx : List Nat) (part : Nat) : Option (BitVec 64) :=
  match fieldParts s.params name idx with
  | some parts =>
    if part < parts.length then some (BitVec.ofNat 64 (s.field name idx / 2 ^ (64 * part))) else none
  | none => readState s name idx part

/-- `GET_FIELD` as a function: the set of pending interrupts and the error log are read whole (R490, R494), a form that
R485 does not give (DESIGN CHOICE, log entry 69). -/
def getFieldOp (s : State) (name : FieldName) (idx : List Nat) (part : Nat) : Ret :=
  match name, idx, part with
  | .irqPending, [], 0 => .irqs s.err.irq
  | .errorLog, [], 0 => .errors s.err.log
  | _, _, _ =>
    match readField s name idx part with
    | some v => .field v
    | none => .commFail name

/-! ### `SET_CONFIG` (R486) -/

/-- The setter of a key of R472. -/
def setStrict (f : Strict) (key : String) (b : Bool) : Option Strict :=
  if key = "RelaxSramVpnCheck" then some { f with sramVpn := b }
  else if key = "RelaxBusOverrideCheck" then some { f with busOverride := b }
  else if key = "RelaxStatsFormatCheck" then some { f with statsFormat := b }
  else if key = "RelaxSelectorCountCheck" then some { f with selectorCount := b }
  else if key = "RelaxSaluCarryCheck" then some { f with saluCarry := b }
  else if key = "RelaxDivideEnableCheck" then some { f with divideEnable := b }
  else if key = "RelaxCounterIndexCheck" then some { f with counterIndex := b }
  else if key = "RelaxTeopCollisionCheck" then some { f with teopCollision := b }
  else if key = "RelaxLockCountCheck" then some { f with lockCount := b }
  else if key = "RelaxWaitIdleCheck" then some { f with waitIdle := b }
  else if key = "STRICT_TEOP_CHECK" then some { f with teopCheck := b }
  else none

/-- `parse_bool(value)`. -/
def parseBool (v : String) : Option Bool :=
  if v = "true" ∨ v = "1" then some true
  else if v = "false" ∨ v = "0" then some false
  else none

/-! ### The meanings -/

/-- R485. -/
def execSetField (name : FieldName) (idx : List Nat) (part : Nat) (value : BitVec 64) (s : State) :
    Host.Outcome State Fault Refusal :=
  outcome (do
    let s ← look id
    match setFieldOp s name idx part value with
    | some s' => do
      change (fun _ => s')
      pure .ok
    | none => pure (.commFail name)) s

/-- R485. -/
def execGetField (name : FieldName) (idx : List Nat) (part : Nat) (s : State) :
    Host.Outcome State Fault Refusal :=
  outcome (look (fun s => getFieldOp s name idx part)) s

/-- R486: both throws are host errors, with no effect on the machine. -/
def execSetConfig (key value : String) (s : State) : Host.Outcome State Fault Refusal :=
  outcome (do
    let s ← look id
    match setStrict s.strict key true with
    | none => pure (.hostError (.unknownConfigKey key))
    | some _ =>
      match parseBool value with
      | none => pure (.hostError (.badConfigValue key value))
      | some b => do
        change (fun s => s.setStrict ((setStrict s.strict key b).getD s.strict))
        pure .none) s

/-- A value of the space's unit, cut to the launch widths. -/
def tcamCut (p : Params) (e : TcamEntry) : TcamEntry :=
  { w0 := e.w0 % 2 ^ p.tcamW, w1 := e.w1 % 2 ^ p.tcamW }

def gwCut (p : Params) (e : GwEntry) : GwEntry :=
  { e with stored := e.stored % 2 ^ p.gwW, m01 := e.m01 % 2 ^ p.gwW, m10 := e.m10 % 2 ^ p.gwW }

/-- The entry is in range, or `ERR_ADDR_RANGE` is raised (R71). -/
def entryInRange (a : RamAddr) : M Bool := do
  let s ← look id
  if ramInRange s.params a then pure true
  else do
    raise (ramPlace a) (.addrRange a)
    pure false

/-- R71: a host write of a RAM word, a TCAM entry or a gateway entry (DESIGN CHOICE, log entry 36). -/
def execRamWrite (addr : RamAddr) (value : RamVal) (s : State) : Host.Outcome State Fault Refusal :=
  outcome (match addr.space, value with
    | .sram, .word w => do
      memWrite addr w
      pure .none
    | .stats, .word w => do
      memWrite addr w
      pure .none
    | .salu, .word w => do
      memWrite addr w
      pure .none
    | .sel, .word w => do
      memWrite addr w
      pure .none
    | .tcam, .tcam e => do
      let ok ← entryInRange addr
      if ok then change (fun s => s.setTcam
        (Store.set {} s.tcam [addr.pipe, addr.stage, addr.index] (tcamCut s.params e)))
      else pure ()
      pure .none
    | .gw, .gw e => do
      let ok ← entryInRange addr
      if ok then change (fun s => s.setGw
        (Store.set {} s.gw [addr.pipe, addr.stage, addr.unit, addr.index] (gwCut s.params e)))
      else pure ()
      pure .none
    | _, _ => refuse .ramUnitMismatch) s

/-- R71: a host read; when relaxed, an address out of range reads 0. -/
def execRamRead (addr : RamAddr) (s : State) : Host.Outcome State Fault Refusal :=
  outcome (match addr.space with
    | .tcam => do
      let ok ← entryInRange addr
      look (fun s => .ram (.tcam (if ok then s.tcamEntry addr.pipe addr.stage addr.index else {})))
    | .gw => do
      let ok ← entryInRange addr
      look (fun s => .ram (.gw (if ok then s.gwEntry addr.pipe addr.stage addr.unit addr.index else {})))
    | .sram | .stats | .salu | .sel => do
      let w ← memRead addr
      pure (.ram (.word w))) s

/-- R202. -/
def execDrainEvict (pipe stage alu : Nat) (s : State) : Host.Outcome State Fault Refusal :=
  outcome (do
    let s ← look id
    if stageExists s.params pipe stage && alu < s.params.numStatsAlu then
      match s.stash pipe stage alu with
      | [] => pure (.evicted none)
      | e :: rest => do
        change (fun s => s.putStash pipe stage alu rest)
        pure (.evicted (some e))
    else refuse .noSuchUnit) s

/-- R495. -/
def execIrqAck (source : IrqSource) (s : State) : Host.Outcome State Fault Refusal :=
  outcome (do
    change (fun s => s.clearIrq source)
    pure .none) s

/-- R490: the fault entry itself (DEDUCED, log entry 45). -/
def execFault (r : ErrRec) (s : State) : Host.Outcome State Fault Refusal :=
  outcome (takeFault r) s

end Sys2Proof.Machine
end

