-- ==== Sys2Proof/Machine/Dispatch.lean ====
section
/-! DEFINITION. One arm per operation of the table, in the table's order: one direct call of its meaning. -/

namespace Sys2Proof.Machine

def exec (i : Instr) (s : State) : Host.Outcome State Fault Refusal :=
  match i with
  | .statsNop a => Sys2Proof.Machine.execStatsNop a s
  | .stats a => Sys2Proof.Machine.execStats a s
  | .cfgRd a => Sys2Proof.Machine.execCfgRd a s
  | .cfgRdclr a => Sys2Proof.Machine.execCfgRdclr a s
  | .statsDisabled rest => Sys2Proof.Machine.execStatsDisabled rest s
  | .maNop a => Sys2Proof.Machine.execMaNop a s
  | .saluExec a => Sys2Proof.Machine.execSaluExec a s
  | .selExec a => Sys2Proof.Machine.execSelExec a s
  | .maCfgRd a => Sys2Proof.Machine.execMaCfgRd a s
  | .maDisabled rest => Sys2Proof.Machine.execMaDisabled rest s
  | .cmpEq c => Sys2Proof.Machine.execCmpEq c s
  | .cmpNe c => Sys2Proof.Machine.execCmpNe c s
  | .cmpDisabled c => Sys2Proof.Machine.execCmpDisabled c s
  | .cmpGtS c => Sys2Proof.Machine.execCmpGtS c s
  | .cmpGeS c => Sys2Proof.Machine.execCmpGeS c s
  | .cmpLtS c => Sys2Proof.Machine.execCmpLtS c s
  | .cmpLeS c => Sys2Proof.Machine.execCmpLeS c s
  | .cmpGtU c => Sys2Proof.Machine.execCmpGtU c s
  | .cmpGeU c => Sys2Proof.Machine.execCmpGeU c s
  | .cmpLtU c => Sys2Proof.Machine.execCmpLtU c s
  | .cmpLeU c => Sys2Proof.Machine.execCmpLeU c s
  | .cmpGtUus c => Sys2Proof.Machine.execCmpGtUus c s
  | .cmpGeUus c => Sys2Proof.Machine.execCmpGeUus c s
  | .cmpLtUus c => Sys2Proof.Machine.execCmpLtUus c s
  | .cmpLeUus c => Sys2Proof.Machine.execCmpLeUus c s
  | .aNop u => Sys2Proof.Machine.execANop u s
  | .aAdd u => Sys2Proof.Machine.execAAdd u s
  | .aSub u => Sys2Proof.Machine.execASub u s
  | .aSubr u => Sys2Proof.Machine.execASubr u s
  | .aSaddu u => Sys2Proof.Machine.execASaddu u s
  | .aSadds u => Sys2Proof.Machine.execASadds u s
  | .aSsubu u => Sys2Proof.Machine.execASsubu u s
  | .aSsubs u => Sys2Proof.Machine.execASsubs u s
  | .aMinu u => Sys2Proof.Machine.execAMinu u s
  | .aMins u => Sys2Proof.Machine.execAMins u s
  | .aMaxu u => Sys2Proof.Machine.execAMaxu u s
  | .aMaxs u => Sys2Proof.Machine.execAMaxs u s
  | .aAddc u => Sys2Proof.Machine.execAAddc u s
  | .aSubc u => Sys2Proof.Machine.execASubc u s
  | .lSetz u => Sys2Proof.Machine.execLSetz u s
  | .lNor u => Sys2Proof.Machine.execLNor u s
  | .lAndca u => Sys2Proof.Machine.execLAndca u s
  | .lNota u => Sys2Proof.Machine.execLNota u s
  | .lAndcb u => Sys2Proof.Machine.execLAndcb u s
  | .lNotb u => Sys2Proof.Machine.execLNotb u s
  | .lXor u => Sys2Proof.Machine.execLXor u s
  | .lNand u => Sys2Proof.Machine.execLNand u s
  | .lAnd u => Sys2Proof.Machine.execLAnd u s
  | .lXnor u => Sys2Proof.Machine.execLXnor u s
  | .lB u => Sys2Proof.Machine.execLB u s
  | .lOrca u => Sys2Proof.Machine.execLOrca u s
  | .lA u => Sys2Proof.Machine.execLA u s
  | .lOrcb u => Sys2Proof.Machine.execLOrcb u s
  | .lOr u => Sys2Proof.Machine.execLOr u s
  | .lSethi u => Sys2Proof.Machine.execLSethi u s
  | .oNone o => Sys2Proof.Machine.execONone o s
  | .oRamLo o => Sys2Proof.Machine.execORamLo o s
  | .oRamHi o => Sys2Proof.Machine.execORamHi o s
  | .oPhvLo o => Sys2Proof.Machine.execOPhvLo o s
  | .oPhvHi o => Sys2Proof.Machine.execOPhvHi o s
  | .oAluLo o => Sys2Proof.Machine.execOAluLo o s
  | .oAluHi o => Sys2Proof.Machine.execOAluHi o s
  | .oPred o => Sys2Proof.Machine.execOPred o s
  | .oDiv o => Sys2Proof.Machine.execODiv o s
  | .oMod o => Sys2Proof.Machine.execOMod o s
  | .oMmValue o => Sys2Proof.Machine.execOMmValue o s
  | .oMmIndex o => Sys2Proof.Machine.execOMmIndex o s
  | .oBitOld o => Sys2Proof.Machine.execOBitOld o s
  | .modeDual m bitOp => Sys2Proof.Machine.execModeDual m bitOp s
  | .bitNop m => Sys2Proof.Machine.execBitNop m s
  | .bitRead m => Sys2Proof.Machine.execBitRead m s
  | .bitReadc m => Sys2Proof.Machine.execBitReadc m s
  | .bitSet m => Sys2Proof.Machine.execBitSet m s
  | .bitSetc m => Sys2Proof.Machine.execBitSetc m s
  | .bitClr m => Sys2Proof.Machine.execBitClr m s
  | .bitClrc m => Sys2Proof.Machine.execBitClrc m s
  | .modeMinmax m bitOp => Sys2Proof.Machine.execModeMinmax m bitOp s
  | .divMod d => Sys2Proof.Machine.execDivMod d s
  | .mmMin m => Sys2Proof.Machine.execMmMin m s
  | .mmMax m => Sys2Proof.Machine.execMmMax m s
  | .intervalSet o => Sys2Proof.Machine.execIntervalSet o s
  | .lock o => Sys2Proof.Machine.execLock o s
  | .unlock o => Sys2Proof.Machine.execUnlock o s
  | .sweep o => Sys2Proof.Machine.execSweep o s
  | .dump o => Sys2Proof.Machine.execDump o s
  | .dumpWord o => Sys2Proof.Machine.execDumpWord o s
  | .evictWord o => Sys2Proof.Machine.execEvictWord o s
  | .barrier o => Sys2Proof.Machine.execBarrier o s
  | .enqueue port bytes => Sys2Proof.Machine.execEnqueue port bytes s
  | .enqueuePkt port pkt pgen => Sys2Proof.Machine.execEnqueuePkt port pkt pgen s
  | .enqueueResubmit pkt => Sys2Proof.Machine.execEnqueueResubmit pkt s
  | .enqueueFromTm pkt pipe => Sys2Proof.Machine.execEnqueueFromTm pkt pipe s
  | .waitForIdle => Sys2Proof.Machine.execWaitForIdle s
  | .stop => Sys2Proof.Machine.execStop s
  | .start => Sys2Proof.Machine.execStart s
  | .setField name idx part value => Sys2Proof.Machine.execSetField name idx part value s
  | .getField name idx part => Sys2Proof.Machine.execGetField name idx part s
  | .setConfig key value => Sys2Proof.Machine.execSetConfig key value s
  | .ramWrite addr value => Sys2Proof.Machine.execRamWrite addr value s
  | .ramRead addr => Sys2Proof.Machine.execRamRead addr s
  | .opCreate opcode atype table arg queue => Sys2Proof.Machine.execOpCreate opcode atype table arg queue s
  | .drainEvict pipe stage alu => Sys2Proof.Machine.execDrainEvict pipe stage alu s
  | .snapSetState pipe stage gress sn => Sys2Proof.Machine.execSnapSetState pipe stage gress sn s
  | .irqAck source => Sys2Proof.Machine.execIrqAck source s
  | .ctrStartClear pipe stage ctr => Sys2Proof.Machine.execCtrStartClear pipe stage ctr s
  | .bvGetWord n v off len => Sys2Proof.Machine.execBvGetWord n v off len s
  | .bvSetWord n v value off len => Sys2Proof.Machine.execBvSetWord n v value off len s
  | .bvFromWords n words => Sys2Proof.Machine.execBvFromWords n words s
  | .bvTcamCompare n w0 w1 s0 s1 => Sys2Proof.Machine.execBvTcamCompare n w0 w1 s0 s1 s
  | .bvSearchEncode n key => Sys2Proof.Machine.execBvSearchEncode n key s
  | .bvMaskedS0q1S1q0Equals n stored query m01 m10 => Sys2Proof.Machine.execBvMaskedS0q1S1q0Equals n stored query m01 m10 s
  | .bvMaskedEquals n v w m => Sys2Proof.Machine.execBvMaskedEquals n v w m s
  | .bvPopcountParity n v => Sys2Proof.Machine.execBvPopcountParity n v s
  | .bvByteShift n v k dir => Sys2Proof.Machine.execBvByteShift n v k dir s
  | .bvExtractInto n src off m => Sys2Proof.Machine.execBvExtractInto n src off m s
  | .bvSetFrom n dst off m src => Sys2Proof.Machine.execBvSetFrom n dst off m src s
  | .rowGetHashIndex col => Sys2Proof.Machine.execRowGetHashIndex col s
  | .rowExactLookup col => Sys2Proof.Machine.execRowExactLookup col s
  | .rowHitAddress => Sys2Proof.Machine.execRowHitAddress s
  | .rowTernaryLookup lt => Sys2Proof.Machine.execRowTernaryLookup lt s
  | .rowTindLookup col => Sys2Proof.Machine.execRowTindLookup col s
  | .rowGatewayLookup => Sys2Proof.Machine.execRowGatewayLookup s
  | .rowSetMatchOutputBus bus output col => Sys2Proof.Machine.execRowSetMatchOutputBus bus output col s
  | .rowSetTindOutputBus bus output col => Sys2Proof.Machine.execRowSetTindOutputBus bus output col s
  | .rowResetResources => Sys2Proof.Machine.execRowResetResources s
  | .rowAluData alu => Sys2Proof.Machine.execRowAluData alu s
  | .statsDumpEntry word subword => Sys2Proof.Machine.execStatsDumpEntry word subword s
  | .statsLrtCheck a pkt byt => Sys2Proof.Machine.execStatsLrtCheck a pkt byt s
  | .selResilient pv hash52 => Sys2Proof.Machine.execSelResilient pv hash52 s
  | .selPlanB pv hash52 => Sys2Proof.Machine.execSelPlanB pv hash52 s
  | .selFair pv hash52 => Sys2Proof.Machine.execSelFair pv hash52 s
  | .ctrPushFifo c => Sys2Proof.Machine.execCtrPushFifo c s
  | .ctrPopFifo c => Sys2Proof.Machine.execCtrPopFifo c s
  | .ctrPushStack c => Sys2Proof.Machine.execCtrPushStack c s
  | .ctrPopStack c => Sys2Proof.Machine.execCtrPopStack c s
  | .ctrWatermark c pop => Sys2Proof.Machine.execCtrWatermark c pop s
  | .ctrStartClearAt c t => Sys2Proof.Machine.execCtrStartClearAt c t s
  | .ctrClearStep c => Sys2Proof.Machine.execCtrClearStep c s
  | .ctrContinueClearTill c tStop => Sys2Proof.Machine.execCtrContinueClearTill c tStop s
  | .ctrMaybeSynchronousClear c => Sys2Proof.Machine.execCtrMaybeSynchronousClear c s
  | .snapStep => Sys2Proof.Machine.execSnapStep s
  | .snapFirstPass => Sys2Proof.Machine.execSnapFirstPass s
  | .snapFinalizeSnapshot nextTable => Sys2Proof.Machine.execSnapFinalizeSnapshot nextTable s
  | .teopBusesAtHdrtime lt => Sys2Proof.Machine.execTeopBusesAtHdrtime lt s
  | .teopBusesAtTeoptime lt => Sys2Proof.Machine.execTeopBusesAtTeoptime lt s
  | .teopDelayRequired lt bus => Sys2Proof.Machine.execTeopDelayRequired lt bus s
  | .teopOutputStatsAddr lt alu addr => Sys2Proof.Machine.execTeopOutputStatsAddr lt alu addr s
  | .teopOutputMeterAddr lt alu addr => Sys2Proof.Machine.execTeopOutputMeterAddr lt alu addr s
  | .teopConsume => Sys2Proof.Machine.execTeopConsume s
  | .swpIncLock t a => Sys2Proof.Machine.execSwpIncLock t a s
  | .swpDecLock t a => Sys2Proof.Machine.execSwpDecLock t a s
  | .swpLockWait t a => Sys2Proof.Machine.execSwpLockWait t a s
  | .swpOpStartStop t a starts => Sys2Proof.Machine.execSwpOpStartStop t a starts s
  | .swpIsLockedElseOpStart t a => Sys2Proof.Machine.execSwpIsLockedElseOpStart t a s
  | .swpTimerTick => Sys2Proof.Machine.execSwpTimerTick s
  | .coordWorkerScan w => Sys2Proof.Machine.execCoordWorkerScan w s
  | .coordDequeue p => Sys2Proof.Machine.execCoordDequeue p s
  | .coordSelectInput p => Sys2Proof.Machine.execCoordSelectInput p s
  | .coordWorkerProcess w => Sys2Proof.Machine.execCoordWorkerProcess w s
  | .coordIngressActivation p pkt => Sys2Proof.Machine.execCoordIngressActivation p pkt s
  | .coordEgressActivation p pkt => Sys2Proof.Machine.execCoordEgressActivation p pkt s
  | .coordRelease w p n => Sys2Proof.Machine.execCoordRelease w p n s
  | .coordPacketArrived => Sys2Proof.Machine.execCoordPacketArrived s
  | .coordWaitForPackets w => Sys2Proof.Machine.execCoordWaitForPackets w s
  | .coordTransmit pkt => Sys2Proof.Machine.execCoordTransmit pkt s
  | .stageCycle p st => Sys2Proof.Machine.execStageCycle p st s
  | .fault r => Sys2Proof.Machine.execFault r s

end Sys2Proof.Machine
end

