-- ==== Sys2Proof/Machine/Rights.lean ====
section
/-! DEFINITION. Who may take a step (R11, R119, R122, R500): "The block has no privilege modes. Rights are by
agent". -/

namespace Sys2Proof.Machine

/-- The right that a step of an operation needs. -/
inductive Right
  | anyone                        -- a pure function, or the trap entry, which touch no agent's state
  | host                          -- a host command (R119, R500)
  | sweeper                       -- a step of the sweeper timer or a part of one (R11, R500)
  | worker                        -- a part of a worker's step (R11)
  | self (w : Nat)                -- a step of worker `w`
  | holder (pipe : Nat)           -- a part of a step of the worker that holds the pipe (R450, R500)
  | release (w pipe : Nat)        -- the release of the pipe by worker `w`, which holds it (R447, R450)
  | arrival                       -- a packet arrives from the host or from `TmFn` (R442, R448)
  | stage                         -- an operation of a unit of the addressed stage (R122)
  | stageOf (pipe stage : Nat)    -- the cycle of a stage (R122, R540)
  | stageOrSweeper                -- a unit's operation that the sweeper path invokes too (R88, R207)
  deriving DecidableEq, Repr

/-- The right that each operation needs (DEDUCED, log entry 47). -/
def rightTo : Instr → Right
  -- host commands (R119)
  | .enqueue _ _ | .enqueuePkt _ _ _ | .enqueueResubmit _ | .enqueueFromTm _ _ | .waitForIdle | .stop
  | .start | .setField _ _ _ _ | .getField _ _ _ | .setConfig _ _ | .ramWrite _ _ | .ramRead _
  | .opCreate _ _ _ _ _ | .drainEvict _ _ _ | .snapSetState _ _ _ _ | .irqAck _ | .ctrStartClear _ _ _ => .host
  -- the sweeper (R116, `48_sweeper.md`)
  | .intervalSet _ | .lock _ | .unlock _ | .sweep _ | .dump _ | .dumpWord _ | .evictWord _ | .barrier _
  | .swpIncLock _ _ | .swpDecLock _ _ | .swpLockWait _ _ | .swpOpStartStop _ _ _
  | .swpIsLockedElseOpStart _ _ | .swpTimerTick => .sweeper
  -- the coordinator (`49_coordinator.md`)
  | .coordWorkerScan w | .coordWorkerProcess w | .coordWaitForPackets w => .self w
  | .coordRelease w p _ => .release w p
  | .coordDequeue _ | .coordTransmit _ => .worker
  | .coordSelectInput p | .coordIngressActivation p _ | .coordEgressActivation p _ => .holder p
  | .coordPacketArrived => .arrival
  -- units of a stage: the formats `SA` and `MA`, the parts of an `SI` word and of `MM`
  | .statsNop _ | .stats _ | .cfgRd _ | .cfgRdclr _ | .statsDisabled _ | .maNop _ | .saluExec _ | .selExec _
  | .maCfgRd _ | .maDisabled _ => .stage
  | .cmpEq _ | .cmpNe _ | .cmpDisabled _ | .cmpGtS _ | .cmpGeS _ | .cmpLtS _ | .cmpLeS _ | .cmpGtU _ | .cmpGeU _
  | .cmpLtU _ | .cmpLeU _ | .cmpGtUus _ | .cmpGeUus _ | .cmpLtUus _ | .cmpLeUus _ => .stage
  | .aNop _ | .aAdd _ | .aSub _ | .aSubr _ | .aSaddu _ | .aSadds _ | .aSsubu _ | .aSsubs _ | .aMinu _ | .aMins _
  | .aMaxu _ | .aMaxs _ | .aAddc _ | .aSubc _ => .stage
  | .lSetz _ | .lNor _ | .lAndca _ | .lNota _ | .lAndcb _ | .lNotb _ | .lXor _ | .lNand _ | .lAnd _ | .lXnor _
  | .lB _ | .lOrca _ | .lA _ | .lOrcb _ | .lOr _ | .lSethi _ => .stage
  | .oNone _ | .oRamLo _ | .oRamHi _ | .oPhvLo _ | .oPhvHi _ | .oAluLo _ | .oAluHi _ | .oPred _ | .oDiv _
  | .oMod _ | .oMmValue _ | .oMmIndex _ | .oBitOld _ => .stage
  | .modeDual _ _ | .bitNop _ | .bitRead _ | .bitReadc _ | .bitSet _ | .bitSetc _ | .bitClr _ | .bitClrc _
  | .modeMinmax _ _ | .divMod _ | .mmMin _ | .mmMax _ => .stage
  -- units of a stage: the rows without a word
  | .rowGetHashIndex _ | .rowExactLookup _ | .rowHitAddress | .rowTernaryLookup _ | .rowTindLookup _
  | .rowGatewayLookup | .rowSetMatchOutputBus _ _ _ | .rowSetTindOutputBus _ _ _ | .rowResetResources
  | .rowAluData _ => .stage
  | .selResilient _ _ | .selPlanB _ _ | .selFair _ _ => .stage
  | .snapStep | .snapFirstPass | .snapFinalizeSnapshot _ => .stage
  | .teopBusesAtHdrtime _ | .teopBusesAtTeoptime _ | .teopDelayRequired _ _ | .teopOutputStatsAddr _ _ _
  | .teopOutputMeterAddr _ _ _ | .teopConsume => .stage
  | .stageCycle p st => .stageOf p st
  -- operations that the sweeper path invokes too (R88, R207)
  | .statsDumpEntry _ _ | .statsLrtCheck _ _ _ => .stageOrSweeper
  | .ctrPushFifo _ | .ctrPopFifo _ | .ctrPushStack _ | .ctrPopStack _ | .ctrWatermark _ _ | .ctrStartClearAt _ _
  | .ctrClearStep _ | .ctrContinueClearTill _ _ | .ctrMaybeSynchronousClear _ => .stageOrSweeper
  -- pure functions (`40_bitvector.md`) and the trap entry (R490)
  | .bvGetWord _ _ _ _ | .bvSetWord _ _ _ _ _ | .bvFromWords _ _ | .bvTcamCompare _ _ _ _ _ | .bvSearchEncode _ _
  | .bvMaskedS0q1S1q0Equals _ _ _ _ _ | .bvMaskedEquals _ _ _ _ | .bvPopcountParity _ _ | .bvByteShift _ _ _ _
  | .bvExtractInto _ _ _ _ | .bvSetFrom _ _ _ _ _ => .anyone
  | .fault _ => .anyone

/-- The stepping agent is one of the `NUM_WORKERS` workers (R11). -/
def isWorker (s : State) : Bool :=
  match s.act.agent with
  | .worker w => w < s.params.numWorkers
  | .host | .sweeper | .unit _ _ => false

/-- The stepping agent is the worker that holds the pipe. -/
def holdsPipe (s : State) (pipe : Nat) : Bool :=
  match s.act.agent with
  | .worker w => w < s.params.numWorkers && (s.worker w).held.any (fun h => h.pipe == pipe)
  | .host | .sweeper | .unit _ _ => false

/-- The stepping agent has the right. -/
def hasRight (s : State) : Right → Bool
  | .anyone => true
  | .host => s.act.agent == .host
  | .sweeper => s.act.agent == .sweeper
  | .worker => isWorker s
  | .self w => isWorker s && s.act.agent == .worker w
  | .holder p => holdsPipe s p
  | .release w p => holdsPipe s p && s.act.agent == .worker w
  | .arrival => s.act.agent == .host || isWorker s
  | .stage => s.act.agent == .unit s.act.site.pipe s.act.site.stage
  | .stageOf p st => s.act.agent == .unit p st
  | .stageOrSweeper => s.act.agent == .unit s.act.site.pipe s.act.site.stage || s.act.agent == .sweeper

/-- The stepping agent may take a step of the operation (R500). -/
def mayTake (s : State) (i : Instr) : Bool := hasRight s (rightTo i)

end Sys2Proof.Machine
end

