-- ==== Sys2Proof/Machine/Fetch.lean ====
section
/-! DEFINITION. What a step runs. The block has "no program counter, no instruction memory and no fetch"
(R26): a step is the next line of the agenda, "each line is one step of one agent" (R122); with no line
laid down, the agents step by themselves in an order the spec leaves open (R11). -/

namespace Sys2Proof.Machine

/-! ### Lines -/

/-- The state in which a line's operation runs: the line leaves the agenda; its agent steps; the unit it
addresses and the inputs it gives are set, the others keep their values (R122) (DESIGN CHOICE, log entry 5). -/
def enterLine (l : Line) (rest : List Line) (s : State) : State :=
  let io := s.act.io
  let io := { io with t := l.time.getD io.t, byteLen := l.pktlen.getD io.byteLen }
  (s.setAgenda rest).setAct { s.act with agent := l.agent, site := l.site.getD s.act.site, io := io,
                                         aluData := l.data.getD s.act.aluData }

/-- The operations a host may still run on a faulted machine (R490). -/
def readsOnly : Instr → Bool
  | .getField _ _ _ => true
  | .ramRead _ => true
  | _ => false

/-- Whether a fault stops an operation: on a faulted machine only a host's reads run (R490). -/
def mayRun (s : State) (i : Instr) : Bool :=
  s.err.faulted.isNone || (s.act.agent == .host && readsOnly i)

/-- An operation in its turn: of an agent that has the right to it (R500). -/
def runInstr (i : Instr) (s : State) : Host.Outcome State Fault Refusal :=
  if !mayRun s i then .fault .machineFaulted
  else if !i.wellFormed then .refused .illFormed
  else if !mayTake s i then .refused .notPermitted
  else exec i s

/-! ### Steps that agents take by themselves -/

/-- The agent of a step of its own. -/
def autoAgent : AutoStep → Agent
  | .workerScan w => .worker w
  | .workerProcess w => .worker w
  | .workerWake w => .worker w
  | .sweeperBegin => .sweeper
  | .sweeperFinish _ => .sweeper
  | .lockComplete _ => .sweeper
  | .timerTick => .sweeper
  | .waitPoll _ => .host
  | .stopPoll => .host

/-- A worker's step; a number that is no worker takes none. -/
def ifWorker (w : Nat) (m : M Unit) : M Ret := do
  let n ← look (fun s => s.params.numWorkers)
  if w < n then do
    m
    pure .none
  else pure .none

/-- What the step does; a step that is not enabled changes nothing. -/
def autoMeaning : AutoStep → M Ret
  | .workerScan w => ifWorker w (workerScan w)
  | .workerProcess w => ifWorker w (workerProcess w)
  | .workerWake w => ifWorker w (change (workerWake w))
  | .sweeperBegin => do
    sweeperBegin
    pure .none
  | .sweeperFinish k => do
    sweeperFinish k
    pure .none
  | .lockComplete k => do
    lockComplete k
    pure .none
  | .timerTick => do
    change timerTick
    pure .none
  | .waitPoll k => waitPoll k
  | .stopPoll => stopPoll

/-- A step of an agent by itself; on a faulted machine no agent steps (R490). -/
def runAuto (a : AutoStep) (s : State) : Host.Outcome State Fault Refusal :=
  if s.err.faulted.isSome then .fault .machineFaulted else outcome (autoMeaning a) s

/-- The agent of a step of its own becomes the stepping agent. -/
def enterAuto (a : AutoStep) (s : State) : State := s.setAct { s.act with agent := autoAgent a }

/-- The line's operation, in the state in which it runs (DESIGN CHOICE, log entry 13). -/
def runBody (b : LineBody) (s : State) : Host.Outcome State Fault Refusal :=
  match b with
  | .instr i => runInstr i s
  | .auto a => runAuto a (enterAuto a s)
  | .coded c =>
    match decode c with
    | .ok i => runInstr i s
    | .error e => .refused (.undecodable e)

/-! ### Laying down a word -/

/-- The agent that takes a step of this format: the host for a command, the sweeper for an `OP` record,
the addressed stage for a unit's word (R122) (DESIGN CHOICE, log entry 6). -/
def formatAgent (s : State) : Format → Agent
  | .hc => .host
  | .op => .sweeper
  | _ => .unit s.act.site.pipe s.act.site.stage

/-- The line that runs a bare word of the opcode table. -/
def wordLine (s : State) (nbits w : Nat) : Line :=
  match tableFormat nbits w with
  | some f => { agent := formatAgent s f, body := .coded { format := f, word := w } }
  | none => { body := .coded { format := .hc, word := 2 ^ 8 } }

end Sys2Proof.Machine
end

