-- ==== Sys2Proof/Machine/Step.lean ====
section
/-! DEFINITION. One step of the block, and laying down the word that the next step runs. -/

namespace Sys2Proof.Machine

/-- One step: the next line of the agenda; with none, the agent that the open schedule names (R11). -/
def step (s : State) : Host.Outcome State Fault Refusal :=
  match s.agenda with
  | l :: rest => runBody l.body (enterLine l rest s)
  | [] => runBody (.auto (Config.schedule s.draws)) (s.setDraws (s.draws + 1))

/-- `s` with this word of the opcode table as the next line, so that the next step runs it. -/
def State.withFetchWord (s : State) (nbits w : Nat) : State :=
  s.setAgenda (wordLine s nbits w :: s.agenda)

end Sys2Proof.Machine
end

