-- ==== Sys2Proof/Safety.lean ====
section
/-! DEFINITION. The terms that claims about the block use: where an operation is addressed, what a step
leaves when it raises, the invariants of the spec, and the configurations under which a unit runs. -/

namespace Sys2Proof.Machine

/-! ### Where an operation is addressed (R122) -/

/-- The current site is this stage of the block. -/
abbrev AtStage (s : State) (p st : Nat) : Prop :=
  s.act.site.pipe = p ∧ s.act.site.stage = st ∧ p < s.params.numPipes ∧ st < s.params.numStages

/-- The current site is this row. -/
abbrev AtRow (s : State) (p st r : Nat) : Prop :=
  AtStage s p st ∧ s.act.site.row = r ∧ r < s.params.numRows

/-- The current site is this stats ALU. -/
abbrev AtStats (s : State) (p st a : Nat) : Prop :=
  AtStage s p st ∧ s.act.site.alu = a ∧ a < s.params.numStatsAlu

/-- The current site is this selector ALU. -/
abbrev AtSel (s : State) (p st a : Nat) : Prop :=
  AtStage s p st ∧ s.act.site.alu = a ∧ a < s.params.numSelAlu

/-- The current site is this stateful ALU. -/
abbrev AtSalu (s : State) (p st a : Nat) : Prop :=
  AtStage s p st ∧ s.act.site.alu = a ∧ a < s.params.numSalu

/-- The table exists. -/
abbrev TableExists (s : State) (t : TableId) : Prop :=
  t.pipe < s.params.numPipes ∧ t.stage < s.params.numStages ∧ t.lt < s.params.numLt

/-- The outcome of an operation that completes in this state. -/
abbrev answers (s : State) : Host.Outcome State Fault Refusal := .next s

/-! ### Errors -/

/-- The state that a raise leaves: logged, and faulted when the error's flag makes it fatal (R473, R490). -/
def State.afterRaise (s : State) (place : Option (Nat × Nat)) (e : Err) : State :=
  let r := errRecord s place e
  if fatal s.strict e then (s.logError r).enterFault r else s.logError r

/-! ### Invariants -/

/-- The word-wide RAM spaces are in canonical form. -/
abbrev MemCanonical (s : State) : Prop := s.mem.wf = true

/-- "`epoch = 0` iff `lock_count = 0`" for every table control (R396). -/
def EpochRule (s : State) : Prop :=
  ∀ (t : TableId) (a : AType), (s.ctl t a).epoch = 0 ↔ (s.ctl t a).lockCount = 0

/-- The interval masks say which intervals have an active table (R417). -/
def MasksHold (s : State) : Prop :=
  (∀ st < s.params.numStages, ∀ i < 32,
    (Store.get 0 s.swp.maskStage [st]).getLsbD i = true ↔
      ∃ p < s.params.numPipes, ∃ lt < s.params.numLt, ∃ a, sweepsAt s p st lt a i = true)
  ∧ ∀ i < 32, s.swp.maskGlobal.getLsbD i = true ↔
      ∃ st < s.params.numStages, (Store.get 0 s.swp.maskStage [st]).getLsbD i = true

/-- "bits 7..4 are zero" of every counter's flag byte (R46). -/
def FlagBytesLegal (s : State) : Prop := ∀ p st c, (s.counter p st c).flags &&& 0xF0#8 = 0#8

/-- The invariants of the block that hold from reset on. -/
def Inv (s : State) : Prop := MemCanonical s ∧ EpochRule s ∧ MasksHold s ∧ FlagBytesLegal s

/-- The machine is not stuck: no fault has been taken (R490). -/
abbrev Running (s : State) : Prop := s.err.faulted = none

/-- The packets a worker holds. -/
def heldPackets : Option Held → List Packet
  | none => []
  | some h => h.inPkt.toList ++ h.tmPkt.toList

/-- The packets inside the block: in the queues of the pipes and in the hands of the workers (R449). -/
def State.livePackets (s : State) : List Packet :=
  (List.range s.params.numPipes).flatMap (fun p => (s.pipe p).qRx ++ (s.pipe p).qPgen ++ (s.pipe p).qTm)
    ++ (List.range s.params.numWorkers).flatMap (fun w => heldPackets (s.worker w).held)

/-- "at most one worker has `held[w] = (p, _)`, and `pipe_active[p]` is true exactly then" (R450); and a worker
holds packets exactly while it processes. -/
def ClaimsExclusive (s : State) : Prop :=
  (∀ p, (s.pipe p).active = true ↔ ∃ w h, (s.worker w).held = some h ∧ h.pipe = p) ∧
  (∀ w w' h h', (s.worker w).held = some h → (s.worker w').held = some h' → h.pipe = h'.pipe → w = w') ∧
  (∀ w, (s.worker w).held ≠ none ↔ (s.worker w).wstate = .processing)

/-- Each packet inside the block is in exactly one place and not in the host's hands (R449). A step that faults
inside an activation keeps the packet it was working on in the worker's hands (R490), so the first clause is
about machines that run. The identities are the model's (log entry 30). -/
def PacketsInOnePlace (s : State) : Prop :=
  (Running s → (s.livePackets.map Packet.id).Nodup) ∧
  (∀ pkt ∈ s.livePackets, pkt.id ∈ s.coord.taken) ∧ ∀ id ∈ s.coord.taken, id < s.coord.nextId

/-- "`num_packets_pending` equals the number of packets in all queues plus those held by workers" (R448). -/
def PendingCounted (s : State) : Prop := s.coord.pending = s.livePackets.length

/-- What the coordinator keeps true between the steps of the agents. -/
def CoordBooks (s : State) : Prop := ClaimsExclusive s ∧ PacketsInOnePlace s ∧ PendingCounted s

/-- The rows that are parts of the coordinator's steps and, taken alone, leave its books open. -/
def opensBooks : Instr → Bool
  | .coordDequeue _ => true
  | .coordSelectInput _ => true
  | .coordIngressActivation _ _ => true
  | .coordRelease _ _ _ => true
  | .coordPacketArrived => true
  | _ => false

/-! ### Stateful ALU -/

/-- The gated result of a compare unit (R273): with `t` the sbus bit after inversion, first the and, then the
or. -/
def gatedBy (c : CmpFields) (raw sbus : Bool) : Bool :=
  let t := sbus != c.sbusInv
  (raw && (!c.sbusAnd || t)) || (c.sbusOr && t)

/-- The state after a compare unit whose raw result is `raw`. -/
def State.compared (s : State) (p st a : Nat) (c : CmpFields) (raw : Bool) : State :=
  let r := s.saluRun p st a
  match c.unit with
  | .zero =>
    (s.putSaluRun p st a { r with raw0 := raw, p0 := gatedBy c raw r.sbus0 }).setResult
      (.bool (gatedBy c raw r.sbus0))
  | .one =>
    (s.putSaluRun p st a { r with raw1 := raw, p1 := gatedBy c raw r.sbus1 }).setResult
      (.bool (gatedBy c raw r.sbus1))

/-- The state after a unit wrote `v` to a half of the execution `r` (R252, R276). -/
def State.halfWritten (s : State) (p st a : Nat) (r : SaluRun) (half : Half) (v : Nat) : State :=
  (s.putSaluRun p st a
    { r with output := wordSet r.output v (match half with | .lo => r.base | .hi => r.base + r.width) r.width
      }).setResult (.nat v)

/-- The predicate `tt[2*p1 + p0]` of the execution (R275). -/
abbrev PredHolds (r : SaluRun) (tt : BitVec 4) : Prop := tt.getLsbD (2 * r.p1.toNat + r.p0.toNat) = true

/-- Two source codes name operands of the execution (R255). -/
abbrev Sources (r : SaluRun) (ca cb : BitVec 3) (x y : Nat) : Prop :=
  operand r ca = some x ∧ operand r cb = some y

/-- The execution after the divide unit of a `MISC` word (R317 to R319): as it was when the unit is not
enabled. -/
def divided (r : SaluRun) (m : MiscFields) (x y : Nat) : SaluRun :=
  if m.divEn then
    { r with divRan := true, quot := dividerOutput (divOperand x) (divOperand y),
             rem := modulusOutput (divOperand x) (divOperand y) }
  else r

/-- The execution with the width of a `MISC` word (R253, R254). -/
def widened (r : SaluRun) (W : Nat) : SaluRun := { r with width := W, base := r.sub / (2 * W) * (2 * W) }

/-- Subword `j` of `sw` bits (R321). -/
def subword (w : Word) (sw j : Nat) : Nat := w.toNat / 2 ^ (sw * j) % 2 ^ sw

/-- Subword `j` takes part (R320). -/
def mmSelected (c : MmFields) (data : Word) (j : Nat) : Bool :=
  decide (j < if c.size16 then 8 else 16)
    && (if c.maskSrc then data.toNat.testBit j else c.constMask.toNat.testBit j)

/-- What the min/max unit answers for a word (R320 to R323): with nothing selected, zeros and the word as
it was; else the best selected value, the subword that the tie policy picks, and that subword after the
post-modification. -/
def MinMaxAnswer (c : MmFields) (isMax : Bool) (data word out : Word) (best j : Nat) : Prop :=
  let sw := if c.size16 then 16 else 8
  let sel := fun i => mmSelected c data i = true
  ((∀ i, ¬ sel i) ∧ best = 0 ∧ j = 0 ∧ out = word) ∨
  (sel j ∧ subword word sw j = best
    ∧ (∀ i, sel i → if isMax then subword word sw i ≤ best else best ≤ subword word sw i)
    ∧ (∀ i, sel i → subword word sw i = best → if c.tieHigh then i ≤ j else j ≤ i)
    ∧ (c.post = 0 → out = word)
    ∧ (c.post ≠ 0 → ∀ i < 16, sw * i < 128 → subword out sw i =
        if i = j then
          (if c.post = 1 then min (best + c.delta.toNat) (2 ^ sw - 1) else best - c.delta.toNat)
        else subword word sw i))

/-- A compare word that runs: no reserved code in what it uses (R120, R257). -/
def cmpWordRuns (w : Nat) : Bool :=
  (cmpOpOf (w % 16)).isSome && (cmpFields .zero w).srcA.toNat < 5 && (cmpFields .zero w).srcB.toNat < 5

/-- A unit word that runs without a carry chain. -/
def auWordRuns (w : Nat) : Bool :=
  (auFields .lo w).srcA.toNat < 5 && (auFields .lo w).srcB.toNat < 5
    && (!wordBit w 4 || (w % 16 < 12))

/-- A `MISC` word that runs, under this `mm_cfg`. -/
def miscWordRuns (instr : Word) (mm : Nat) : Bool :=
  let w := siMisc instr
  let m := miscFields w
  m.width.toNat < 3
    && (!m.divEn || (m.divSrcA.toNat < 5 && m.divSrcB.toNat < 5))
    && (match w % 4 with
      | 0 => auWordRuns (siAluLo instr) && auWordRuns (siAluHi instr)
      | 1 => w / 2 ^ 11 % 8 < 7
      | 2 => mm / 2 ^ 6 % 4 == 0 && (mmFields mm).post.toNat < 3
      | _ => false)

/-- An output word that runs: a divide output only with the divide unit (R319, R326). -/
def outWordRuns (instr : Word) : Bool :=
  siOut instr % 16 < 13
    && ((siOut instr % 16 != 8 && siOut instr % 16 != 9) || (miscFields (siMisc instr)).divEn)

/-- An instruction word that runs to its end: no reserved bit, no reserved code, no carry chain, and the
divide unit enabled where a divide output is selected. -/
def siRuns (instr : Word) (mm : Nat) : Bool :=
  siReservedZero instr && cmpWordRuns (siCmp0 instr) && cmpWordRuns (siCmp1 instr)
    && miscWordRuns instr mm && outWordRuns instr

/-! ### Stats ALU -/

/-- The ALU's format is valid and well-formed (R191, R192), and it has this sub-entry. -/
abbrev FormatHas (f : StatsFormat) (k : Nat) : Prop :=
  k < f.nEntries ∧ f.nEntries * f.stride ≤ 128 ∧ f.pktW + f.byteW ≤ f.stride ∧ f.pktW ≤ 64 ∧ f.byteW ≤ 64

/-- The format configured for a stats ALU. -/
def State.statsFmt (s : State) (p st a : Nat) : StatsFormat :=
  s.params.statsFormats.getD (s.field .statsFormat [p, st, a]) {}

/-- The packet count of a sub-entry (R194): above its byte count. -/
def pktField (f : StatsFormat) (k : Nat) (w : Word) : Nat :=
  w.toNat / 2 ^ (k * f.stride + f.byteW) % 2 ^ f.pktW

/-- The byte count of a sub-entry (R194). -/
def byteField (f : StatsFormat) (k : Nat) (w : Word) : Nat := w.toNat / 2 ^ (k * f.stride) % 2 ^ f.byteW

/-- The sub-entry holds the reserved value (R196). -/
abbrev Reserved (f : StatsFormat) (k : Nat) (w : Word) : Prop :=
  f.onesRsvd = true ∧ pktField f k w = 2 ^ f.pktW - 1 ∧ byteField f k w = 2 ^ f.byteW - 1

/-- `w'` is `w` with these counts in sub-entry `k`, and every bit outside the two fields as it was. -/
def CountsWritten (f : StatsFormat) (k : Nat) (w w' : Word) (pkt byt : Nat) : Prop :=
  pktField f k w' = pkt ∧ byteField f k w' = byt ∧
  ∀ i, (i < k * f.stride ∨ k * f.stride + f.byteW + f.pktW ≤ i) → w'.getLsbD i = w.getLsbD i

/-- `max(0, pktlen + s_14(byte_adjust))` (R198). -/
def State.increment (s : State) (p st a : Nat) : Nat :=
  (max 0 ((s.act.io.byteLen : Int) + signed 14 (s.field .byteAdjust [p, st, a]))).toNat

/-- The LRT test of R200 on a pair of counts that is not the reserved one. -/
abbrev lrtOver (s : State) (p st a : Nat) (f : StatsFormat) (pkt byt : Nat) : Prop :=
  s.flag .lrtEnable [p, st, a] = true
    ∧ ¬ (f.onesRsvd = true ∧ pkt = 2 ^ f.pktW - 1 ∧ byt = 2 ^ f.byteW - 1)
    ∧ s.field .lrtThreshold [p, st, a] <
      (if 0 < f.byteW then byt else pkt) * s.field .lrtMultiplier [p, st, a]

/-- The state with the shadow pair of a sub-entry counted, when the ALU keeps one (R203). -/
def State.shadowed (s : State) (p st a word k inc : Nat) : State :=
  if s.flag .fullResEnable [p, st, a] then
    s.putShadow p st a word k { pkts := (s.shadow p st a word k).pkts + 1,
                                bytes := (s.shadow p st a word k).bytes + BitVec.ofNat 64 inc }
  else s

/-! ### Lookups -/

/-- The entry takes part in lookups of the table and accepts every bit of its key: `w1` accepts a one, `w0`
a zero (R145, R166). -/
def TcamAccepts (s : State) (p st lt e : Nat) : Prop :=
  s.flag .tcamEntryValid [p, st, e] = true ∧ s.field .tcamEntryLt [p, st, e] = lt ∧
  ∀ i < s.params.tcamW,
    if (tcamKey s.params p st lt s.act.phv).testBit i then (s.tcamEntry p st e).w1.testBit i = true
    else (s.tcamEntry p st e).w0.testBit i = true

/-- Every valid ternary entry names a logical table of the stage (R58). -/
def TcamTablesLegal (s : State) (p st : Nat) : Prop :=
  ∀ e < s.params.numTcam, s.flag .tcamEntryValid [p, st, e] = true →
    s.field .tcamEntryLt [p, st, e] < s.params.numLt

/-- Entry `e` is the answer of a ternary lookup: the highest that accepts (R166). -/
def TernaryWinner (s : State) (p st lt e : Nat) : Prop :=
  e < s.params.numTcam ∧ TcamAccepts s p st lt e ∧
    ∀ e' < s.params.numTcam, TcamAccepts s p st lt e' → e' ≤ e

/-- The gateway entry is valid and accepts the row's query (R147, R169). -/
def GatewayAccepts (s : State) (p st r e : Nat) : Prop :=
  let g := s.gwEntry p st r e
  let q := gwKey s.params p st r s.act.phv
  g.valid = true ∧ ∀ i < s.params.gwW,
    (g.m01.testBit i = true → q.testBit i = true → g.stored.testBit i = true) ∧
    (g.m10.testBit i = true → g.stored.testBit i = true → q.testBit i = true)

/-- The write of a column's output to a match bus, or to a tind bus. -/
def busInstr : BusKind → Nat → Nat → Nat → Instr
  | .matchBus => .rowSetMatchOutputBus
  | .tindBus => .rowSetTindOutputBus

/-! ### Selector ALU -/

/-- How many members of the word are live. -/
def liveCount (pv : Word) : Nat := (List.range 128).countP (fun m => pv.getLsbD m)

/-- The modulus of R227, under either reading of `SEL_MOD_DEF`. -/
def State.selModulus (s : State) (pv : Word) : Nat :=
  match s.params.selModDef with
  | .liveCount => liveCount pv
  | .msbPlus1 => if pv = 0 then 0 else 1 + Nat.log2 pv.toNat

/-- Bucket `k` of a 52-bit hash, scrambled when the configuration says so (R224, R225). -/
def hashBucket (s : State) (p st a h k : Nat) : Nat :=
  let raw := h / 2 ^ (14 * k) % 2 ^ 14
  if s.flag .sboxEnable [p, st, a] then s.params.sbox14.getD raw raw % 2 ^ 14 else raw

/-- The answer of fair mode (R233): `0xFF` with no live member, else the live member whose rank is the
configured bucket modulo the number of live members. -/
def FairAnswer (s : State) (p st a : Nat) (pv : Word) (h m : Nat) : Prop :=
  (pv = 0 → m = 255) ∧
  (pv ≠ 0 → pv.getLsbD m = true ∧ (List.range m).countP (fun i => pv.getLsbD i)
    = hashBucket s p st a h (s.field .fairBucketSel [p, st, a]) % liveCount pv)

/-! ### Counters -/

/-- `wm_count` after a push or a pop (R342). -/
def State.watermarked (s : State) (p st c : Nat) (pop : Bool) : Nat :=
  let n := (s.counter p st c).wmCount
  if s.flag .wmEnable [p, st, c] = true ∧ s.flag .wmCountPops [p, st, c] = pop then
    (if s.field .wmThreshold [p, st, c] * 128 ≤ n + 1 then 0 else n + 1)
  else n

/-- The bounds and the capacity of a counter, from its configuration (R332). -/
def State.minValue (s : State) (p st c : Nat) : Nat := s.field .vpnBase [p, st, c] * 2 ^ 17
def State.unitBits (s : State) (p st c : Nat) : Nat := 2 ^ s.field .ctrShift [p, st, c]
def State.maxValue (s : State) (p st c : Nat) : Nat :=
  (s.field .vpnLimit [p, st, c] + 1) * 2 ^ 17 - s.unitBits p st c
def State.counterCapacity (s : State) (p st c : Nat) : Nat :=
  (s.maxValue p st c - s.minValue p st c) / s.unitBits p st c + 1

/-- The next and the previous value of a counter, with the wrap at its bounds (R333, R334). -/
def State.nextValue (s : State) (p st c v : Nat) : Nat :=
  if s.maxValue p st c ≤ v then s.minValue p st c else v + s.unitBits p st c
def State.prevValue (s : State) (p st c v : Nat) : Nat :=
  if v ≤ s.minValue p st c then s.maxValue p st c else v - s.unitBits p st c

/-- The current stage has this counter, with legal bounds (R36, R330). -/
abbrev CounterReady (s : State) (p st c : Nat) : Prop :=
  AtStage s p st ∧ c < s.params.numCtrs ∧ s.field .vpnBase [p, st, c] ≤ s.field .vpnLimit [p, st, c]
    ∧ s.field .ctrShift [p, st, c] ≤ 7

/-- `value`, `pop_value` and `fill` are inside the bounds, at whole units (R331, R335). -/
def CounterInBounds (s : State) (p st c : Nat) : Prop :=
  let v := s.counter p st c
  (s.minValue p st c ≤ v.value ∧ v.value ≤ s.maxValue p st c ∧ s.unitBits p st c ∣ v.value)
    ∧ (s.minValue p st c ≤ v.popValue ∧ v.popValue ≤ s.maxValue p st c ∧ s.unitBits p st c ∣ v.popValue)
    ∧ v.fill ≤ s.counterCapacity p st c

/-- The region of the counter, whole pages of RAM words, lies in the RAM of its stateful ALU (R331, R346). -/
abbrev RegionInRam (s : State) (p st c : Nat) : Prop :=
  c < s.params.numSalu ∧ (s.field .vpnLimit [p, st, c] + 1) * 2 ^ 10 ≤ s.params.saluRamWords

/-- The counter once its clear has run to its end (R346, R349). -/
def State.clearedCounter (s : State) (p st c t : Nat) : Counter :=
  { s.counter p st c with
    flags := (s.counter p st c).flags &&& 0xFC#8, value := s.minValue p st c,
    popValue := s.minValue p st c, fill := 0, wmCount := 0, clearPtr := s.maxValue p st c, tClearNext := t }

/-- The RAM after the whole clear of a counter: its region is zero, every other word as it was (R346). -/
def RegionCleared (s t : State) (p st c : Nat) : Prop :=
  let page := fun w => s.field .vpnBase [p, st, c] * 2 ^ 10 ≤ w
    ∧ w < (s.field .vpnLimit [p, st, c] + 1) * 2 ^ 10
  (∀ w, page w → t.mem.read (saluAddr p st c w) = 0) ∧
  (∀ b, (∀ w, page w → b.key ≠ (saluAddr p st c w).key) → t.mem.read b = s.mem.read b)

/-- Only the counters of the stages, and the operation's answer, differ between the two states. -/
abbrev OnlyCounters (s t : State) : Prop := t = (s.setCtr t.ctr).setResult t.result

/-! ### A stage that does nothing (R526) -/

/-- The lookup results of a stage in which nothing hit. -/
def emptyLookup (params : Params) : Lookup :=
  { matchBus := List.replicate params.numRows (List.replicate params.numMatchBuses {})
    tindBus := List.replicate params.numRows (List.replicate params.numTindBuses {})
    matchHit := List.replicate params.numRows (List.replicate params.numMatchBuses 0)
    tindHit := List.replicate params.numRows (List.replicate params.numTindBuses 0)
    gateway := List.replicate params.numRows .notRun
    ltHit := 0
    ltInhibit := 0 }

/-- The outputs of the ALUs of a stage of which none runs. -/
def noOuts (params : Params) : AluOuts :=
  { sel := List.replicate params.numSelAlu .none
    salu := List.replicate params.numSalu .none
    stats := List.replicate params.numStatsAlu .none }

/-- Every address disabled, no counter request, no meter address (R541). -/
def quietAddr (A : AddrOut) : Bool :=
  A.sa.all (fun x => !x.getLsbD 23) && A.selMa.all (fun x => !x.getLsbD 31)
    && A.ma.all (fun x => !x.getLsbD 31) && A.me.all Option.isNone && A.ctrOp.all (· == .none)

/-- The stage's columns and gateways are off, no counter is clearing, and neither snapshot unit is armed
or holds an unfinished capture. -/
def QuietConfig (s : State) (p st : Nat) : Prop :=
  (∀ r < s.params.numRows, s.flag .gwEnable [p, st, r] = false
    ∧ ∀ c < numCols, s.field .colMode [p, st, r, c] = 0)
  ∧ (∀ c < s.params.numCtrs, ctrActive (s.counter p st c).flags = false)
  ∧ ∀ g, (s.snapUnit p st g).state = .passive ∧ (s.snapUnit p st g).pending = false

/-- The PHV that leaves a quiet stage. -/
def quietPhv (params : Params) (st : Nat) (phv : Phv) : Phv :=
  phvNormal params (actionFn params st phv (emptyLookup params) (noOuts params))

/-- The address distribution enables nothing for this PHV in any of the stages (R541). -/
def QuietAddrs (params : Params) (p : Nat) : List Nat → Phv → Prop
  | [], _ => True
  | st :: sts, phv => quietAddr (addrFn params p st phv (emptyLookup params)) = true
      ∧ QuietAddrs params p sts (quietPhv params st phv)

/-- The PHV after a walk through quiet stages. -/
def quietWalk (params : Params) : List Nat → Phv → Phv
  | [], phv => phv
  | st :: sts, phv => quietWalk params sts (quietPhv params st phv)

/-- A pipe through which this packet's PHV walks without touching an ALU. -/
def QuietPipe (s : State) (p : Nat) (pkt : Packet) : Prop :=
  p < s.params.numPipes ∧ (∀ st < s.params.numStages, QuietConfig s p st)
    ∧ QuietAddrs s.params p (List.range s.params.numStages)
        (phvNormal s.params (parseFn s.params pkt.bytes pkt.port))

/-- The bytes of the packet after that walk (R442, R443). -/
def quietBytes (s : State) (pkt : Packet) : List Byte :=
  deparseFn s.params
    (quietWalk s.params (List.range s.params.numStages)
      (phvNormal s.params (parseFn s.params pkt.bytes pkt.port))) pkt.bytes

/-- The packet after that walk. -/
def quietOut (s : State) (pkt : Packet) : Packet := { pkt with bytes := quietBytes s pkt }

/-- The packets that a list of `TmFn` makes of `pkt` (R442): the first one marked the same keeps its identity, every
other one is fresh and takes the next identity, from `id` on. -/
def delivered (pkt : Packet) : Nat → Bool → List TmOut → List Packet
  | _, _, [] => []
  | id, used, o :: os =>
    let own := o.same && !used
    { pkt with bytes := o.bytes, port := o.port, pipe := o.pipe, kind := .fromTm,
               id := if own then pkt.id else id }
      :: delivered pkt (if own then id else id + 1) (used || o.same) os

/-- How many of them are fresh. -/
def freshCount (l : List TmOut) : Nat := l.length - (if l.any (fun o => o.same) then 1 else 0)

/-- The packets of the ingress activations of these packets, one after the other. -/
def deliveredAll (s : State) : Nat → List Packet → List Packet
  | _, [] => []
  | id, x :: xs =>
    let l := tmFn s.params (quietOut s x)
    delivered (quietOut s x) id false l ++ deliveredAll s (id + freshCount l) xs

/-- The rail of a held packet (R441): a packet from the input rail and a `RESUBMIT` packet are activated at ingress,
any other packet of the traffic manager at egress. -/
def ingressRail (h : Held) : List Packet := h.inPkt.toList ++ h.tmPkt.toList.filter (fun x => x.kind == .resubmit)
def egressRail (h : Held) : List Packet := h.tmPkt.toList.filter (fun x => x.kind != .resubmit)

/-- The datapath state that no ALU and no lookup of a quiet walk touches. -/
abbrev SameStores (s t : State) : Prop :=
  t.params = s.params ∧ t.cfg = s.cfg ∧ t.mem = s.mem ∧ t.tcam = s.tcam ∧ t.gw = s.gw
    ∧ t.stats = s.stats ∧ t.sel = s.sel ∧ t.salu = s.salu ∧ t.ctr.ctrs = s.ctr.ctrs
    ∧ t.teop = s.teop ∧ t.swp = s.swp ∧ t.strict = s.strict

/-! ### The turns of a stage cycle (R540) -/

/-- The state in which the unit numbered `a` of a stage takes its turn inside the stage's cycle, with its input
data. -/
def State.inTurn (s : State) (p st a : Nat) (data : Word) : State :=
  s.setAct { s.act with site := { s.act.site with pipe := p, stage := st, alu := a }, aluData := data,
                        inCycle := true }

/-- The request for counter `c`: the row of the counter's discipline runs, and its pointer replaces the word and the
sub-address of the stateful address; no pointer disables the address (R340). -/
def CounterTurn (s u : State) (p st c : Nat) (req : CtrReq) (raw raw' : BitVec 32) : Prop :=
  let stack := s.flag .ctrDiscipline [p, st, c]
  let runs := fun (i : Instr) => exec i (s.inTurn p st c 0) = .next u ∧ ∃ q, u.result = .pointer q ∧
    raw'.toNat = match q with
      | none => raw.toNat % 2 ^ 31
      | some ptr => raw.toNat / 2 ^ 24 * 2 ^ 24 + ptr % 2 ^ 24
  match req with
  | .none => u = s ∧ raw' = raw
  | .push => runs (bif stack then .ctrPushStack c else .ctrPushFifo c)
  | .pop => runs (bif stack then .ctrPopStack c else .ctrPopFifo c)

/-- The address of an ALU: its row runs at the ALU, on the ALU's input data, without a fault, and answers `o`. -/
def AluTurn (s u : State) (p st a : Nat) (data : Word) (row : Except DecodeError Instr) (o : AluOut) : Prop :=
  ∃ i, row = .ok i ∧ exec i (s.inTurn p st a data) = .next u ∧ u.result = .alu o ∧ Running u

/-- The address of a stats ALU: where the ALU counts at tEOP time an enabled address goes to the tEOP buses as
`output_stats_addr` puts it there, else it runs (R388, R540). -/
def StatsTurn (s u : State) (p st a lt : Nat) (raw : BitVec 24) (o : AluOut) : Prop :=
  let later := raw.getLsbD 23 = true ∧ ∃ b < s.params.numTeopBuses, s.inSet .busHdrStats [p, st, b] a = true;
  (later → exec (.teopOutputStatsAddr lt a (raw.setWidth 32)) (s.inTurn p st a 0) = .next u ∧ o = .none ∧
    Running u) ∧
  (¬ later → AluTurn s u p st a 0 (decodeSa raw.toNat) o)

end Sys2Proof.Machine
end

