-- ==== Sys2Proof/Certificates/Slice0/Obligations.lean ====
section
/-! DEFINITION. The statements for the provers. Each docstring names the rules it formalises. -/

open Sys2Proof Sys2Proof.Machine

/-! ### Encoding -/

/-- Decoding the encoded word of any operation that has one gives the operation back, with every operand
field; and a word that decodes is the encoded word of what it decodes to, so no bit of it is dropped (R104
to R119). -/
def Obligations.DecodingUndoesEncoding : Prop :=
  (∀ (i : Instr) (c : Coded), encode i = some c → decode c = .ok i) ∧
  (∀ (c : Coded) (i : Instr), decode c = .ok i →
    ∃ c', encode i = some c' ∧ c'.format = c.format ∧ c'.word = c.word)

/-- A set reserved bit is refused in every format that has one, and so is a reserved code where a code selects
the operation, whatever the other bits; so is a host command code outside the table; and a `MISC` word read for
its flag `div_en` is `DIV_MOD` only with the flag set (R119, R120, R124). -/
def Obligations.ReservedEncodingsAreRefused : Prop :=
  (∀ w, w < 2 ^ 24 → wordBit w 23 = true → wordBit w 22 = true → decodeSa w = .error .reservedBits) ∧
  (∀ w, w < 2 ^ 32 → wordBit w 31 = true → (wordBit w 29 = true ∨ wordBit w 30 = true) →
    decodeMa w = .error .reservedBits) ∧
  (∀ u w, wordBit w 15 = true → decodeCmp u w = .error .reservedBits) ∧
  (∀ h w, wordBit w 15 = true → decodeAu h w = .error .reservedBits) ∧
  (∀ w i, 8 ≤ i → i < 16 → wordBit w i = true → decodeOut w = .error .reservedBits) ∧
  (∀ w, (wordBit w 14 = true ∨ wordBit w 15 = true) → decodeMisc w = .error .reservedBits) ∧
  (∀ w, (wordBit w 6 = true ∨ wordBit w 7 = true) → decodeMm w = .error .reservedBits) ∧
  (∀ w, (wordBit w 5 = true ∨ wordBit w 6 = true ∨ wordBit w 7 = true) →
    decodeOp w = .error .reservedBits) ∧
  (∀ u w, wordBit w 15 = false → w % 16 = 3 → decodeCmp u w = .error .reservedCode) ∧
  (∀ h w, wordBit w 15 = false → 30 ≤ w % 32 → decodeAu h w = .error .reservedCode) ∧
  (∀ w, w < 2 ^ 8 → 13 ≤ w % 16 → decodeOut w = .error .reservedCode) ∧
  (∀ w, w < 2 ^ 14 → w % 4 = 3 → decodeMisc w = .error .reservedCode) ∧
  (∀ w, w < 2 ^ 14 → w % 4 = 1 → w / 2 ^ 11 % 8 = 7 → decodeMisc w = .error .reservedCode) ∧
  (∀ w, wordBit w 31 = true → wordBit w 29 = false → wordBit w 30 = false → 4 ≤ w / 2 ^ 24 % 8 →
    decodeMa w = .error .reservedCode) ∧
  (∀ w, w / 2 ^ 5 % 8 = 0 → 8 ≤ w % 16 → decodeOp w = .error .reservedCode) ∧
  (∀ w, (wordBit w 14 = true ∨ wordBit w 15 = true) → decodeMiscDiv w = .error .reservedBits) ∧
  (∀ w, w < 2 ^ 14 → wordBit w 4 = false → decodeMiscDiv w = .error .reservedCode) ∧
  (∀ code args, ¬ (1 ≤ code ∧ code ≤ 7) → ¬ (0x10 ≤ code ∧ code ≤ 0x14) → ¬ (0x20 ≤ code ∧ code ≤ 0x24) →
    decodeHc code args = .error .unknownCommand)

/-- Words written out from the encoding tables decode to the operations they stand for (R104, R106, R109, R110,
R111, R112, R113, R116). The place that the bare code `CMP` or `AU` is given is the model's choice (log entry
6); each word here names its place. -/
def Obligations.WrittenWordsDecode : Prop :=
  decode { format := .sa, word := 0x900010 } = .ok (.stats { subword := 0, word := 2 }) ∧
  decode { format := .ma, word := 0x81000484 } = .ok (.saluExec { sub := 4, word := 9, instr := 0 }) ∧
  decode { format := .cmp .one, word := 0x0528 } =
    .ok (.cmpGtU { unit := .one, srcA := 2, srcB := 2, bNeg := true }) ∧
  decode { format := .au .hi, word := 0x7A31 } = .ok (.aAdd { half := .hi, srcA := 1, srcB := 2, pred := 15 }) ∧
  decode { format := .out, word := 0x00F5 } = .ok (.oAluLo { pred := 15 }) ∧
  decode { format := .misc, word := 0x1801 } = .ok (.bitSet {}) ∧
  decode { format := .mm, word := 0x002E0003 } = .ok (.mmMax { size16 := true, constMask := 0x2E }) ∧
  decode { format := .op, word := 0x0000000000000000_10230107 } =
    .ok (.barrier { atype := .idle, epoch := 1, lt := 3, stage := 2, pipe := 1, arg := 0 })

/-! ### Steps -/

/-- When the next line of the agenda holds a word that decodes to a well-formed operation, the step is that
operation, run after the line has left the agenda and its agent, unit and inputs are in place; entering the
line writes nothing else (R122). The agent must have the right to the operation, else the step is refused: the
host alone may take the commands of format `HC`, the sweeper alone the operations of format `OP`, the stage of
the addressed unit alone the other words (R11, R119, R500). A bare word of the opcode table, laid down with
`withFetchWord`, runs at the next step as the operation that `decodeTableWord` reads from it. With nothing laid
down, the step is that of the agent which the open schedule names. The agenda, the schedule, which agent and
format a bare word is given, and the rights to the parts of a step are the model's choice (log entries 5, 6
and 47). -/
def Obligations.StepRunsTheDecodedOperation : Prop :=
  (∀ (s : State) (l : Line) (rest : List Line) (c : Coded) (i : Instr),
    s.agenda = l :: rest → l.body = .coded c → decode c = .ok i → i.wellFormed = true → Running s →
    (mayTake (enterLine l rest s) i = true → step s = exec i (enterLine l rest s)) ∧
    (mayTake (enterLine l rest s) i = false → step s = .refused .notPermitted) ∧
    (enterLine l rest s).agenda = rest ∧
    (enterLine l rest s).act.agent = l.agent ∧
    (enterLine l rest s).act.site = l.site.getD s.act.site ∧
    (enterLine l rest s).act.io.t = l.time.getD s.act.io.t ∧
    (enterLine l rest s).act.io.byteLen = l.pktlen.getD s.act.io.byteLen ∧
    (enterLine l rest s).act.aluData = l.data.getD s.act.aluData ∧
    (enterLine l rest s).act.phv = s.act.phv ∧
    ((enterLine l rest s).setAgenda s.agenda).setAct s.act = s) ∧
  (∀ (s : State) (nbits w : Nat) (i : Instr),
    w < 2 ^ nbits → decodeTableWord nbits w = some i → i.wellFormed = true → Running s →
    step (s.withFetchWord nbits w) = exec i (enterLine (wordLine s nbits w) s.agenda s)) ∧
  (∀ (s : State) (i : Instr) (c : Coded), encode i = some c →
    (mayTake s i = true ↔ s.act.agent = match c.format with
      | .hc => .host
      | .op => .sweeper
      | _ => .unit s.act.site.pipe s.act.site.stage)) ∧
  (∀ s : State, s.agenda = [] → step s = step
    ((s.setDraws (s.draws + 1)).setAgenda [{ body := .auto (Config.schedule s.draws) }]))

/-- While `faulted` is set no agent steps, except the host's `GET_FIELD` and `RAM_READ` (R490): any other line,
and the open schedule, stop with the fault, whatever the line decodes to. That the stop is the outcome `fault`
of the later step, and that a line is decoded before it is stopped, are the model's choice (log entries 9 and
13). -/
def Obligations.FaultedMachineOnlyReads : Prop :=
  ∀ (s : State), s.err.faulted.isSome = true →
    (s.agenda = [] → step s = .fault .machineFaulted) ∧
    (∀ l rest a, s.agenda = l :: rest → l.body = .auto a → step s = .fault .machineFaulted) ∧
    (∀ l rest i, s.agenda = l :: rest → i.wellFormed = true →
      (l.body = .instr i ∨ ∃ c, l.body = .coded c ∧ decode c = .ok i) →
      (l.agent = .host → ((∃ n x k, i = .getField n x k) ∨ ∃ a, i = .ramRead a) →
        step s = exec i (enterLine l rest s)) ∧
      (l.agent ≠ .host ∨ ((∀ n x k, i ≠ .getField n x k) ∧ ∀ a, i ≠ .ramRead a) →
        step s = .fault .machineFaulted))

/-- The trap entry: a raise logs its record; a fatal one sets `faulted` to that record and ends the step, a
relaxed one goes on; nothing else changes. The `fault` operation sets `faulted` alone (R473, R490). That the
faulting step itself answers a next state, and whose records carry a time, are the model's choice (log entries
9 and 11); the row `fault` sets `faulted` alone (log entry 45). -/
def Obligations.FaultEntryRecordsAndStops : Prop :=
  ∀ (s : State), Running s →
    (∀ r, exec (.fault r) s = .next (s.setErr { s.err with faulted := some r })) ∧
    (∀ t a, TableExists s t → (s.ctl t a).lockCount = 0 →
      let r : ErrRec := { code := 11, info := .lockUnderflow t a, agent := s.act.agent,
                          place := some (t.pipe, t.stage),
                          t := match s.act.agent with
                            | .worker _ => if s.act.inCycle then some s.act.io.t else none
                            | .unit _ _ => some s.act.io.t
                            | _ => none }
      (s.strict.lockCount = false →
        exec (.swpDecLock t a) s
          = .next (s.setErr { s.err with log := s.err.log ++ [r], faulted := some r })) ∧
      (s.strict.lockCount = true →
        exec (.swpDecLock t a) s
          = .next ((s.setErr { s.err with log := s.err.log ++ [r] }).setResult .none)))

/-! ### Invariants -/

/-- Reset meets every invariant, the coordinator's books among them, is not faulted, and every worker is
stopped with nothing to do (R60, R448, R449, R450, R521).
That a RAM word nothing has written reads 0 (part of `MemCanonical`) is the model's choice (log entry 3). -/
def Obligations.ResetMeetsTheInvariants : Prop :=
  Inv State.reset ∧ CoordBooks State.reset ∧ Running State.reset ∧ State.reset.err.log = [] ∧
  State.reset.coord.run = false ∧
  (∀ w, (State.reset.worker w).wstate = .stopped ∧ (State.reset.worker w).held = none
    ∧ (State.reset.worker w).lastPipe = State.reset.params.numPipes - 1) ∧
  (∀ name idx, State.reset.field name idx = 0)

/-- Every step keeps the RAM spaces in canonical form. The canonical form is the model's, with 0 for a word
that nothing has written (log entries 3 and 4). -/
def Obligations.EveryStepKeepsMemoryCanonical : Prop :=
  ∀ (s t : State), MemCanonical s → step s = .next t → MemCanonical t

/-- Every step keeps "epoch = 0 iff lock_count = 0" for every table control (R396). -/
def Obligations.EveryStepKeepsTheEpochRule : Prop :=
  ∀ (s t : State), EpochRule s → step s = .next t → EpochRule t

/-- The interval masks are functions of the configuration and hold after every step (R417). -/
def Obligations.EveryStepKeepsTheIntervalMasks : Prop :=
  ∀ (s t : State), MasksHold s → step s = .next t → MasksHold t

/-- Every step keeps bits 7 to 4 of every counter's flag byte zero (R46). That a host's write of the flag byte
keeps its low four bits only is the model's choice (log entry 44). -/
def Obligations.EveryStepKeepsFlagBytesLegal : Prop :=
  ∀ (s t : State), FlagBytesLegal s → step s = .next t → FlagBytesLegal t

/-- No step changes the launch record (R9); the error log only grows at its end (R473); once the machine has
faulted the record of the fault never changes (R490, R491). Every step of an agent, and every host command,
keeps the coordinator's books: a pipe is active exactly while one worker holds it, each packet is in one place,
and as many packets are pending as are queued and held (R448, R449, R450). A row that is a part of a
coordinator's step, run alone, is left out of this clause. That a pipe is active exactly while one worker holds it
is kept by those rows too, but for a claim run alone, which names no worker. The identities of packets and the
rights to the parts of a step are the model's (log entries 30 and 47). -/
def Obligations.EveryStepKeepsLaunchAndLog : Prop :=
  ∀ (s t : State), step s = .next t →
    t.params = s.params ∧ (∃ l, t.err.log = s.err.log ++ l) ∧
    (∀ r, s.err.faulted = some r → t.err.faulted = some r) ∧
    (CoordBooks s → (∀ l rest i, s.agenda = l :: rest → l.body = .instr i → opensBooks i = false) →
      CoordBooks t) ∧
    (ClaimsExclusive s → (∀ l rest p, s.agenda = l :: rest → l.body ≠ .instr (.coordDequeue p)) →
      ClaimsExclusive t)

/-! ### BitVector primitives -/

/-- `get_word` and `extract_into` read the bits of the field that exist, zero-extended; `set_word` and
`set_from` replace the bits of the field below `N`, keep every other bit and stay below `2^N`, and a field
inside the vector reads back; `get_word` and `set_word` beyond 64 bits are refused (R140, R141, R142, R151,
R152). -/
def Obligations.BitFieldsReadAndWrite : Prop :=
  (∀ (s : State) (n v off len : Nat), isBits n v = true →
    (∃ x, exec (.bvExtractInto n v off len) s = .next (s.setResult (.nat x)) ∧
      ∀ i, x.testBit i = (decide (i < len) && v.testBit (off + i))) ∧
    (len ≤ 64 → ∃ x, exec (.bvGetWord n v off len) s = .next (s.setResult (.nat x)) ∧
      ∀ i, x.testBit i = (decide (i < len) && v.testBit (off + i))) ∧
    (64 < len → exec (.bvGetWord n v off len) s = .refused .wordTooWide)) ∧
  (∀ (s : State) (n v x off len : Nat), isBits n v = true →
    (len ≤ 64 → ∃ y, exec (.bvSetWord n v x off len) s = .next (s.setResult (.nat y)) ∧ y < 2 ^ n ∧
      (∀ i < n, y.testBit i = if off ≤ i ∧ i < off + len then x.testBit (i - off) else v.testBit i) ∧
      (off + len ≤ n →
        exec (.bvGetWord n y off len) s = .next (s.setResult (.nat (x % 2 ^ len))))) ∧
    (64 < len → exec (.bvSetWord n v x off len) s = .refused .wordTooWide) ∧
    (isBits len x = true → ∃ y, exec (.bvSetFrom n v off len x) s = .next (s.setResult (.nat y)) ∧
      y < 2 ^ n ∧
      ∀ i < n, y.testBit i = if off ≤ i ∧ i < off + len then x.testBit (i - off) else v.testBit i))

/-- The three compares of the block, bit by bit: the ternary compare, the asymmetric compare and the masked
compare; and the search pattern of a key (R144, R145, R147, R148). -/
def Obligations.BitComparesDecidePerBit : Prop :=
  ∀ (s : State) (n a b c d : Nat), isBits n a = true → isBits n b = true → isBits n c = true →
    isBits n d = true →
    (∃ r, exec (.bvTcamCompare n a b c d) s = .next (s.setResult (.bool r)) ∧
      (r = true ↔ ∀ i < n, (c.testBit i = true → a.testBit i = true)
        ∧ (d.testBit i = true → b.testBit i = true))) ∧
    (∃ r, exec (.bvMaskedS0q1S1q0Equals n a b c d) s = .next (s.setResult (.bool r)) ∧
      (r = true ↔ ∀ i < n, (c.testBit i = true → b.testBit i = true → a.testBit i = true)
        ∧ (d.testBit i = true → a.testBit i = true → b.testBit i = true))) ∧
    (∃ r, exec (.bvMaskedEquals n a b c) s = .next (s.setResult (.bool r)) ∧
      (r = true ↔ ∀ i < n, c.testBit i = true → a.testBit i = b.testBit i)) ∧
    (∃ s0, exec (.bvSearchEncode n a) s = .next (s.setResult (.pair s0 a)) ∧ s0 < 2 ^ n ∧
      ∀ i < n, s0.testBit i = !a.testBit i)

/-- Construction from 64-bit words, the count of ones and its parity, and byte shifts (R143, R149, R150). -/
def Obligations.BitVectorsBuildCountAndShift : Prop :=
  ∀ (s : State) (n v k : Nat) (ws : List (BitVec 64)), isBits n v = true →
    (∃ x, exec (.bvFromWords n ws) s = .next (s.setResult (.nat x)) ∧
      ∀ i, x.testBit i = (decide (i < n) && (ws.getD (i / 64) 0).getLsbD (i % 64))) ∧
    (∃ c, exec (.bvPopcountParity n v) s = .next (s.setResult (.pair c (c % 2))) ∧
      c = ((List.range n).filter (fun i => v.testBit i)).length) ∧
    exec (.bvByteShift n v k .left) s = .next (s.setResult (.nat (v * 2 ^ (8 * k) % 2 ^ n))) ∧
    exec (.bvByteShift n v k .right) s = .next (s.setResult (.nat (v / 2 ^ (8 * k))))

/-! ### SRAM row -/

/-- The hash index is the hash modulo the depth, or -1 when the hash is not valid; the ALU input data is the OR of the
two enabled slices; `reset_resources` clears every bus of its row and no other; the hit-address word reads each match
bus's record, 0 for a bus not in use (R162, R165, R175, R176). That the hit addresses of a row are answered as one
number, bus 0 lowest, and that a column or an ALU of any number is answered, are the model's choice (log entries 21
and 71). -/
def Obligations.RowIndexDataAndReset : Prop :=
  ∀ (s : State) (p st r : Nat), AtRow s p st r →
    (∀ c, exec (.rowGetHashIndex c) s = .next (s.setResult (.int
      (if hashValidFn s.params p st r c s.act.phv = true then
        ((hashFn s.params p st r c s.act.phv % s.params.sramDepth : Nat) : Int) else -1)))) ∧
    (∀ alu, ∃ w, exec (.rowAluData alu) s = .next (s.setResult (.word w)) ∧
      ∀ i, w.getLsbD i = ((s.flag .aluDataHashEn [p, st, r] && (xbarHash s.params p st r alu s.act.phv).getLsbD i)
        || (s.flag .aluDataPhvEn [p, st, r] && (xbarPhv s.params p st r alu s.act.phv).getLsbD i))) ∧
    (∃ t, exec .rowResetResources s = .next t ∧ t = (s.setRow t.row).setResult .none ∧
      (∀ kind key, t.bus kind key = if key.take 3 = [p, st, r] then {} else s.bus kind key) ∧
      t.row.gateway = s.row.gateway ∧ t.row.ltHit = s.row.ltHit ∧ t.row.ltInhibit = s.row.ltInhibit) ∧
    (∃ n, exec .rowHitAddress s = .next (s.setResult (.nat n)) ∧
      ∀ b < s.params.numMatchBuses, n / 2 ^ (32 * b) % 2 ^ 32 =
        if (s.bus .matchBus [p, st, r, b]).inUse then (s.bus .matchBus [p, st, r, b]).hit.toNat else 0)

/-- An exact lookup on a clean bus: an invalid hash or a word that differs from the key under the mask, or whose valid
bit is required and clear, is a miss and changes nothing; a match drives the column's bus with the output field,
records the hit address and the table, and answers the index (R164, R165, R542). A column in another mode is not
looked up. That a column in another mode answers nothing when addressed alone, and that a lookup run alone leaves the
mark of its table, are the model's choice (log entries 23 and 51); so is that the column's table and bus are read on a
match alone (log entry 29). -/
def Obligations.ExactLookupDrivesItsBus : Prop :=
  ∀ (s : State) (p st r c : Nat), AtRow s p st r → c < numCols → 0 < s.params.sramDepth →
    let k := [p, st, r, c]
    let idx := hashFn s.params p st r c s.act.phv % s.params.sramDepth
    let word := s.mem.read (sramAddr p st r c idx)
    let hashed := hashValidFn s.params p st r c s.act.phv = true
    let agrees := (∀ i < 128, (s.field .emKeyMask k).testBit i = true →
        word.getLsbD i = (matchKey s.params p st r c s.act.phv).getLsbD i)
      ∧ (s.flag .emValidEn k = true → word.getLsbD (s.field .emValidBit k) = true)
    (s.field .colMode k = 1 → ¬ (hashed ∧ agrees) →
      exec (.rowExactLookup c) s = .next (s.setResult .miss)) ∧
    (s.field .colMode k = 1 → hashed → agrees →
      s.field .colLt k < s.params.numLt → s.field .colMatchBus k < s.params.numMatchBuses →
      s.params.matchBusW ≤ 64 → s.field .emOutOff k < 128 →
      (s.bus .matchBus [p, st, r, s.field .colMatchBus k]).inUse = false →
      exec (.rowExactLookup c) s = .next ((markHit p st (s.field .colLt k)
        (s.putBus .matchBus [p, st, r, s.field .colMatchBus k]
          { inUse := true, value := word.toNat / 2 ^ s.field .emOutOff k % 2 ^ s.params.matchBusW,
            prio := s.params.priority.getD c 0, group := s.params.prigroup.getD c 0,
            hit := BitVec.ofNat 32 (c * 2 ^ 20 ||| idx) })).setResult (.hit idx))) ∧
    (s.field .colMode k = 0 ∨ s.field .colMode k = 2 →
      exec (.rowExactLookup c) s = .next (s.setResult .none))

/-- A ternary lookup answers the highest entry that accepts the table's key, or that none does, with the hit vector of
all that do, and changes nothing; a tind lookup reads the SRAM word at the winning entry modulo the depth and drives
the column's tind bus with its output field, is a miss with no winner, and in another mode does not run; a hit also
sets the table's mark in `lt_hit` (R145, R166, R167, R168, R171, R542). The highest-index rule is supplied by the spec
from general knowledge (log entry 43); that a column in another mode answers nothing when addressed alone, that a
lookup run alone leaves the mark of its table, and that a table which the stage does not have is a miss, are the
model's choice (log entries 23, 51 and 71). -/
def Obligations.TernaryLookupAnswersTheHighest : Prop :=
  (∀ (s : State) (p st r lt : Nat), AtRow s p st r → TcamTablesLegal s p st →
    (∀ e, TernaryWinner s p st lt e →
      ∃ hits, exec (.rowTernaryLookup lt) s = .next (s.setResult (.ternary hits (some e))) ∧
        ∀ e', hits.testBit e' = true ↔ e' < s.params.numTcam ∧ TcamAccepts s p st lt e') ∧
    ((∀ e < s.params.numTcam, ¬ TcamAccepts s p st lt e) →
      exec (.rowTernaryLookup lt) s = .next (s.setResult (.ternary 0 none)))) ∧
  (∀ (s : State) (p st r c : Nat), AtRow s p st r → c < numCols → 0 < s.params.sramDepth →
    let k := [p, st, r, c]
    let lt := s.field .colLt k
    (s.field .colMode k = 2 → lt < s.params.numLt → TcamTablesLegal s p st →
      (∀ e < s.params.numTcam, ¬ TcamAccepts s p st lt e) →
      exec (.rowTindLookup c) s = .next (s.setResult .miss)) ∧
    (∀ e, s.field .colMode k = 2 → lt < s.params.numLt → TcamTablesLegal s p st →
      TernaryWinner s p st lt e → s.field .colTindBus k < s.params.numTindBuses →
      s.params.tindBusW ≤ 64 → s.field .tindOutOff k < 128 →
      (s.bus .tindBus [p, st, r, s.field .colTindBus k]).inUse = false →
      let idx := e % s.params.sramDepth
      let word := s.mem.read (sramAddr p st r c idx)
      exec (.rowTindLookup c) s = .next ((markHit p st lt
        (s.putBus .tindBus [p, st, r, s.field .colTindBus k]
          { inUse := true, value := word.toNat / 2 ^ s.field .tindOutOff k % 2 ^ s.params.tindBusW,
            prio := s.params.priority.getD c 0, group := s.params.prigroup.getD c 0,
            hit := BitVec.ofNat 32 (c * 2 ^ 20 ||| idx) })).setResult (.hit idx))) ∧
    (s.field .colMode k = 0 ∨ s.field .colMode k = 1 →
      exec (.rowTindLookup c) s = .next (s.setResult .none)))

/-- An enabled gateway answers its lowest accepting entry and inhibits its table, or a miss; a gateway that is
not enabled does not run (R169, R542). That a gateway which is not enabled answers nothing when addressed alone, and
that a gateway run alone leaves its result and the mark of its table, are the model's choice (log entries 23 and
51). -/
def Obligations.GatewayAnswersTheLowest : Prop :=
  ∀ (s : State) (p st r : Nat), AtRow s p st r →
    (s.flag .gwEnable [p, st, r] = true → (∀ e < s.params.gwEntries, ¬ GatewayAccepts s p st r e) →
      exec .rowGatewayLookup s = .next ((putGateway p st r .miss s).setResult .miss)) ∧
    (∀ e < s.params.gwEntries, s.flag .gwEnable [p, st, r] = true → GatewayAccepts s p st r e →
      (∀ e' < e, ¬ GatewayAccepts s p st r e') → s.field .gwLt [p, st, r] < s.params.numLt →
      exec .rowGatewayLookup s =
        .next ((markInhibit p st (s.field .gwLt [p, st, r]) (putGateway p st r (.hit e) s)).setResult
          (.hit e))) ∧
    (s.flag .gwEnable [p, st, r] = false → exec .rowGatewayLookup s = .next (s.setResult .none))

/-- The priority-ordered OR-merge of a row's output buses: a first write lands; a write of the bus's group is ORed in,
keeps the highest priority and, when it changes the bus, records its hit address; a write of another group with a
higher priority raises `ERR_BUS_OVERRIDE` and, relaxed, overwrites; any other is ignored (R165, R170, R171). The hit
address of a write addressed alone carries SRAM index 0, and an output is cut to the bus width, and a column that the
row does not have has priority and group 0: the model's choice (log entries 21, 22 and 71). -/
def Obligations.OutputBusArbitration : Prop :=
  ∀ (s : State) (p st r : Nat) (kind : BusKind) (bus out col : Nat), AtRow s p st r →
    bus < busCount s.params kind →
    let k := [p, st, r, bus]
    let b := s.bus kind k
    let v := out % 2 ^ busWidth s.params kind
    let prio := s.params.priority.getD col 0
    let group := s.params.prigroup.getD col 0
    let hit := BitVec.ofNat 32 (col * 2 ^ 20)
    let fresh : BusRec := { inUse := true, value := v, prio := prio, group := group, hit := hit }
    let err := Err.busOverride r bus col b.prio prio
    (b.inUse = false →
      exec (busInstr kind bus out col) s = .next ((s.putBus kind k fresh).setResult .none)) ∧
    (b.inUse = true → group = b.group →
      exec (busInstr kind bus out col) s = .next ((s.putBus kind k
        { inUse := true, value := b.value ||| v, prio := max b.prio prio, group := b.group,
          hit := if b.value ||| v = b.value ∧ prio ≤ b.prio then b.hit else hit }).setResult .none)) ∧
    (b.inUse = true → group ≠ b.group → b.prio < prio → s.strict.busOverride = false →
      exec (busInstr kind bus out col) s = .next (s.afterRaise (some (p, st)) err)) ∧
    (b.inUse = true → group ≠ b.group → b.prio < prio → s.strict.busOverride = true →
      exec (busInstr kind bus out col) s =
        .next (((s.afterRaise (some (p, st)) err).putBus kind k fresh).setResult .none)) ∧
    (b.inUse = true → group ≠ b.group → prio ≤ b.prio →
      exec (busInstr kind bus out col) s = .next (s.setResult .none))

/-! ### Stats ALU -/

/-- `STATS` away from the reserved value: the packet count goes up by one and the byte count by the adjusted
length, each modulo its width, with every other bit of the word as it was; an LRT that fires stashes the
new counts, raises the interrupt and writes zeros instead; the shadow pair counts beside it. The LRT check
alone, on any pair of counts: over the threshold they are stashed and become zero, else they go back as
they are (R197, R198, R200, R202, R203). -/
def Obligations.StatsCountsOrEvicts : Prop :=
  (∀ (s : State) (p st a : Nat) (sa : SaFields) (f : StatsFormat), AtStats s p st a →
    s.statsFmt p st a = f → FormatHas f sa.subword.toNat → sa.word.toNat < s.params.statsRamWords →
    let k := sa.subword.toNat
    let addr := statsAddr p st a sa.word.toNat
    let w := s.mem.read addr
    let pkt := (pktField f k w + 1) % 2 ^ f.pktW
    let byt := (byteField f k w + s.increment p st a) % 2 ^ f.byteW
    let inc := s.increment p st a
    ¬ Reserved f k w →
    (¬ lrtOver s p st a f pkt byt → ∃ w', CountsWritten f k w w' pkt byt ∧
      exec (.stats sa) s = .next (((s.setMem (s.mem.write addr w')).shadowed p st a sa.word.toNat k inc
        ).setResult (.alu .none))) ∧
    (lrtOver s p st a f pkt byt → ∃ w', CountsWritten f k w w' 0 0 ∧
      exec (.stats sa) s = .next (((((s.putStash p st a (s.stash p st a ++
          [{ addr := BitVec.ofNat 20 (8 * sa.word.toNat + k), word := BitVec.ofNat 128 (2 ^ 64 * pkt + byt) }])
        ).setIrq (.statsEvict p st a)).setMem (s.mem.write addr w')).shadowed p st a sa.word.toNat k inc
        ).setResult (.alu .none)))) ∧
  (∀ (s : State) (p st a : Nat) (sa : SaFields) (f : StatsFormat) (pkt byt : Nat), AtStats s p st a →
    s.statsFmt p st a = f → FormatHas f sa.subword.toNat → pkt < 2 ^ 64 → byt < 2 ^ 64 →
    (lrtOver s p st a f pkt byt → exec (.statsLrtCheck sa pkt byt) s = .next (((s.putStash p st a
      (s.stash p st a ++ [{ addr := BitVec.ofNat 20 (8 * sa.word.toNat + sa.subword.toNat),
                            word := BitVec.ofNat 128 (2 ^ 64 * pkt + byt) }])).setIrq
        (.statsEvict p st a)).setResult (.pair 0 0))) ∧
    (¬ lrtOver s p st a f pkt byt →
      exec (.statsLrtCheck sa pkt byt) s = .next (s.setResult (.pair pkt byt))))

/-- At the reserved value nothing of the RAM changes, nothing is evicted, and a read with clear clears nothing,
however often it is done (R196, R197, R201, R205). That the read data of an address delivered alone also goes
to the host is the model's choice (log entry 20). -/
def Obligations.ReservedValueIsSticky : Prop :=
  ∀ (s : State) (p st a : Nat) (sa : SaFields) (f : StatsFormat), AtStats s p st a →
    s.statsFmt p st a = f → FormatHas f sa.subword.toNat → sa.word.toNat < s.params.statsRamWords →
    let w := s.mem.read (statsAddr p st a sa.word.toNat)
    Reserved f sa.subword.toNat w →
    exec (.stats sa) s = .next ((s.shadowed p st a sa.word.toNat sa.subword.toNat (s.increment p st a)
      ).setResult (.alu .none)) ∧
    exec (.cfgRdclr sa) s = .next ((s.emit (.cfgData p st .stats a w)).setResult (.alu (.data w)))

/-- The reads: `CFG_RD` returns the whole word and reports it, `CFG_RDCLR` also clears the addressed sub-entry
away from the reserved value, a stateful `CFG_RD` reads its own RAM, and `dump_entry` packs the counts; a
disabled address and a no-operation read nothing and write nothing (R117, R204 to R207, R543). That the read
data of an address delivered alone also goes to the host, and that a `CFG_RD` of format `MA` delivered alone is
the stateful ALU's, are the model's choice (log entry 20). -/
def Obligations.ReadsReturnAndClear : Prop :=
  ∀ (s : State) (p st a : Nat),
    (∀ (sa : SaFields) (f : StatsFormat), AtStats s p st a → s.statsFmt p st a = f →
      FormatHas f sa.subword.toNat → sa.word.toNat < s.params.statsRamWords →
      let k := sa.subword.toNat
      let addr := statsAddr p st a sa.word.toNat
      let w := s.mem.read addr
      exec (.cfgRd sa) s = .next ((s.emit (.cfgData p st .stats a w)).setResult (.alu (.data w))) ∧
      (¬ Reserved f k w → ∃ w', CountsWritten f k w w' 0 0 ∧
        exec (.cfgRdclr sa) s = .next (((s.setMem (s.mem.write addr w')).emit
          (.cfgData p st .stats a w)).setResult (.alu (.data w)))) ∧
      exec (.statsDumpEntry sa.word.toNat k) s = .next (s.setResult (.word
        (BitVec.ofNat 128 (2 ^ 64 * pktField f k w + byteField f k w))))) ∧
    (∀ ma : MaFields, AtSalu s p st a → ma.word.toNat < s.params.saluRamWords →
      let w := s.mem.read (saluAddr p st a ma.word.toNat)
      exec (.maCfgRd ma) s = .next ((s.emit (.cfgData p st .salu a w)).setResult (.alu (.data w)))) ∧
    (AtStats s p st a → (∀ f, exec (.statsNop f) s = .next (s.setResult (.alu .none))) ∧
      ∀ rest, exec (.statsDisabled rest) s = .next (s.setResult (.alu .none))) ∧
    (AtSalu s p st a → (∀ f, exec (.maNop f) s = .next (s.setResult (.alu .none))) ∧
      ∀ rest, exec (.maDisabled rest) s = .next (s.setResult (.alu .none)))

/-- A check comes before its operation: an entry of the format table with no sub-entries, or a subword past
them, at every enabled stats operation, and a counter index that the block does not have, at every counter
operation, raise and, relaxed, the operation does nothing; a subword error records the 24 bits of the address
(R104, R192, R330). -/
def Obligations.FailedChecksRaiseFirst : Prop :=
  (∀ (s : State) (p st a : Nat) (sa : SaFields) (i : Instr) (op : Nat), AtStats s p st a →
    (i, op) ∈ [(Instr.stats sa, 1), (.cfgRd sa, 2), (.cfgRdclr sa, 3)] →
    let f := s.statsFmt p st a
    let bad := Err.statsBadFormat (s.field .statsFormat [p, st, a])
    let sub := Err.statsBadSubword
      (BitVec.ofNat 24 (2 ^ 23 + 2 ^ 20 * op + 2 ^ 3 * sa.word.toNat + sa.subword.toNat))
    (f.nEntries = 0 → exec i s = .next
      (if s.strict.statsFormat then (s.afterRaise (some (p, st)) bad).setResult (.alu .none)
       else s.afterRaise (some (p, st)) bad)) ∧
    (f.nEntries ≠ 0 → f.nEntries ≤ sa.subword.toNat → exec i s = .next
      (if s.strict.statsFormat then (s.afterRaise (some (p, st)) sub).setResult (.alu .none)
       else s.afterRaise (some (p, st)) sub))) ∧
  (∀ (s : State) (p st c t0 : Nat) (pop : Bool), AtStage s p st → s.params.numCtrs ≤ c →
    ∀ i ∈ [Instr.ctrPushFifo c, .ctrPopFifo c, .ctrPushStack c, .ctrPopStack c, .ctrWatermark c pop,
      .ctrStartClearAt c t0, .ctrClearStep c, .ctrContinueClearTill c t0, .ctrMaybeSynchronousClear c,
      .ctrStartClear p st c],
      exec i s = .next
        (if s.strict.counterIndex then (s.afterRaise (some (p, st)) (.ctrIndex c)).setResult .none
         else s.afterRaise (some (p, st)) (.ctrIndex c)))

/-! ### Selector ALU -/

/-- The three selection strategies, under either reading of the modulus: resilient takes the first enabled
bucket that lands on a live member, Plan-B finds a live member whenever there is one, fair indexes the live
members in order; with no live member each answers `0xFF`. Where the modulus is not the number of live members,
fair mode raises `ERR_SEL_COUNT_MISMATCH` and, relaxed, goes on with the number; the reserved bucket code is
refused (R120, R222, R226, R227, R228, R232, R233, R234). Plan-B is the spec's reference instance (log entry
42). -/
def Obligations.SelectionAnswersLiveMembers : Prop :=
  ∀ (s : State) (p st a : Nat) (pv : Word) (h : BitVec 52), AtSel s p st a →
    let live := fun m => pv.getLsbD m = true
    let err := Err.selCountMismatch (liveCount pv) (s.selModulus pv)
    let sel := s.field .fairBucketSel [p, st, a]
    (∃ m, exec (.selResilient pv h) s = .next (s.setResult (.nat m)) ∧
      let b := fun k => hashBucket s p st a h.toNat k % s.selModulus pv
      let on := fun k => (s.field .hashEnable [p, st, a]).testBit k = true
      ((m = 255 ∧ (pv = 0 ∨ ∀ k < 3, on k → ¬ live (b k))) ∨
        (pv ≠ 0 ∧ ∃ k < 3, m = b k ∧ on k ∧ live m ∧ ∀ j < k, on j → ¬ live (b j)))) ∧
    (∃ m, exec (.selPlanB pv h) s = .next (s.setResult (.nat m)) ∧
      (pv = 0 → m = 255) ∧ (pv ≠ 0 → m < 128 ∧ live m)) ∧
    (s.params.selModDef = .liveCount → s.selModulus pv = liveCount pv) ∧
    (s.selModulus pv = liveCount pv → (sel < 3 ∨ pv = 0) →
      ∃ m, exec (.selFair pv h) s = .next (s.setResult (.nat m)) ∧ FairAnswer s p st a pv h.toNat m) ∧
    ((s.selModulus pv = liveCount pv ∨ s.strict.selectorCount = true) → 3 ≤ sel → pv ≠ 0 →
      exec (.selFair pv h) s = .refused (.illegalConfig .fairBucketSel)) ∧
    (s.selModulus pv ≠ liveCount pv → s.strict.selectorCount = false →
      exec (.selFair pv h) s = .next (s.afterRaise (some (p, st)) err)) ∧
    (s.selModulus pv ≠ liveCount pv → s.strict.selectorCount = true → sel < 3 →
      ∃ m, exec (.selFair pv h) s = .next ((s.afterRaise (some (p, st)) err).setResult (.nat m)) ∧
        FairAnswer s p st a pv h.toNat m)

/-- `SEL_EXEC` uses the previous execution's word one cycle later on the same address and the RAM's otherwise, records
the word it used and writes no RAM. In resilient mode it answers what the resilient row answers for that word unless
that is `0xFF`, then what the Plan-B row answers: a live member whenever there is one; in fair mode the live member
whose rank the hash gives, after `ERR_SEL_COUNT_MISMATCH` where the modulus is not the number of live members (R222,
R223, R232, R233, R234, R238, R544). Plan-B is the spec's reference instance (log entry 42). -/
def Obligations.SelectorExecutionForwards : Prop :=
  ∀ (s : State) (p st a : Nat) (ma : MaFields), AtSel s p st a → ma.word.toNat < s.params.selRamWords →
    let l := s.selLast p st a
    let w := if l.valid = true ∧ l.addr = ma.word.toNat ∧ s.act.io.t = l.t + 1 then l.inputWord
      else s.mem.read (selAddr p st a ma.word.toNat)
    let used := s.putSelLast p st a
      { valid := true, addr := ma.word.toNat, t := s.act.io.t, inputWord := w }
    let err := used.afterRaise (some (p, st)) (.selCountMismatch (liveCount w) (s.selModulus w))
    let h := s.act.aluData.toNat % 2 ^ 52
    (s.flag .selMode [p, st, a] = true →
      ∃ r b m, exec (.selExec ma) s = .next (used.setResult (.alu (.member m))) ∧
        exec (.selResilient w (BitVec.ofNat 52 h)) s = .next (s.setResult (.nat r)) ∧
        exec (.selPlanB w (BitVec.ofNat 52 h)) s = .next (s.setResult (.nat b)) ∧
        m = (if r = 255 then b else r) ∧
        (w = 0 → m = 255) ∧ (w ≠ 0 → m < 128 ∧ w.getLsbD m = true)) ∧
    (s.flag .selMode [p, st, a] = false → s.field .fairBucketSel [p, st, a] < 3 →
      (s.selModulus w = liveCount w →
        ∃ m, exec (.selExec ma) s = .next (used.setResult (.alu (.member m))) ∧ FairAnswer s p st a w h m) ∧
      (s.selModulus w ≠ liveCount w → s.strict.selectorCount = false → exec (.selExec ma) s = .next err) ∧
      (s.selModulus w ≠ liveCount w → s.strict.selectorCount = true →
        ∃ m, exec (.selExec ma) s = .next (err.setResult (.alu (.member m))) ∧ FairAnswer s p st a w h m))

/-! ### Stateful ALU -/

/-- The compare units, on the execution in progress: the exact sum of the three terms under the reading of the
operation's class, tested against zero, then gated by the sbus; a disabled compare is false before the gate
(R257 to R273). That a row of a micro-operation acts on the execution in progress of the ALU of the site is the
model's choice (log entry 15). -/
def Obligations.ComparesTestTheExactSum : Prop :=
  ∀ (s : State) (p st a : Nat) (c : CmpFields) (x y : Nat), AtSalu s p st a →
    let r := s.saluRun p st a
    let W := r.width
    let k := siConst r.instr W
    let sum := fun (A B K : Int) => A + (if c.bNeg then -B else B) + (if c.cEn then K else 0)
    let u := sum x y k
    let v := sum (signed W x) (signed W y) (signed W k)
    let m := sum x y (signed W k)
    let done := fun raw => answers (s.compared p st a c raw)
    Sources r c.srcA c.srcB x y →
      exec (.cmpEq c) s = done (decide (u % 2 ^ W = 0)) ∧
      exec (.cmpNe c) s = done (decide (u % 2 ^ W ≠ 0)) ∧
      exec (.cmpDisabled c) s = done false ∧
      exec (.cmpGtS c) s = done (decide (v > 0)) ∧ exec (.cmpGeS c) s = done (decide (v ≥ 0)) ∧
      exec (.cmpLtS c) s = done (decide (v < 0)) ∧ exec (.cmpLeS c) s = done (decide (v ≤ 0)) ∧
      exec (.cmpGtU c) s = done (decide (u > 0)) ∧ exec (.cmpGeU c) s = done (decide (u ≥ 0)) ∧
      exec (.cmpLtU c) s = done (decide (u < 0)) ∧ exec (.cmpLeU c) s = done (decide (u ≤ 0)) ∧
      exec (.cmpGtUus c) s = done (decide (m > 0)) ∧ exec (.cmpGeUus c) s = done (decide (m ≥ 0)) ∧
      exec (.cmpLtUus c) s = done (decide (m < 0)) ∧ exec (.cmpLeUus c) s = done (decide (m ≤ 0))

/-- The arithmetic operations without a carry chain: modular, saturating, minimum and maximum results, written
to the unit's half and nowhere else; the lo unit's add and subtract record the carry (R277 to R288). That a row
of a micro-operation acts on the execution in progress of the ALU of the site is the model's choice (log entry
15). -/
def Obligations.ArithmeticWritesItsHalf : Prop :=
  ∀ (s : State) (p st a : Nat) (u : AuFields) (x y : Nat), AtSalu s p st a →
    let r := s.saluRun p st a
    PredHolds r u.pred → Sources r u.srcA u.srcB x y →
    let W := r.width
    let M := 2 ^ W
    let sx := signed W x
    let sy := signed W y
    let clamp := fun v : Int => ((max (-(M / 2 : Nat) : Int) (min v ((M / 2 : Nat) - 1))) % M).toNat
    let done := fun (r' : SaluRun) (v : Nat) =>
      answers (s.halfWritten p st a r' u.half v)
    let lo := u.half = .lo
    0 < W →
    exec (.aNop u) s = done r (match u.half with | .lo => runLo r | .hi => runHi r) ∧
    exec (.aAdd u) s = done (if lo then { r with loAddRan := .add, carry := decide (M ≤ x + y) } else r)
      ((x + y) % M) ∧
    exec (.aSub u) s = done (if lo then { r with loAddRan := .sub, carry := decide (x < y) } else r)
      ((x + M - y) % M) ∧
    exec (.aSubr u) s = done r ((y + M - x) % M) ∧
    exec (.aSaddu u) s = done r (min (x + y) (M - 1)) ∧
    exec (.aSadds u) s = done r (clamp (sx + sy)) ∧
    exec (.aSsubu u) s = done r (if x < y then 0 else x - y) ∧
    exec (.aSsubs u) s = done r (clamp (sx - sy)) ∧
    exec (.aMinu u) s = done r (if x ≤ y then x else y) ∧
    exec (.aMins u) s = done r (if sx ≤ sy then x else y) ∧
    exec (.aMaxu u) s = done r (if x ≤ y then y else x) ∧
    exec (.aMaxs u) s = done r (if sx ≥ sy then x else y)

/-- The carry-chain operations: on JBay, in the hi unit after the matching lo operation, they use the recorded
carry; otherwise, and always in the lo unit, which nothing precedes, they raise and, relaxed, use carry 0; on Tofino
they are refused (R251, R289, R290, R291). That a row of a micro-operation acts on the execution in progress of the
ALU of the site, whose last lo operation it pairs with, is the model's choice (log entries 15 and 19). -/
def Obligations.CarryChainNeedsItsPartner : Prop :=
  ∀ (s : State) (p st a : Nat) (u : AuFields) (x y : Nat), AtSalu s p st a →
    let r := s.saluRun p st a
    PredHolds r u.pred → Sources r u.srcA u.srcB x y →
    let M := 2 ^ r.width
    let err := Err.saluCarryUnpaired a r.slot
    let addc := fun k => (x + y + k) % M
    let subc := fun k => (x + 2 * M - (y + k)) % M
    (s.params.chip = .jbay → u.half = .hi → r.loAddRan = .add →
      exec (.aAddc u) s = .next (s.halfWritten p st a r u.half (addc r.carry.toNat))) ∧
    (s.params.chip = .jbay → u.half = .hi → r.loAddRan = .sub →
      exec (.aSubc u) s = .next (s.halfWritten p st a r u.half (subc r.carry.toNat))) ∧
    (s.params.chip = .jbay → u.half = .lo ∨ r.loAddRan ≠ .add → exec (.aAddc u) s = .next
      (if s.strict.saluCarry then (s.afterRaise (some (p, st)) err).halfWritten p st a r u.half (addc 0)
       else s.afterRaise (some (p, st)) err)) ∧
    (s.params.chip = .jbay → u.half = .lo ∨ r.loAddRan ≠ .sub → exec (.aSubc u) s = .next
      (if s.strict.saluCarry then (s.afterRaise (some (p, st)) err).halfWritten p st a r u.half (subc 0)
       else s.afterRaise (some (p, st)) err)) ∧
    (s.params.chip = .tofino → exec (.aAddc u) s = .refused .carryOnTofino ∧
      exec (.aSubc u) s = .refused .carryOnTofino)

/-- The sixteen logical operations, written to the unit's half; complements are within the width (R292 to
R308). The sixteen functions are supplied by the spec from general knowledge (log entry 43); that a row of a
micro-operation acts on the execution in progress is the model's choice (log entry 15). -/
def Obligations.LogicFollowsItsTruthTable : Prop :=
  ∀ (s : State) (p st a : Nat) (u : AuFields) (x y : Nat), AtSalu s p st a →
    let r := s.saluRun p st a
    PredHolds r u.pred → Sources r u.srcA u.srcB x y →
    let ones := 2 ^ r.width - 1
    let inv := fun v : Nat => ones ^^^ v
    let done := fun v => answers (s.halfWritten p st a r u.half v)
    exec (.lSetz u) s = done 0 ∧
    exec (.lNor u) s = done (inv (x ||| y)) ∧
    exec (.lAndca u) s = done (inv x &&& y) ∧
    exec (.lNota u) s = done (inv x) ∧
    exec (.lAndcb u) s = done (x &&& inv y) ∧
    exec (.lNotb u) s = done (inv y) ∧
    exec (.lXor u) s = done (x ^^^ y) ∧
    exec (.lNand u) s = done (inv (x &&& y)) ∧
    exec (.lAnd u) s = done (x &&& y) ∧
    exec (.lXnor u) s = done (inv (x ^^^ y)) ∧
    exec (.lB u) s = done y ∧
    exec (.lOrca u) s = done (inv x ||| y) ∧
    exec (.lA u) s = done x ∧
    exec (.lOrcb u) s = done (x ||| inv y) ∧
    exec (.lOr u) s = done (x ||| y) ∧
    exec (.lSethi u) s = done ones

/-- A unit whose predicate is false reads nothing and raises nothing, whatever its opcode and sources, and its
half of the result is the half as read; a reserved source code is refused by every unit whose predicate holds
and by every compare, the disabled one among them (R120, R255, R257, R276). That a row of a micro-operation acts
on the execution in progress, and that both sources of a logical operation are read whatever the operation, are
the model's choice (log entries 15 and 18). -/
def Obligations.IdleUnitsKeepTheirHalf : Prop :=
  (∀ (s : State) (p st a : Nat) (u : AuFields), AtSalu s p st a →
    let r := s.saluRun p st a
    ¬ PredHolds r u.pred →
    ∀ i ∈ [Instr.aNop u, .aAdd u, .aSub u, .aSubr u, .aSaddu u, .aSadds u, .aSsubu u, .aSsubs u, .aMinu u,
      .aMins u, .aMaxu u, .aMaxs u, .aAddc u, .aSubc u, .lSetz u, .lNor u, .lAndca u, .lNota u, .lAndcb u,
      .lNotb u, .lXor u, .lNand u, .lAnd u, .lXnor u, .lB u, .lOrca u, .lA u, .lOrcb u, .lOr u, .lSethi u],
      exec i s = .next (s.halfWritten p st a r u.half
        (match u.half with | .lo => runLo r | .hi => runHi r))) ∧
  (∀ (s : State) (p st a : Nat), AtSalu s p st a →
    let r := s.saluRun p st a
    (∀ c : CmpFields, (5 ≤ c.srcA.toNat ∨ 5 ≤ c.srcB.toNat) →
      ∀ i ∈ [Instr.cmpEq c, .cmpNe c, .cmpDisabled c, .cmpGtS c, .cmpGeS c, .cmpLtS c, .cmpLeS c, .cmpGtU c,
        .cmpGeU c, .cmpLtU c, .cmpLeU c, .cmpGtUus c, .cmpGeUus c, .cmpLtUus c, .cmpLeUus c],
        exec i s = .refused .reservedCode) ∧
    (∀ u : AuFields, PredHolds r u.pred → (5 ≤ u.srcA.toNat ∨ 5 ≤ u.srcB.toNat) →
      ∀ i ∈ [Instr.aNop u, .aAdd u, .aSub u, .aSubr u, .aSaddu u, .aSadds u, .aSsubu u, .aSsubs u, .aMinu u,
        .aMins u, .aMaxu u, .aMaxs u, .aAddc u, .aSubc u, .lSetz u, .lNor u, .lAndca u, .lNota u, .lAndcb u,
        .lNotb u, .lXor u, .lNand u, .lAnd u, .lXnor u, .lB u, .lOrca u, .lA u, .lOrcb u, .lOr u, .lSethi u],
        exec i s = .refused .reservedCode))

/-- The output select: the named value when the predicate holds, 0 when it does not; a divide output without
the divide unit raises and, relaxed, gives 0 (R111, R319, R325, R326). That a row of a micro-operation acts on
the execution in progress, that an output whose predicate is false reads nothing, and that the quotient, the modulus
and the min/max value keep their 16 bits at width 8, are the model's choice (log entries 15, 18 and 54). -/
def Obligations.OutputSelectsItsSource : Prop :=
  ∀ (s : State) (p st a : Nat) (o : OutFields), AtSalu s p st a →
    let r := s.saluRun p st a
    let W := r.width
    let bits := fun (w : Word) (off : Nat) => w.toNat / 2 ^ off % 2 ^ W
    let done := fun v => answers
      ((s.putSaluRun p st a { r with action := v }).setResult (.nat v))
    let err := Err.divNotEnabled a r.slot
    r.base + W < 128 → W < 128 →
    (PredHolds r o.pred →
      exec (.oNone o) s = done 0 ∧
      exec (.oRamLo o) s = done (bits r.input r.base) ∧
      exec (.oRamHi o) s = done (bits r.input (r.base + W)) ∧
      exec (.oPhvLo o) s = done (bits r.data 0) ∧
      exec (.oPhvHi o) s = done (bits r.data W) ∧
      exec (.oAluLo o) s = done (bits r.output r.base) ∧
      exec (.oAluHi o) s = done (bits r.output (r.base + W)) ∧
      exec (.oPred o) s = done (2 * r.p1.toNat + r.p0.toNat) ∧
      (r.divRan = true → exec (.oDiv o) s = done r.quot ∧ exec (.oMod o) s = done r.rem) ∧
      (r.divRan = false → ∀ i ∈ [Instr.oDiv o, .oMod o], exec i s =
        if s.strict.divideEnable then .next (((s.afterRaise (some (p, st)) err).putSaluRun p st a
          { r with action := 0 }).setResult (.nat 0))
        else .next (s.afterRaise (some (p, st)) err)) ∧
      exec (.oMmValue o) s = done r.mmValue ∧
      exec (.oMmIndex o) s = done r.mmIndex ∧
      exec (.oBitOld o) s = done r.bitOut.toNat) ∧
    (¬ PredHolds r o.pred →
      ∀ i ∈ [Instr.oNone o, .oRamLo o, .oRamHi o, .oPhvLo o, .oPhvHi o, .oAluLo o, .oAluHi o, .oPred o,
        .oDiv o, .oMod o, .oMmValue o, .oMmIndex o, .oBitOld o], exec i s = done 0)

/-- The 1-bit operations on bit `ma.sub` of the word as read, with the width of the same `MISC` word and its
divide unit (R253, R309 to R319). The six operations are supplied by the spec from general knowledge (log entry
43); that a row of a micro-operation acts on the execution in progress is the model's choice (log entry 15). -/
def Obligations.OneBitOperationsTouchOneBit : Prop :=
  ∀ (s : State) (p st a W x y : Nat) (m : MiscFields), AtSalu s p st a → widthOf m.width = some W →
    let r := widened (s.saluRun p st a) W
    (m.divEn = true → Sources r m.divSrcA m.divSrcB x y) →
    let old := r.input.getLsbD r.sub
    let bit := BitVec.twoPow 128 r.sub
    let done := fun (w : Word) (b : Bool) => answers
      ((s.putSaluRun p st a (divided { r with output := w, bitOut := b } m x y)).setResult (.bool b))
    exec (.bitNop m) s = done r.input false ∧
    exec (.bitRead m) s = done r.input old ∧
    exec (.bitReadc m) s = done r.input (!old) ∧
    exec (.bitSet m) s = done (r.input ||| bit) old ∧
    exec (.bitSetc m) s = done (r.input ||| bit) (!old) ∧
    exec (.bitClr m) s = done (r.input &&& ~~~bit) old ∧
    exec (.bitClrc m) s = done (r.input &&& ~~~bit) (!old)

/-- Mode `DUAL` runs the lo unit's row and then the hi unit's row on the word as read, with nothing recorded for the
hi unit, then the divide unit where it is enabled: for any two units of the instruction, whether they run, fault or
are refused; two words with no reserved code and no carry chain run. An `A_ADD` in the lo unit and an `A_ADDC` in the
hi unit, both with their predicates true, add the two-half operands as one number modulo two to twice the width, and
leave every bit outside the entry as read (R252, R254, R276, R278, R289, R291). That the mode's row starts again from
the word as read, with nothing recorded, is the model's choice (log entries 15 and 19). -/
def Obligations.DualCarryChainAddsDoubleWidth : Prop :=
  (∀ (s : State) (p st a W x y : Nat) (m : MiscFields) (bitOp : BitVec 3) (lo hi : Instr), AtSalu s p st a →
    Running s → widthOf m.width = some W →
    let r := widened (s.saluRun p st a) W
    let s0 := s.putSaluRun p st a { r with output := r.input, loAddRan := .none, carry := false }
    let dual := exec (.modeDual m bitOp) s
    decodeAu .lo (siAluLo r.instr) = .ok lo → decodeAu .hi (siAluHi r.instr) = .ok hi →
    (auWordRuns (siAluLo r.instr) = true → auWordRuns (siAluHi r.instr) = true →
      ∃ u v, exec lo s0 = .next u ∧ Running u ∧ exec hi u = .next v ∧ Running v) ∧
    (∀ u v, exec lo s0 = .next u → Running u → exec hi u = .next v → Running v →
      (m.divEn = true → Sources r m.divSrcA m.divSrcB x y) →
      let e := v.saluRun p st a
      let half := fun k => e.output.toNat / 2 ^ (r.base + W * k) % 2 ^ W
      dual = .next ((v.putSaluRun p st a (divided e m x y)).setResult (.pair (half 0) (half 1)))) ∧
    (∀ u, exec lo s0 = .next u → ¬ Running u → dual = .next u) ∧
    (∀ u v, exec lo s0 = .next u → Running u → exec hi u = .next v → ¬ Running v →
      dual = .next (v.setResult s.result)) ∧
    (∀ q, exec lo s0 = .refused q → dual = .refused q) ∧
    (∀ u q, exec lo s0 = .next u → Running u → exec hi u = .refused q → dual = .refused q)) ∧
  (∀ (s : State) (p st a W xl yl xh yh : Nat) (m : MiscFields) (bitOp : BitVec 3), AtSalu s p st a →
    s.params.chip = .jbay → widthOf m.width = some W → m.divEn = false →
    let r := widened (s.saluRun p st a) W
    r.sub < 128 →
    siAluLo r.instr % 32 = 17 → siAluHi r.instr % 32 = 28 →
    let ul := auFields .lo (siAluLo r.instr)
    let uh := auFields .hi (siAluHi r.instr)
    PredHolds r ul.pred → PredHolds r uh.pred → Sources r ul.srcA ul.srcB xl yl →
    Sources r uh.srcA uh.srcB xh yh →
    ∃ r' lo hi, exec (.modeDual m bitOp) s = .next ((s.putSaluRun p st a r').setResult (.pair lo hi)) ∧
      lo < 2 ^ W ∧ hi < 2 ^ W ∧
      lo + 2 ^ W * hi = (xl + 2 ^ W * xh + (yl + 2 ^ W * yh)) % 2 ^ (2 * W) ∧
      r'.output.toNat / 2 ^ r.base % 2 ^ (2 * W) = lo + 2 ^ W * hi ∧
      (∀ i, (i < r.base ∨ r.base + 2 * W ≤ i) → r'.output.getLsbD i = r.input.getLsbD i) ∧
      r'.input = r.input ∧ r'.p0 = r.p0 ∧ r'.p1 = r.p1)

/-- The min/max unit: the best of the selected subwords, the one the tie policy picks, and its saturating
post-modification; mode `MINMAX` is that unit under `mm_cfg` (R320 to R323, R325). That a row of a
micro-operation acts on the execution in progress of the ALU of the site is the model's choice (log entry 15).
-/
def Obligations.MinMaxPicksTheBest : Prop :=
  ∀ (s : State) (p st a : Nat), AtSalu s p st a →
    let r := s.saluRun p st a
    (∀ c : MmFields, c.post ≠ 3 →
      (∃ out best j, MinMaxAnswer c false r.data r.input out best j ∧
        exec (.mmMin c) s = .next ((s.putSaluRun p st a
          { r with output := out, mmValue := best, mmIndex := j }).setResult (.pair best j))) ∧
      (∃ out best j, MinMaxAnswer c true r.data r.input out best j ∧
        exec (.mmMax c) s = .next ((s.putSaluRun p st a
          { r with output := out, mmValue := best, mmIndex := j }).setResult (.pair best j)))) ∧
    (∀ (m : MiscFields) (bitOp : BitVec 3) (W x y : Nat), widthOf m.width = some W →
      let r1 := widened r W
      (m.divEn = true → Sources r1 m.divSrcA m.divSrcB x y) →
      let w := s.field .mmCfg [p, st, a]
      let c := mmFields w
      w / 2 ^ 6 % 4 = 0 → c.post ≠ 3 →
      ∃ out best j, MinMaxAnswer c (wordBit w 0) r.data r.input out best j ∧
        exec (.modeMinmax m bitOp) s = .next ((s.putSaluRun p st a
          (divided { r1 with output := out, mmValue := best, mmIndex := j } m x y)).setResult
            (.pair best j)))

/-- Divide and modulo on the low 16 bits of the sources, read signed: the quotient rounds toward zero, a zero
divisor saturates by the sign of the dividend; the modulus has the sign of the divisor, a zero divisor returns
the dividend (R317, R318). That a row of a micro-operation acts on the execution in progress of the ALU of the
site is the model's choice (log entry 15). -/
def Obligations.DivideAndModulo : Prop :=
  ∀ (s : State) (p st a W x y : Nat) (d : DivFields), AtSalu s p st a → widthOf d.width = some W →
    let r := widened (s.saluRun p st a) W
    Sources r d.divSrcA d.divSrcB x y →
    let n := signed 16 (x % 2 ^ 16)
    let k := signed 16 (y % 2 ^ 16)
    let q := if k = 0 then (if 0 ≤ n then 0x7FFF else 0x8000) else (Int.tdiv n k % 2 ^ 16).toNat
    let m := if k = 0 then (n % 2 ^ 16).toNat else (Int.fmod n k % 2 ^ 16).toNat
    exec (.divMod d) s = .next ((s.putSaluRun p st a
      { r with divRan := true, quot := q, rem := m }).setResult (.pair q m))

/-- A whole `SALU_EXEC` whose instruction uses no reserved code and no carry chain runs to its end: on the word used
(in mode `MINMAX` the previous execution's one cycle later on the same address, else the RAM's) it does what its four
words do, the two compares, then the mode, then the output; the word they leave is written back, the record of the
forwarding takes the word used and the word written, the answer is what the output and the predicates are, and nothing
but this ALU's records and that word changes. An address out of range raises `ERR_ADDR_RANGE` with `lo_add_ran` and
`carry` cleared and nothing else done; relaxed, the read is zero and the write is dropped, each with its record (R44,
R71, R252, R257, R273, R274, R324, R326, R327). That the clearing comes before the read that raises, and that an
execution addressed alone sees no other ALU of the stage on its sbus, are the model's choice (log entries 59 and
16). -/
def Obligations.StatefulExecutionWritesOneWord : Prop :=
  ∀ (s : State) (p st a W : Nat) (ma : MaFields), AtSalu s p st a →
    let instr := BitVec.ofNat 128 (s.field .saluInstr [p, st, a, ma.instr.toNat])
    siRuns instr (s.field .mmCfg [p, st, a]) = true → widthOf (miscFields (siMisc instr)).width = some W →
    let addr := saluAddr p st a ma.word.toNat
    let l := s.saluLast p st a
    let inRange := ma.word.toNat < s.params.saluRamWords
    let used := if siMisc instr % 4 = 2 ∧ l.valid = true ∧ l.addr = ma.word.toNat ∧ s.act.io.t = l.t + 1
      then l.inputWord else if inRange then s.mem.read addr else 0
    let sb := sbusOf s p st a []
    let start : SaluRun := {
      instr := instr, sub := ma.sub.toNat, slot := ma.instr.toNat, width := W,
      base := ma.sub.toNat / (2 * W) * (2 * W), data := s.act.aluData, sbus0 := sb.1, sbus1 := sb.2,
      input := used, output := used }
    let err := Err.addrRange addr
    (∃ c0 c1 m o t0 t1 t2 t3, decodeCmp .zero (siCmp0 instr) = .ok c0 ∧ decodeCmp .one (siCmp1 instr) = .ok c1 ∧
      decodeMisc (siMisc instr) = .ok m ∧ decodeOut (siOut instr) = .ok o ∧
      exec c0 (s.putSaluRun p st a start) = .next t0 ∧ exec c1 t0 = .next t1 ∧ exec m t1 = .next t2 ∧
      exec o t2 = .next t3 ∧ t3 = (s.setSalu t3.salu).setResult t3.result ∧ t3.saluLast p st a = l ∧
      (∀ q u b, [q, u, b] ≠ [p, st, a] → t3.saluLast q u b = s.saluLast q u b
        ∧ t3.saluRun q u b = s.saluRun q u b) ∧
      let e := t3.saluRun p st a
      let done := fun t : State => (t.putSaluLast p st a {
        valid := true, addr := ma.word.toNat, t := s.act.io.t,
        inputWord := used, outputWord := e.output }).setResult (.alu (.salu e.action e.p0 e.p1));
      (inRange → exec (.saluExec ma) s = .next (done (t3.setMem (t3.mem.write addr e.output)))) ∧
      (¬ inRange → s.strict.sramVpn = true → exec (.saluExec ma) s =
        .next (done ((t3.afterRaise (some (p, st)) err).afterRaise (some (p, st)) err)))) ∧
    (¬ inRange → s.strict.sramVpn = false → exec (.saluExec ma) s = .next ((s.putSaluRun p st a
      { s.saluRun p st a with loAddRan := .none, carry := false }).afterRaise (some (p, st)) err))

/-! ### Stateful counters -/

/-- Push and pop, FIFO and stack: the pointer returned, the moved pointer with its wrap, the fill level, the
watermark; at full or empty only the flag is set (R333, R334, R336 to R339, R342). That a pointer above the minimum but
below one unit steps back to 0 is the model's choice (log entry 64). -/
def Obligations.PushAndPopMoveThePointers : Prop :=
  ∀ (s : State) (p st c : Nat), CounterReady s p st c →
    let v := s.counter p st c
    let wm := fun pop => s.watermarked p st c pop
    let done := fun (v' : Counter) (q : Option Nat) =>
      answers ((s.putCounter p st c v').setResult (.pointer q))
    (∀ i ∈ [Instr.ctrPushFifo c, .ctrPushStack c],
      (v.fill = s.counterCapacity p st c → exec i s = done { v with flags := v.flags ||| 4#8 } none) ∧
      (v.fill ≠ s.counterCapacity p st c → exec i s =
        done { v with value := s.nextValue p st c v.value, fill := v.fill + 1, wmCount := wm false }
          (some v.value))) ∧
    (v.fill = 0 → exec (.ctrPopFifo c) s = done { v with flags := v.flags ||| 8#8 } none) ∧
    (v.fill ≠ 0 → exec (.ctrPopFifo c) s =
      done { v with popValue := s.nextValue p st c v.popValue, fill := v.fill - 1, wmCount := wm true }
        (some v.popValue)) ∧
    (v.fill = 0 → exec (.ctrPopStack c) s = done { v with flags := v.flags ||| 8#8 } none) ∧
    (v.fill ≠ 0 → exec (.ctrPopStack c) s =
      done { v with value := s.prevValue p st c v.value, fill := v.fill - 1, wmCount := wm true }
        (some (s.prevValue p st c v.value)))

/-- Every push and pop keeps `value`, `pop_value` and `fill` inside the counter's bounds (R335), and a stack
pop after a push that landed returns the pointer the push returned and restores `value` and `fill`
(R338, R339). -/
def Obligations.CountersStayInBounds : Prop :=
  ∀ (s : State) (p st c : Nat), CounterReady s p st c → CounterInBounds s p st c →
    (∀ i ∈ [Instr.ctrPushFifo c, .ctrPushStack c, .ctrPopFifo c, .ctrPopStack c],
      ∃ t, exec i s = .next t ∧ CounterInBounds t p st c ∧ OnlyCounters s t ∧
        ∀ q u d, [q, u, d] ≠ [p, st, c] → t.counter q u d = s.counter q u d) ∧
    ((s.counter p st c).fill ≠ s.counterCapacity p st c →
      ∃ t u, exec (.ctrPushStack c) s = .next t ∧ exec (.ctrPopStack c) t = .next u ∧
        t.result = .pointer (some (s.counter p st c).value) ∧ u.result = t.result ∧
        (u.counter p st c).value = (s.counter p st c).value ∧
        (u.counter p st c).fill = (s.counter p st c).fill)

/-- Starting a clear without `sync_clear` sets `StartPending` and the time of the first step, at the given time
or at the pipe's clock; with `sync_clear` the counter is empty, its region zero and neither bit set. The sweep
of an active counter ends not active or past its time, and is a step, the period, and the sweep again while it
is due; the synchronous clear ends not active, and clears a started counter whole. An inactive counter is left
alone by both; the watermark counts by itself; the spinlock is free afterwards (R119, R342, R345, R346, R347,
R349, R351). The spinlock has no other effect in a model whose operations are atomic (log entry 39). -/
def Obligations.ClearsStartAndRest : Prop :=
  ∀ (s : State) (p st c : Nat), AtStage s p st → c < s.params.numCtrs →
    let v := s.counter p st c
    (∀ t0, s.flag .syncClear [p, st] = false →
      ∀ e ∈ [(Instr.ctrStartClearAt c t0, t0), (Instr.ctrStartClear p st c, (s.pipe p).cycle)],
      ∃ t, exec e.1 s = .next t ∧ OnlyCounters s t ∧ t.result = .none ∧
        t.counter p st c = { v with flags := v.flags ||| 1#8, tClearNext := e.2 } ∧
        (∀ q u d, [q, u, d] ≠ [p, st, c] → t.counter q u d = s.counter q u d) ∧
        Store.get false t.ctr.spin [p, st] = false) ∧
    (ctrActive v.flags = false → ∀ tStop,
      ∀ i ∈ [Instr.ctrContinueClearTill c tStop, .ctrMaybeSynchronousClear c],
      ∃ t, exec i s = .next t ∧ OnlyCounters s t ∧ t.result = .none ∧ t.ctr.ctrs = s.ctr.ctrs ∧
        (Store.get false s.ctr.spin [p, st] = false → Store.get false t.ctr.spin [p, st] = false)) ∧
    (∀ pop, exec (.ctrWatermark c pop) s =
      .next ((s.putCounter p st c { v with wmCount := s.watermarked p st c pop }).setResult .none)) ∧
    (s.flag .syncClear [p, st] = false →
      exec (.ctrMaybeSynchronousClear c) s = .next (s.setResult .none)) ∧
    (CounterReady s p st c → RegionInRam s p st c →
      let swept := fun (i : Instr) (t : State) => exec i s = .next t ∧
        t = ((s.setMem t.mem).setCtr t.ctr).setResult .none ∧
        (∀ q u d, [q, u, d] ≠ [p, st, c] → t.counter q u d = s.counter q u d) ∧
        Store.get false t.ctr.spin [p, st] = false
      let due := fun (u : State) (tStop : Nat) => ctrActive (u.counter p st c).flags = true ∧
        (u.counter p st c).tClearNext ≤ tStop;
      (s.flag .syncClear [p, st] = true → ∀ t0,
        ∀ e ∈ [(Instr.ctrStartClearAt c t0, t0), (Instr.ctrStartClear p st c, (s.pipe p).cycle)],
        ∃ t, swept e.1 t ∧ t.counter p st c = s.clearedCounter p st c e.2 ∧ RegionCleared s t p st c) ∧
      (s.flag .syncClear [p, st] = true → v.flags.getLsbD 0 = true →
        ∃ t, swept (.ctrMaybeSynchronousClear c) t ∧
          t.counter p st c = s.clearedCounter p st c v.tClearNext ∧ RegionCleared s t p st c) ∧
      (v.clearPtr < s.params.saluRamWords * 2 ^ 7 →
        (s.flag .syncClear [p, st] = true →
          ∃ t, swept (.ctrMaybeSynchronousClear c) t ∧ ctrActive (t.counter p st c).flags = false ∧
            (t.counter p st c).tClearNext = v.tClearNext) ∧
        ∀ tStop, (∃ t, swept (.ctrContinueClearTill c tStop) t ∧ ¬ due t tStop) ∧
          (due s tStop → ∃ u, exec (.ctrClearStep c) s = .next u ∧
            exec (.ctrContinueClearTill c tStop) s = exec (.ctrContinueClearTill c tStop)
              (u.putCounter p st c { u.counter p st c with
                tClearNext := (u.counter p st c).tClearNext + s.params.ctrClearPeriod }))))

/-- One step of a clear: the first step empties the counter, each step zeroes the unit at the clear pointer
and no other bit, and the last step stops the sweep (R346). -/
def Obligations.ClearStepZeroesOneUnit : Prop :=
  ∀ (s : State) (p st c : Nat), CounterReady s p st c → c < s.params.numSalu →
    let v := s.counter p st c
    let v1 := if v.flags.getLsbD 0 then
        { v with flags := (v.flags &&& 0xFE#8) ||| 2#8, value := s.minValue p st c,
                 popValue := s.minValue p st c, fill := 0, wmCount := 0, clearPtr := s.minValue p st c }
      else v
    let addr := saluAddr p st c (v1.clearPtr / 128)
    let unit := s.unitBits p st c
    let off := v1.clearPtr % 128
    v1.clearPtr / 128 < s.params.saluRamWords →
    ∃ w', (∀ i, w'.getLsbD i = (decide (i < off ∨ off + unit ≤ i) && (s.mem.read addr).getLsbD i)) ∧
      exec (.ctrClearStep c) s = .next ((((s.setMem (s.mem.write addr w')).setCtr { s.ctr with
        ctrs := Store.set {} (Store.set {} s.ctr.ctrs [p, st, c] v1) [p, st, c]
          (if s.maxValue p st c ≤ v1.clearPtr then { v1 with flags := v1.flags &&& 0xFD#8 }
           else { v1 with clearPtr := v1.clearPtr + unit }) })).setResult .none)

/-! ### Snapshot -/

/-- One step of the snapshot unit of the PHV's gress: the clock is the greatest of the four times; a PHV whose
thread bit is clear only marks the NOP time; else the unit captures and passes the flag on as the table
of states says, with its own trigger evaluated only when armed or trigger-happy; the PHV triggers when
every container that is not dark has a configured match word that accepts each of its bits (R362, R363,
R365 to R367, R369, R371, R373, R375). -/
def Obligations.SnapshotStepFollowsTheTable : Prop :=
  ∀ (s : State) (p st : Nat), AtStage s p st →
    let io := s.act.io
    let g := io.gress
    let bit := match g with | .ingress => 0 | .egress => 1
    let u := s.snapUnit p st g
    let clock := max (max u.clock (s.pipe p).cycle) (max io.t u.lastNop)
    let time := s.flag .snapTimeEnable [p, st, bit] = true ∧
      s.field .snapTimeTrigger [p, st, bit] ≤ clock % 2 ^ 48
    let accepts := fun i => (snapMatchAt s p st g i).1 ≠ 0 ∨ (snapMatchAt s p st g i).2 ≠ 0
    let bits := fun i k => if (s.act.phv.getD i 0).testBit k
      then (snapMatchAt s p st g i).2.testBit k = true else (snapMatchAt s p st g i).1.testBit k = true
    let phvs := ∀ i < s.params.phvN32 + s.params.phvN8 + s.params.phvN16, i ∉ s.params.phvDark →
      accepts i ∧ ∀ k < phvWidth s.params i, bits i k
    let own := phvs ∨ time
    let done := fun (u' : SnapUnit) (flag : Bool) => answers
      (((s.putSnapUnit p st g { u' with clock := clock }).setIo { io with snapTriggered := flag }
        ).setResult .none)
    let captured : SnapUnit := { u with dpVersion := io.pktVersion, dpThreadActive := io.threadActive,
                                        dpGhost := io.threadActive.getLsbD 2, pending := true }
    (io.threadActive.getLsbD bit = false → exec .snapStep s =
      .next ((s.putSnapUnit p st g { u with clock := clock, lastNop := io.t }).setResult .none)) ∧
    (io.threadActive.getLsbD bit = true →
      (u.state = .passive → exec .snapStep s = done u io.snapTriggered) ∧
      (u.state = .full → exec .snapStep s = done u false) ∧
      (u.state = .armed → (own → exec .snapStep s = done captured true) ∧
        (¬ own → exec .snapStep s = done u false)) ∧
      (u.state = .triggerHappy →
        (own ∨ io.snapTriggered = true → exec .snapStep s = done captured true) ∧
        (¬ own → io.snapTriggered = false → exec .snapStep s = done u false)))

/-- The two passes of a capture and the host's reset of the unit: the first pass stashes the datapath bits; the
second, only when pending, captures the results and the selected containers, becomes Full and raises the interrupt;
`SNAP_SET_STATE` sets the state and keeps the captures (R371, R372, R374, R494). That the second pass run alone takes
`next_table` as its operand and the other results from what the row state still holds, and that the first pass run
alone stashes in every state of the unit, are the model's choice (log entries 53 and 72). -/
def Obligations.SnapshotCapturesInTwoPasses : Prop :=
  ∀ (s : State) (p st : Nat), AtStage s p st →
    let io := s.act.io
    let g := io.gress
    let u := s.snapUnit p st g
    exec .snapFirstPass s = .next ((s.putSnapUnit p st g
      { u with dpVersion := io.pktVersion, dpThreadActive := io.threadActive,
               dpGhost := io.threadActive.getLsbD 2, pending := true }).setResult .none) ∧
    (∀ nt, u.pending = false → exec (.snapFinalizeSnapshot nt) s = .next (s.setResult .none)) ∧
    (∀ nt, u.pending = true → ∃ u', exec (.snapFinalizeSnapshot nt) s =
        .next (((s.putSnapUnit p st g u').setIrq (.snapshot p st g)).setResult .none) ∧
      u' = { u with state := .full, pending := false, capNextTable := nt, capBusHit := u'.capBusHit,
                    capLtHit := Store.get 0 s.row.ltHit [p, st],
                    capLtInhibit := Store.get 0 s.row.ltInhibit [p, st], capPhv := u'.capPhv } ∧
      (∀ r < s.params.numRows, ∀ b < s.params.numMatchBuses, Store.get 0 u'.capBusHit [r, b] =
        if (s.bus .matchBus [p, st, r, b]).inUse then (s.bus .matchBus [p, st, r, b]).hit else 0) ∧
      (∀ i < phvCount s.params, Store.get 0 u'.capPhv [i] =
        if s.flag .snapCaptureSel [p, st, gressBit g, i] then phvGet s.params s.act.phv i
        else Store.get 0 u.capPhv [i])) ∧
    (∀ g' sn, exec (.snapSetState p st g' sn) s = .next ((s.putSnapUnit p st g'
      { s.snapUnit p st g' with pending := false, state := match sn.toNat with
        | 0 => .passive
        | 1 => .armed
        | 2 => .triggerHappy
        | _ => .full }).setResult .none))

/-! ### tEOP -/

/-- The bus masks of a table, at header time and at tEOP time: the buses whose sets name the table's meter or
stats ALU; and the required delay, by its three cases (R383 to R386). That the two mask operations, and nothing
else, fill the caches, and that a table or bus that the stage does not have has the mask and delay of one that nothing
uses, are the model's choice (log entries 24 and 57). -/
def Obligations.TeopMasksAndDelay : Prop :=
  ∀ (s : State) (p st lt : Nat), AtStage s p st →
    let wired := fun (meter stats : FieldName) (st' lt' b : Nat) => b < s.params.numTeopBuses ∧
      ((∃ a, s.optField .ltMeterAlu [p, st', lt'] = some a ∧ s.inSet meter [p, st', b] a = true) ∨
       (∃ a, s.optField .ltStatsAlu [p, st', lt'] = some a ∧ s.inSet stats [p, st', b] a = true))
    let uses := fun st' b => ∃ lt' < s.params.numLt, wired .busHdrMeter .busHdrStats st' lt' b
    (∃ m, exec (.teopBusesAtHdrtime lt) s = .next ((s.setTeop { s.teop with
        hdr := Store.set none s.teop.hdr [p, st, lt] (some m) }).setResult (.nat m)) ∧
      ∀ b, m.testBit b = true ↔ wired .busHdrMeter .busHdrStats st lt b) ∧
    (∃ m, exec (.teopBusesAtTeoptime lt) s = .next ((s.setTeop { s.teop with
        teop := Store.set none s.teop.teop [p, st, lt] (some m) }).setResult (.nat m)) ∧
      ∀ b, m.testBit b = true ↔ wired .busTeopMeter .busTeopStats st lt b) ∧
    (∀ b, ∃ d, exec (.teopDelayRequired lt b) s = .next (s.setResult (.nat d)) ∧
      let first := s.flag .ltMatchDependent [p, st, lt] = true ∧ ∃ st' < st, uses st' b
      (first → d = s.params.pipeLatency - 4) ∧
      (¬ first → uses st b → d = s.params.pipeLatency - s.params.predicationDelay - 7) ∧
      (¬ first → ¬ uses st b → d = 0))

/-- The header-time address outputs: every bus that the ALU drives takes the address, the others keep theirs, when no
bus collides and every delay is as required; a collision on the first driven bus raises. On the one bus an ALU drives,
a delay that is not the required one is logged and the address stands, a fault only under `STRICT_TEOP_CHECK`; a
relaxed collision is logged and the bus keeps its address (R387, R388, R389). That the address of a table that the
stage does not have drives the buses in the same way is the model's choice (log entry 57). -/
def Obligations.TeopOutputsDriveTheirBuses : Prop :=
  ∀ (s : State) (p st lt alu : Nat) (addr : BitVec 32) (isStats : Bool), AtStage s p st →
    let i := if isStats then Instr.teopOutputStatsAddr lt alu addr else Instr.teopOutputMeterAddr lt alu addr
    let drives := fun b => s.inSet (if isStats then .busHdrStats else .busHdrMeter) [p, st, b] alu = true
    let bus := fun (io : IoObj) (b : Nat) => Store.get ({} : TeopBus) io.buses [b]
    let collides := fun b => let u := bus s.act.io b
      u.valid = true ∧ u.stage = st ∧ u.lt = lt ∧ (u.alu ≠ alu ∨ u.isStats ≠ isStats)
    ((∀ b < s.params.numTeopBuses, drives b → ¬ collides b ∧
        s.field .teopDelayCfg [p, st, b] = delayRequired s p st lt b) →
      ∃ io, exec i s = .next ((s.setIo io).setResult .none) ∧
        io = { s.act.io with buses := io.buses } ∧
        (∀ b < s.params.numTeopBuses, drives b → bus io b =
          { valid := true, addr := addr, stage := st, lt := lt, alu := alu, isStats := isStats }) ∧
        (∀ b, ¬ (b < s.params.numTeopBuses ∧ drives b) → bus io b = bus s.act.io b)) ∧
    (∀ b < s.params.numTeopBuses, drives b → collides b → (∀ b' < b, ¬ drives b') →
      s.strict.teopCollision = false →
      exec i s = .next (s.afterRaise (some (p, st)) (.teopCollision st lt b))) ∧
    (∀ b < s.params.numTeopBuses, drives b → (∀ b' < s.params.numTeopBuses, drives b' → b' = b) →
      let configured := s.field .teopDelayCfg [p, st, b]
      let required := delayRequired s p st lt b;
      (collides b → s.strict.teopCollision = true →
        exec i s = .next ((s.afterRaise (some (p, st)) (.teopCollision st lt b)).setResult .none)) ∧
      (¬ collides b → configured ≠ required → ∃ io, io = { s.act.io with buses := io.buses } ∧
        (∀ b', bus io b' = if b' = b then
          { valid := true, addr := addr, stage := st, lt := lt, alu := alu, isStats := isStats }
          else bus s.act.io b') ∧
        let u := (s.setIo io).afterRaise (some (p, st)) (.teopDelay st lt b configured required)
        exec i s = .next (if s.strict.teopCheck then u else u.setResult .none)))

/-- Consumption at tEOP time: the stats ALU that takes a valid stats bus executes the bus's address with the
packet length of the I/O object, exactly as the addressed operation does, and the bus is no longer valid
(R390). That a bus stops being valid only when a stats ALU takes it is the model's choice (log entry 24). -/
def Obligations.TeopConsumptionExecutesTheAddress : Prop :=
  ∀ (s : State) (p st a b : Nat) (u : TeopBus) (sa : SaFields) (f : StatsFormat), AtStats s p st a →
    b < s.params.numTeopBuses →
    (∀ b' < s.params.numTeopBuses, Store.get ({} : TeopBus) s.act.io.buses [b'] =
      if b' = b then u else { Store.get ({} : TeopBus) s.act.io.buses [b'] with valid := false }) →
    u.valid = true → u.isStats = true →
    (∀ a' < s.params.numStatsAlu, s.inSet .busTeopStats [p, st, b] a' = decide (a' = a)) →
    decodeSa (u.addr.toNat % 2 ^ 24) = .ok (.stats sa) →
    s.statsFmt p st a = f → FormatHas f sa.subword.toNat → sa.word.toNat < s.params.statsRamWords →
    ∃ t io, exec (.stats sa) s = .next t ∧ exec .teopConsume s = .next ((t.setIo io).setResult .none) ∧
      io = { s.act.io with buses := io.buses } ∧
      ∀ b', Store.get ({} : TeopBus) io.buses [b'] =
        if b' = b then { u with valid := false } else Store.get ({} : TeopBus) s.act.io.buses [b']

/-! ### Sweeper -/

/-- The controls of a table: locking ticks the epoch from the last one on the first lock only, unlocking the
last lock resets it, `op_start` and `op_stop` count the running operations, `lock_wait` returns when none
runs, and `is_locked_else_op_start` starts only on an unlocked table (R398, R400, R402, R403, R404). That `op_stop` with
nothing running leaves the count at 0 is the model's choice (log entry 62). -/
def Obligations.TableControlsLockAndCount : Prop :=
  ∀ (s : State) (t : TableId) (a : AType), TableExists s t →
    let c := s.ctl t a
    let done := fun (c' : TableOpCtl) (r : Ret) => answers ((s.putCtl t a c').setResult r)
    let next : BitVec 8 := if c.lastEpoch = 255 then 1 else c.lastEpoch + 1
    (c.lockCount = 0 → exec (.swpIncLock t a) s =
      done { c with lockCount := 1, epoch := next, lastEpoch := next } .none) ∧
    (c.lockCount ≠ 0 → exec (.swpIncLock t a) s = done { c with lockCount := c.lockCount + 1 } .none) ∧
    (c.lockCount = 1 → exec (.swpDecLock t a) s = done { c with lockCount := 0, epoch := 0 } .none) ∧
    (1 < c.lockCount → exec (.swpDecLock t a) s = done { c with lockCount := c.lockCount - 1 } .none) ∧
    exec (.swpOpStartStop t a true) s = done { c with running := c.running + 1 } .none ∧
    exec (.swpOpStartStop t a false) s = done { c with running := c.running - 1 } .none ∧
    exec (.swpLockWait t a) s = .next (s.setResult (if c.running = 0 then .none else .blocked)) ∧
    (c.lockCount ≠ 0 → exec (.swpIsLockedElseOpStart t a) s = .next (s.setResult (.bool true))) ∧
    (c.lockCount = 0 → exec (.swpIsLockedElseOpStart t a) s =
      done { c with running := c.running + 1 } (.bool false))

/-- The control operations of the sweeper, each as one step of it when nothing waits: `LOCK` locks and waits,
then acknowledges when nothing runs; `UNLOCK` unlocks and acknowledges; `BARRIER` acknowledges when nothing is
in flight, else waits at the head of its queue; `INTERVAL_SET` configures the sweep and recomputes the masks. The
sweeper's own step takes the head of `ops_hi`, else of `ops_lo`, and does with a control operation what its row
does; it begins nothing while a `LOCK` waits, nor a barrier while an operation is in flight, and completing a
waiting `LOCK` is what its row does (R406, R410, R415, R416, R417). That a row of an operation is one step of the
sweeper on that operation, the lines of the agenda, and that a barrier of `ops_hi` does not wait for `ops_lo` (R415
against R89), are the model's choice (log entries 25, 5 and 48). -/
def Obligations.ControlOperationsRun : Prop :=
  ∀ (s : State) (o : OpFields),
    let t : TableId := { pipe := o.pipe.toNat, stage := o.stage.toNat, lt := o.lt.toNat }
    let op := fun k => ({ table := t, atype := o.atype, opcode := k, arg := o.arg, epoch := o.epoch } : Op)
    let c := s.ctl t o.atype
    let idle := fun k => s.swp.lockWaiting = [] ∧ op k ∉ s.swp.inFlight
    TableExists s t →
    (idle .lock → ∃ u, exec (.lock o) s = .next u ∧
      u = ((incLock t o.atype s).setSwp { (incLock t o.atype s).swp with lockWaiting := [op .lock] }
        ).setResult .none ∧
      (c.running = 0 → exec (.lock o) u = .next (((u.setSwp { u.swp with lockWaiting := [] }).emit
        (.lockAck t o.atype (u.ctl t o.atype).epoch)).setResult .none)) ∧
      (c.running ≠ 0 → exec (.lock o) u = .next u)) ∧
    (idle .unlock → c.lockCount ≠ 0 → exec (.unlock o) s = .next (((s.putCtl t o.atype
      (if c.lockCount = 1 then { c with lockCount := 0, epoch := 0 }
       else { c with lockCount := c.lockCount - 1 })).emit (.unlockAck t o.atype)).setResult .none)) ∧
    (idle .barrier → s.swp.inFlight = [] →
      exec (.barrier o) s = .next ((s.emit (.barrierAck o.arg)).setResult .none)) ∧
    (idle .barrier → s.swp.inFlight ≠ [] → exec (.barrier o) s =
      .next ((s.setSwp { s.swp with opsHi := op .barrier :: s.swp.opsHi }).setResult .none)) ∧
    (idle .intervalSet → (∀ i < 64, 5 ≤ i → i ≠ 8 → o.arg.getLsbD i = false) →
      ∃ u, exec (.intervalSet o) s = .next u ∧
        u.field .sweepInterval [t.pipe, t.stage, t.lt, o.atype.ctorIdx] = o.arg.toNat % 32 ∧
        u.flag .sweepActive [t.pipe, t.stage, t.lt, o.atype.ctorIdx] = o.arg.getLsbD 8 ∧
        MasksHold u ∧
        (∀ n k, (n, k) ≠ (.sweepInterval, [t.pipe, t.stage, t.lt, o.atype.ctorIdx]) →
          (n, k) ≠ (.sweepActive, [t.pipe, t.stage, t.lt, o.atype.ctorIdx]) → u.field n k = s.field n k) ∧
        u = ((s.setCfg u.cfg).setSwp { s.swp with maskGlobal := u.swp.maskGlobal,
                                                  maskStage := u.swp.maskStage }).setResult .none) ∧
    (∀ (l : Line) (rest : List Line) (act : AutoStep), s.agenda = l :: rest → l.body = .auto act → Running s →
      let s1 := enterAuto act (enterLine l rest s)
      let head := (s.swp.opsHi ++ s.swp.opsLo).head?
      let popped := s1.setSwp { s1.swp with
        opsHi := s.swp.opsHi.tail, opsLo := if s.swp.opsHi = [] then s.swp.opsLo.tail else s.swp.opsLo };
      (act = .sweeperBegin →
        (∀ e ∈ [(Instr.intervalSet o, OpCode.intervalSet), (.lock o, .lock), (.unlock o, .unlock),
            (.barrier o, .barrier)], head = some (op e.2) → idle e.2 → (e.2 = .barrier → s.swp.inFlight = []) →
          step s = exec e.1 popped) ∧
        (head = none ∨ s.swp.lockWaiting ≠ [] →
          step s = .next (s1.setResult .none)) ∧
        (∀ b, head = some b → b.opcode = .barrier → s.swp.inFlight ≠ [] → step s = .next (s1.setResult .none))) ∧
      (∀ k, act = .lockComplete k → s.swp.lockWaiting[k]? = some (op .lock) → op .lock ∉ s.swp.inFlight →
        step s = exec (.lock o) s1))

/-- A work operation of the sweeper begins and finishes in two steps: begun with the table's current epoch it is
counted as running and put in flight, begun with another it is dropped without trace; finished it leaves the flight
and is counted down, and with the table's current epoch it does its work on the stats RAM, where a `SWEEP` evicts and
clears exactly the entries over the threshold. The sweeper's own steps begin the head of `ops_hi`, else of `ops_lo`,
while no `LOCK` waits, and finish any operation in flight (R200, R207, R401, R403, R406, R409 to R414, R479). That a
row is one step of the sweeper on its operation, the lines of the agenda, that a dropped operation is counted down,
that the count stays at 0 where nothing runs, and that equal operations in flight are counted and finished one by one,
are the model's choice (log entries 25, 5, 58, 62 and 74). -/
def Obligations.WorkOperationsBeginAndFinish : Prop :=
  ∀ (s : State) (o : OpFields) (a : Nat) (f : StatsFormat),
    let t : TableId := { pipe := o.pipe.toNat, stage := o.stage.toNat, lt := o.lt.toNat }
    let op := fun k => ({ table := t, atype := o.atype, opcode := k, arg := o.arg, epoch := o.epoch } : Op)
    let c := s.ctl t o.atype
    let begun := fun k => ((s.putCtl t o.atype { c with running := c.running + 1 }).setSwp
      { (s.putCtl t o.atype { c with running := c.running + 1 }).swp with
        inFlight := s.swp.inFlight ++ [op k] }).setResult .none
    let finished := fun (k : OpCode) (u : State) => ((u.setSwp { u.swp with
        inFlight := s.swp.inFlight.erase (op k) }).putCtl t o.atype
          { c with running := c.running - 1 }).setResult .none
    let w := o.arg.toNat / 8
    let k := o.arg.toNat % 8
    let addr := statsAddr t.pipe t.stage a w
    let word := s.mem.read addr
    let ew := fun (w k : Nat) => BitVec.ofNat 128 (2 ^ 64 * pktField f k (s.mem.read (statsAddr t.pipe t.stage a w))
      + byteField f k (s.mem.read (statsAddr t.pipe t.stage a w)))
    TableExists s t →
    (∀ e ∈ [(Instr.sweep o, OpCode.sweep), (.dump o, .dump), (.dumpWord o, .dumpWord),
        (.evictWord o, .evictWord)], op e.2 ∉ s.swp.inFlight → s.swp.lockWaiting = [] →
      (o.epoch = c.epoch → exec e.1 s = .next (begun e.2)) ∧
      (o.epoch ≠ c.epoch → exec e.1 s = .next (s.setResult .none))) ∧
    (∀ e ∈ [(Instr.sweep o, OpCode.sweep), (.dump o, .dump), (.dumpWord o, .dumpWord),
        (.evictWord o, .evictWord)], op e.2 ∈ s.swp.inFlight → o.epoch ≠ c.epoch →
      exec e.1 s = .next (finished e.2 s)) ∧
    (∀ (l : Line) (rest : List Line) (act : AutoStep), s.agenda = l :: rest → l.body = .auto act → Running s →
      let s1 := enterAuto act (enterLine l rest s)
      let popped := s1.setSwp { s1.swp with
        opsHi := s.swp.opsHi.tail, opsLo := if s.swp.opsHi = [] then s.swp.opsLo.tail else s.swp.opsLo }
      ∀ e ∈ [(Instr.sweep o, OpCode.sweep), (.dump o, .dump), (.dumpWord o, .dumpWord),
        (.evictWord o, .evictWord)],
        (act = .sweeperBegin → (s.swp.opsHi ++ s.swp.opsLo).head? = some (op e.2) → s.swp.lockWaiting = [] →
          step s = .next ((if o.epoch = c.epoch then
            (popped.putCtl t o.atype { c with running := c.running + 1 }).setSwp
              { (popped.putCtl t o.atype { c with running := c.running + 1 }).swp with
                inFlight := s.swp.inFlight ++ [op e.2] }
            else popped).setResult .none)) ∧
        (∀ k, act = .sweeperFinish k → s.swp.inFlight[k]? = some (op e.2) → step s = exec e.1 s1)) ∧
    (o.epoch = c.epoch → o.atype = .stats → s.optField .ltStatsAlu [t.pipe, t.stage, t.lt] = some a →
      a < s.params.numStatsAlu → s.statsFmt t.pipe t.stage a = f → FormatHas f 0 → f.nEntries ≤ 8 →
      (op .sweep ∈ s.swp.inFlight → s.flag .lrtEnable [t.pipe, t.stage, a] = false →
        exec (.sweep o) s = .next (finished .sweep s)) ∧
      (op .sweep ∈ s.swp.inFlight →
        let above := fun (w k : Nat) => lrtOver s t.pipe t.stage a f
          (pktField f k (s.mem.read (statsAddr t.pipe t.stage a w)))
          (byteField f k (s.mem.read (statsAddr t.pipe t.stage a w)))
        let evicted := ((List.range s.params.statsRamWords).flatMap (fun w =>
          (List.range f.nEntries).map (fun k => (w, k)))).filter (fun e => decide (above e.1 e.2))
        ∃ u, exec (.sweep o) s = .next u ∧
          u = finished .sweep (((s.setMem u.mem).setStats { s.stats with stash := u.stats.stash }).setErr
            { s.err with irq := u.err.irq }) ∧
          u.stash t.pipe t.stage a = s.stash t.pipe t.stage a ++ evicted.map (fun e =>
            { addr := BitVec.ofNat 20 (8 * e.1 + e.2), word := ew e.1 e.2 }) ∧
          (∀ p st b, [p, st, b] ≠ [t.pipe, t.stage, a] → u.stash p st b = s.stash p st b) ∧
          (∀ q, Store.get false u.err.irq (irqKey q) = (Store.get false s.err.irq (irqKey q)
            || decide (q = .statsEvict t.pipe t.stage a ∧ evicted ≠ []))) ∧
          (∀ w < s.params.statsRamWords, ∀ i < 128,
            (u.mem.read (statsAddr t.pipe t.stage a w)).getLsbD i =
              ((s.mem.read (statsAddr t.pipe t.stage a w)).getLsbD i &&
                !decide (∃ k < f.nEntries, above w k ∧ k * f.stride ≤ i ∧ i < k * f.stride + f.byteW + f.pktW))) ∧
          (∀ b, (∀ w < s.params.statsRamWords, b.key ≠ (statsAddr t.pipe t.stage a w).key) →
            u.mem.read b = s.mem.read b)) ∧
      (op .dump ∈ s.swp.inFlight → exec (.dump o) s = .next (finished .dump (s.setSwp { s.swp with
        hostOut := s.swp.hostOut ++ (List.range s.params.statsRamWords).flatMap (fun w =>
          (List.range f.nEntries).map (fun k => .dumpRec t (w * 8 + k) (ew w k))) }))) ∧
      (o.arg.toNat < 2 ^ 20 → w < s.params.statsRamWords → k < f.nEntries →
        (op .dumpWord ∈ s.swp.inFlight →
          exec (.dumpWord o) s = .next (finished .dumpWord (s.emit (.dumpRec t o.arg.toNat (ew w k))))) ∧
        (op .evictWord ∈ s.swp.inFlight → Reserved f k word →
          exec (.evictWord o) s = .next (finished .evictWord (s.emit (.evictRec t o.arg.toNat (ew w k))))) ∧
        (op .evictWord ∈ s.swp.inFlight → ¬ Reserved f k word → ∃ w', CountsWritten f k word w' 0 0 ∧
          exec (.evictWord o) s = .next (finished .evictWord ((s.setMem (s.mem.write addr w')).emit
            (.evictRec t o.arg.toNat (ew w k))))))) ∧
    (o.epoch = c.epoch → o.atype = .idle →
      ∀ e ∈ [(Instr.sweep o, OpCode.sweep), (.dump o, .dump), (.dumpWord o, .dumpWord),
        (.evictWord o, .evictWord)], op e.2 ∈ s.swp.inFlight →
      exec e.1 s = .refused .idleSweepNotSupplied)

/-- `OP_CREATE` appends the operation with the table's current epoch to the named queue; a reserved opcode is refused
and a table out of range raises and, relaxed, is logged and nothing is appended; a tick appends one sweep for each
table whose active interval divides the new tick, each once, in the order of interval, stage, pipe, table and address
type (R407, R417, R419). That the error records the table, and that no operation is made when it is relaxed, are the
model's choice (log entry 67). -/
def Obligations.OperationsAreCreated : Prop :=
  ∀ (s : State) (code : BitVec 4) (a : AType) (t : TableId) (arg : BitVec 64),
    (∀ oc, opCodeOf code = some oc → TableExists s t →
      let op : Op := { table := t, atype := a, opcode := oc, arg := arg, epoch := (s.ctl t a).epoch }
      exec (.opCreate code a t arg .hi) s =
        .next ((s.setSwp { s.swp with opsHi := s.swp.opsHi ++ [op] }).setResult .none) ∧
      exec (.opCreate code a t arg .lo) s =
        .next ((s.setSwp { s.swp with opsLo := s.swp.opsLo ++ [op] }).setResult .none)) ∧
    (∀ q, 8 ≤ code.toNat → exec (.opCreate code a t arg q) s = .refused .reservedCode) ∧
    (∀ q, code.toNat < 8 → ¬ TableExists s t → s.strict.sramVpn = false →
      exec (.opCreate code a t arg q) s = .next (s.afterRaise (some (t.pipe, t.stage)) (.tableRange t))) ∧
    (∀ q, code.toNat < 8 → ¬ TableExists s t → s.strict.sramVpn = true → exec (.opCreate code a t arg q) s =
      .next ((s.afterRaise (some (t.pipe, t.stage)) (.tableRange t)).setResult .none)) ∧
    (MasksHold s → ∃ l, exec .swpTimerTick s = .next ((s.setSwp { s.swp with
        tick := s.swp.tick + 1, opsLo := s.swp.opsLo ++ l }).setResult .none) ∧
      (∀ op, op ∈ l ↔ op.opcode = .sweep ∧ op.arg = 0 ∧ TableExists s op.table ∧
        op.epoch = (s.ctl op.table op.atype).epoch ∧
        ∃ i < 32, sweepsAt s op.table.pipe op.table.stage op.table.lt op.atype i = true ∧
          (s.swp.tick + 1) % 2 ^ i = 0) ∧
      l.Nodup ∧
      (let place := fun (op : Op) => [s.field .sweepInterval (ctlKey op.table op.atype), op.table.stage,
        op.table.pipe, op.table.lt, op.atype.ctorIdx];
      l.Pairwise (fun x y => place x < place y)))

/-! ### Coordinator -/

/-- The packet commands: each puts its packet, labelled with its port, pipe and kind, at the end of the one
queue its rule names, counts it as pending, and takes the packet out of the host's hands; a packet that the
host does not own is refused; at every command a pipe out of range raises and, relaxed, the error is logged and the
packet dropped: no queue and no count changes, and the packet is no longer the host's (R433 to R436, R448, R449). The
range check of a resubmitted packet and the set of identities the host has given away are the model's choice (log
entry 30). -/
def Obligations.PacketsEnterTheirQueues : Prop :=
  ∀ (s : State) (port pipe : Nat) (bytes : List Byte) (pkt : Packet),
    let queues := fun (t : State) (p : Nat) (q : PipeState) =>
      t.pipe p = q ∧ (∀ p', p' ≠ p → t.pipe p' = s.pipe p') ∧ t.coord.pending = s.coord.pending + 1 ∧
      t.coord.txOut = s.coord.txOut ∧ t.coord.run = s.coord.run ∧
      t = (((s.setCoord t.coord).setDraws t.draws).setResult .none)
    let q := pipeOfPort s.params port
    let qp := pipeOfPort s.params pkt.port
    let owned := pkt.id ∉ s.coord.taken
    (q < s.params.numPipes → ∃ t id, exec (.enqueue port bytes) s = .next t ∧ id = s.coord.nextId ∧
      queues t q { s.pipe q with qRx := (s.pipe q).qRx ++
        [{ bytes := bytes, port := port, pipe := q, kind := .rx, id := id }] } ∧ id ∈ t.coord.taken) ∧
    (q < s.params.numPipes → owned → ∃ t, exec (.enqueuePkt port pkt false) s = .next t ∧
      queues t q { s.pipe q with qRx := (s.pipe q).qRx ++
        [{ pkt with port := port, pipe := q, kind := .rx }] } ∧ pkt.id ∈ t.coord.taken) ∧
    (q < s.params.numPipes → owned → ∃ t, exec (.enqueuePkt port pkt true) s = .next t ∧
      queues t q { s.pipe q with qPgen := (s.pipe q).qPgen ++
        [{ pkt with port := port, pipe := q, kind := .pgen }] } ∧ pkt.id ∈ t.coord.taken) ∧
    (qp < s.params.numPipes → owned → ∃ t, exec (.enqueueResubmit pkt) s = .next t ∧
      queues t qp { s.pipe qp with qTm := (s.pipe qp).qTm ++
        [{ pkt with pipe := qp, kind := .resubmit }] } ∧ pkt.id ∈ t.coord.taken) ∧
    (pipe < s.params.numPipes → owned → ∃ t, exec (.enqueueFromTm pkt pipe) s = .next t ∧
      queues t pipe { s.pipe pipe with qTm := (s.pipe pipe).qTm ++
        [{ pkt with pipe := pipe, kind := .fromTm }] } ∧ pkt.id ∈ t.coord.taken) ∧
    (¬ owned → ∀ g, exec (.enqueuePkt port pkt g) s = .refused .packetNotOwned ∧
      exec (.enqueueResubmit pkt) s = .refused .packetNotOwned ∧
      exec (.enqueueFromTm pkt pipe) s = .refused .packetNotOwned) ∧
    (let dropped := fun (i : Instr) (err : Err) =>
        (s.strict.sramVpn = false → exec i s = .next (s.afterRaise none err)) ∧
        (s.strict.sramVpn = true → ∃ t, exec i s = .next t ∧ pkt.id ∈ t.coord.taken ∧
          t = ((s.afterRaise none err).setCoord { s.coord with
            taken := t.coord.taken, nextId := t.coord.nextId }).setResult .none);
      (s.params.numPipes ≤ q →
        exec (.enqueue port bytes) s = .next (if s.strict.sramVpn then
          (s.afterRaise none (.pipeRange port q)).setResult .none else s.afterRaise none (.pipeRange port q)) ∧
        (owned → ∀ g, dropped (.enqueuePkt port pkt g) (.pipeRange port q))) ∧
      (s.params.numPipes ≤ qp → owned → dropped (.enqueueResubmit pkt) (.pipeRange pkt.port qp)) ∧
      (s.params.numPipes ≤ pipe → owned → dropped (.enqueueFromTm pkt pipe) (.pipeRange pkt.port pipe)))

/-- Claiming a pipe: the input rail alternates by its flag, which flips only when the preferred queue was served; a
pipe that is active or has no work is not claimed; a claimed pipe is active and gives up to one packet of each rail,
and nothing but the pipes and the answer changes (R439, R440, R448). That a packet which a row run alone takes is in
its answer alone, and still counted as pending, is the model's choice (log entry 73). -/
def Obligations.ClaimsTakeOnePacketPerRail : Prop :=
  ∀ (s : State) (p : Nat), p < s.params.numPipes →
    let q := s.pipe p
    let taken := fun (q' : PipeState) (r : Ret) => answers ((s.putPipe p q').setResult r)
    (∀ x xs, q.rr = false → q.qRx = x :: xs →
      exec (.coordSelectInput p) s = taken { q with qRx := xs, rr := true } (.packet (some x))) ∧
    (∀ x xs, q.rr = false → q.qRx = [] → q.qPgen = x :: xs →
      exec (.coordSelectInput p) s = taken { q with qPgen := xs } (.packet (some x))) ∧
    (∀ x xs, q.rr = true → q.qPgen = x :: xs →
      exec (.coordSelectInput p) s = taken { q with qPgen := xs, rr := false } (.packet (some x))) ∧
    (∀ x xs, q.rr = true → q.qPgen = [] → q.qRx = x :: xs →
      exec (.coordSelectInput p) s = taken { q with qRx := xs } (.packet (some x))) ∧
    (q.qRx = [] → q.qPgen = [] → exec (.coordSelectInput p) s = .next (s.setResult (.packet none))) ∧
    (q.active = true ∨ (q.qRx = [] ∧ q.qPgen = [] ∧ q.qTm = []) →
      exec (.coordDequeue p) s = .next (s.setResult (.claimed none))) ∧
    (q.active = false → ¬ (q.qRx = [] ∧ q.qPgen = [] ∧ q.qTm = []) →
      ∃ t inp, exec (.coordSelectInput p) s = .next t ∧ t.result = .packet inp ∧
        let both := ¬ (s.params.processGressesSeparately = true ∧ inp.isSome = true)
        ∃ u, exec (.coordDequeue p) s = .next u ∧
          u.result = .claimed (some { pipe := p, inPkt := inp, tmPkt := if both then q.qTm.head? else none }) ∧
          u.pipe p = { t.pipe p with active := true, qTm := if both then q.qTm.tail else q.qTm } ∧
          (∀ p', p' ≠ p → u.pipe p' = s.pipe p') ∧
          u = (s.setCoord { s.coord with pipes := u.coord.pipes }).setResult u.result)

/-- A worker's scan: on a stopped coordinator it stops; else it claims the first pipe, in the order just after
the last one it processed, that has work and is not active, and otherwise waits (R438). -/
def Obligations.ScansClaimTheNextPipe : Prop :=
  ∀ (s : State) (w : Nat), w < s.params.numWorkers → (s.worker w).wstate = .scanning →
    let free := fun p => (s.pipe p).active = false ∧
      ¬ ((s.pipe p).qRx = [] ∧ (s.pipe p).qPgen = [] ∧ (s.pipe p).qTm = [])
    let nth := fun k => ((s.worker w).lastPipe + k) % s.params.numPipes
    (s.coord.run = false → exec (.coordWorkerScan w) s =
      .next ((s.putWorker w { s.worker w with wstate := .stopped }).setResult .none)) ∧
    (∀ k, s.coord.run = true → 1 ≤ k → k ≤ s.params.numPipes → free (nth k) →
      (∀ j, 1 ≤ j → j < k → ¬ free (nth j)) →
      ∃ u h, exec (.coordDequeue (nth k)) s = .next u ∧ u.result = .claimed (some h) ∧
        exec (.coordWorkerScan w) s = .next ((u.putWorker w { s.worker w with
          held := some h, lastPipe := nth k, wstate := .processing }).setResult .none)) ∧
    (s.coord.run = true → (∀ j, 1 ≤ j → j ≤ s.params.numPipes → ¬ free (nth j)) →
      ∃ t, exec (.coordWorkerScan w) s = .next t ∧ (t.worker w).wstate = .waiting ∧
        (t.worker w).lastPipe = (s.worker w).lastPipe ∧
        t.coord.threadsWaiting = s.coord.threadsWaiting + 1 ∧ (∀ p, t.pipe p = s.pipe p) ∧
        t = (s.setCoord t.coord).setResult .none)

/-- A release frees the worker's pipe, counts the processed packets down and sends the worker back to scan
(R447, R448). An arrival counts the packet and marks one worker that waits and is not marked yet, nobody when
there is none (R448). A waiting worker that is marked, or is worker 0, or any on a stopped coordinator, goes back
to scan, and nothing else of the coordinator changes; another worker, waiting or not, is left alone (R452). A
transmission appends its record, with the class of service and the cut tail on a PCIe port (R456). The mark that stands
for a notification, which waiter is marked, that a row is a step of its own, that a count stays at 0 where more is taken
from it, and that a transmission alone sends any packet it is given, are the model's choice (log entries 32, 5, 65 and
66). -/
def Obligations.WorkersReleaseWakeAndTransmit : Prop :=
  ∀ (s : State),
    (∀ w p n, w < s.params.numWorkers → p < s.params.numPipes →
      ∃ t, exec (.coordRelease w p n) s = .next t ∧ t.pipe p = { s.pipe p with active := false } ∧
        t.worker w = { s.worker w with held := none, wstate := .scanning } ∧
        t.coord.pending = s.coord.pending - n ∧ (∀ p', p' ≠ p → t.pipe p' = s.pipe p') ∧
        (∀ w', w' ≠ w → t.worker w' = s.worker w') ∧ t = (s.setCoord { s.coord with
          pipes := t.coord.pipes, workers := t.coord.workers, pending := t.coord.pending }).setResult .none) ∧
    (∃ t, exec .coordPacketArrived s = .next t ∧
      t.coord = { s.coord with workers := t.coord.workers, pending := s.coord.pending + 1 } ∧
      ((∀ w < s.params.numWorkers, (s.worker w).wstate ≠ .waiting ∨ (s.worker w).notified = true) →
        ∀ w, t.worker w = s.worker w) ∧
      ((∃ w < s.params.numWorkers, (s.worker w).wstate = .waiting ∧ (s.worker w).notified = false) →
        ∃ w < s.params.numWorkers, (s.worker w).wstate = .waiting ∧ (s.worker w).notified = false ∧
          t.worker w = { s.worker w with notified := true } ∧ ∀ w', w' ≠ w → t.worker w' = s.worker w') ∧
      t = ((s.setCoord t.coord).setDraws t.draws).setResult .none) ∧
    (∀ w < s.params.numWorkers,
      ((s.worker w).wstate = .waiting → ((s.worker w).notified = true ∨ s.coord.run = false ∨ w = 0) →
        ∃ t, exec (.coordWaitForPackets w) s = .next t ∧
          t.worker w = { s.worker w with wstate := .scanning, notified := false } ∧
          (∀ w', w' ≠ w → t.worker w' = s.worker w') ∧
          t = (s.setCoord { s.coord with
            workers := t.coord.workers, threadsWaiting := s.coord.threadsWaiting - 1 }).setResult .none) ∧
      ((s.worker w).wstate = .waiting → (s.worker w).notified = false → s.coord.run = true → w ≠ 0 →
        exec (.coordWaitForPackets w) s = .next (s.setResult .none)) ∧
      ((s.worker w).wstate ≠ .waiting → exec (.coordWaitForPackets w) s = .next (s.setResult .none))) ∧
    (∀ pkt : Packet, let b := pkt.bytes
      exec (.coordTransmit pkt) s = .next ((s.setCoord { s.coord with txOut := s.coord.txOut ++
        [if isPciePort s.params pkt.port then
          .druRx s.params.chipId (b.take (b.length - 4)) (b.length - 4) (BitVec.ofNat 3 (b.headD 0).toNat)
         else .tx s.params.chipId (portMapOutbound s.params pkt.port) b b.length] }).setResult .none))

/-- Starting, stopping and waiting for idle: a blocked `WAIT_FOR_IDLE` returns when the condition holds,
counts a failed evaluation, and at the bound raises `ERR_WAIT_IDLE_BOUND` and, relaxed, returns; a blocked `STOP`
notifies again and returns when every worker is stopped (R437, R453, R455). The record of the commands that
still wait, and their evaluations as steps of the host, are the model's choice (log entries 33 and 5). -/
def Obligations.StartStopAndIdle : Prop :=
  ∀ (s : State),
    (∃ t, exec .start s = .next t ∧ t.coord.run = true ∧ t = (s.setCoord t.coord).setResult .none ∧
      (∀ p, t.pipe p = s.pipe p) ∧
      ∀ w < s.params.numWorkers, t.worker w =
        if (s.worker w).wstate = .stopped then { s.worker w with wstate := .scanning } else s.worker w) ∧
    (∃ t, exec .stop s = .next t ∧ t.coord.run = false ∧ t = (s.setCoord t.coord).setResult t.result ∧
      (∀ p, t.pipe p = s.pipe p) ∧
      (∀ w < s.params.numWorkers, t.worker w =
        if (s.worker w).wstate = .waiting then { s.worker w with notified := true } else s.worker w) ∧
      ((∀ w < s.params.numWorkers, (s.worker w).wstate = .stopped) →
        t.result = .none ∧ t.coord.stopping = false) ∧
      ((∃ w < s.params.numWorkers, (s.worker w).wstate ≠ .stopped) →
        t.result = .blocked ∧ t.coord.stopping = true)) ∧
    (let idle := s.coord.threadsWaiting = s.params.numWorkers ∧ s.coord.pending = 0 ∧
        s.params.preFifoEmpty = true;
      (idle → exec .waitForIdle s = .next (s.setResult .none)) ∧
      (¬ idle → exec .waitForIdle s = .next ((s.setCoord { s.coord with
        idleWaits := s.coord.idleWaits ++ [0] }).setResult .blocked)) ∧
      (∀ (l : Line) (rest : List Line) (act : AutoStep), s.agenda = l :: rest → l.body = .auto act →
        Running s →
        let s1 := enterAuto act (enterLine l rest s)
        let waits := fun (u : State) (ws : List Nat) => u.setCoord { s.coord with idleWaits := ws }
        let raised := s1.afterRaise none (.waitIdleBound s.params.waitIdleBound);
        (∀ k n, act = .waitPoll k → s.coord.idleWaits[k]? = some n →
          (idle → step s = .next ((waits s1 (s.coord.idleWaits.eraseIdx k)).setResult .none)) ∧
          (¬ idle → n < s.params.waitIdleBound →
            step s = .next ((waits s1 (s.coord.idleWaits.set k (n + 1))).setResult .blocked)) ∧
          (¬ idle → s.params.waitIdleBound ≤ n → s.strict.waitIdle = false → step s = .next raised) ∧
          (¬ idle → s.params.waitIdleBound ≤ n → s.strict.waitIdle = true →
            step s = .next ((waits raised (s.coord.idleWaits.eraseIdx k)).setResult .none))) ∧
        (act = .stopPoll → s.coord.stopping = true → s.coord.run = false → step s = exec .stop s1)))

/-! ### Stage cycle and activations -/

/-- A stage whose units are off and whose address distribution enables nothing is transparent: no RAM, no ALU record,
no counter, no table and no configuration changes, and the PHV is what the action function makes of an empty lookup.
Where the distribution addresses a counter and its stateful ALU, a selector ALU and a stats ALU, or some of them, the
cycle is their turns in this order: the counter's row, whose pointer replaces the stateful address or disables it; the
selector's row; the stateful ALU's row; the stats ALU's row, or the output of its address to the tEOP buses; then the
consumption of those buses; and the action function sees what they answered (R340, R526, R540, R541, R543). That it
does not see the data read at that consumption, and that the reserved bit of an address put on the tEOP buses is not
tested there, are the model's choice (log entries 56 and 70). -/
def Obligations.QuietStageIsTransparent : Prop :=
  ∀ (s : State) (p st : Nat), p < s.params.numPipes → st < s.params.numStages → QuietConfig s p st →
    let A := addrFn s.params p st s.act.phv (emptyLookup s.params)
    ((∀ b, (Store.get ({} : TeopBus) s.act.io.buses [b]).valid = false) → quietAddr A = true →
      ∃ t, exec (.stageCycle p st) s = .next t ∧ SameStores s t ∧ t.coord = s.coord ∧ t.err = s.err ∧
        t.act.phv = quietPhv s.params st s.act.phv ∧ t.act.io.t = s.act.io.t ∧
        ∀ b, (Store.get ({} : TeopBus) t.act.io.buses [b]).valid = false) ∧
    (∀ (c e a : Nat) (raw : BitVec 32) (sel salu stats : AluOut) (s1 s2 s3 s4 s5 : State),
      c < s.params.numCtrs → c < s.params.numSalu → e < s.params.numSelAlu → a < s.params.numStatsAlu →
      (∀ k, k ≠ c → A.ctrOp.getD k .none = .none ∧ (A.ma.getD k 0).getLsbD 31 = false) →
      (∀ k, k ≠ e → (A.selMa.getD k 0).getLsbD 31 = false) →
      (∀ k, k ≠ a → (A.sa.getD k 0).getLsbD 23 = false) → (∀ x ∈ A.me, x = none) →
      (∀ f, decodeMa (A.selMa.getD e 0).toNat ≠ .ok (.saluExec f)
        ∧ decodeMa (A.selMa.getD e 0).toNat ≠ .ok (.maCfgRd f)) →
      (∀ f, decodeMa raw.toNat ≠ .ok (.selExec f)) →
      CounterTurn s s1 p st c (A.ctrOp.getD c .none) (A.ma.getD c 0) raw →
      AluTurn s1 s2 p st e (aluInput s p st .sel e) (decodeMa (A.selMa.getD e 0).toNat) sel →
      AluTurn s2 s3 p st c (aluInput s p st .salu c) (decodeMa raw.toNat) salu →
      StatsTurn s3 s4 p st a (A.saLt.getD a 0) (A.sa.getD a 0) stats →
      exec .teopConsume (s4.inTurn p st 0 0) = .next s5 → Running s5 →
      let off := noOuts s.params
      let outs : AluOuts := { sel := off.sel.set e sel, salu := off.salu.set c salu,
                              stats := off.stats.set a stats };
      ∃ t, exec (.stageCycle p st) s = .next t ∧ SameStores s5 t ∧ t.coord = s5.coord ∧ t.err = s5.err ∧
        t.act.io = s5.act.io ∧ t.act.phv =
          phvNormal s.params (actionFn s.params st s.act.phv (emptyLookup s.params) outs))

/-- On a quiet pipe an egress activation walks every stage, drops what is left on the tEOP buses, transmits the
deparsed packet and touches no store; an ingress activation hands every packet that `TmFn` returns, the same one and
fresh ones, to its pipe; processing does the activation of each held packet, the input packet and a `RESUBMIT` packet
at ingress and any other at egress, and releases the pipe (R390, R441 to R447, R456). That the packet `TmFn` marks as
the same one keeps its identity, which identities fresh ones take, that an activation alone takes any packet, and that
the pending count stays at 0 where more is taken from it, are the model's choice (log entries 31, 66 and 65). -/
def Obligations.ActivationsDeliverTheirPackets : Prop :=
  (∀ (s : State) (p : Nat) (pkt : Packet), QuietPipe s p pkt →
    let out := quietOut s pkt
    let news := deliveredAll s s.coord.nextId [pkt]
    let walked := fun (t : State) (ps : List Packet) => t.act.io.buses = [] ∧ SameStores s t ∧ t.err = s.err ∧
      ∃ g, ∀ q, t.pipe q = { s.pipe q with
        cycle := if q = p then (s.pipe q).cycle + g + 1 else (s.pipe q).cycle
        qTm := (s.pipe q).qTm ++ ps.filter (fun x => x.pipe == q) };
    (∃ t, exec (.coordEgressActivation p pkt) s = .next t ∧ walked t [] ∧
      t.coord = { s.coord with pipes := t.coord.pipes, txOut := s.coord.txOut ++ [txRecord s.params out] }) ∧
    ((∀ o ∈ tmFn s.params out, o.pipe < s.params.numPipes) →
      ∃ t, exec (.coordIngressActivation p pkt) s = .next t ∧ walked t news ∧
        t.coord.txOut = s.coord.txOut ∧ t.coord.pending = s.coord.pending + news.length ∧
        t.coord.nextId = s.coord.nextId + freshCount (tmFn s.params out))) ∧
  (∀ (s : State) (w : Nat) (h : Held), w < s.params.numWorkers → (s.worker w).wstate = .processing →
    (s.worker w).held = some h → (∀ x ∈ heldPackets (some h), QuietPipe s h.pipe x) →
    (∀ x ∈ ingressRail h, ∀ o ∈ tmFn s.params (quietOut s x), o.pipe < s.params.numPipes) →
    let news := deliveredAll s s.coord.nextId (ingressRail h)
    let n := (heldPackets (some h)).length
    ∃ t g, exec (.coordWorkerProcess w) s = .next t ∧ SameStores s t ∧ t.err = s.err ∧
      (∀ q, t.pipe q = { s.pipe q with
        cycle := if q = h.pipe then (s.pipe q).cycle + g + n else (s.pipe q).cycle
        active := if q = h.pipe then false else (s.pipe q).active
        qTm := (s.pipe q).qTm ++ news.filter (fun x => x.pipe == q) }) ∧
      t.coord.txOut = s.coord.txOut ++ (egressRail h).map (fun x => txRecord s.params (quietOut s x)) ∧
      t.coord.pending = s.coord.pending + news.length - n ∧
      t.worker w = { s.worker w with held := none, wstate := .scanning } ∧
      ∀ w', w' ≠ w → t.worker w' = s.worker w' ∨ t.worker w' = { s.worker w' with notified := true })

/-! ### Host commands -/

/-- The configuration interface: a part written is read back cut to its width, no other field changes and the status
is OK; a write of a tEOP field sets the bus-mask caches of its stage, and no others, to none, a write of a sweep field
recomputes the interval masks, and nothing else changes. Host-writable state is written at part 0: a counter's flag
byte cut to its low four bits, its pointers to 23 bits, its fill level, a shadow count. A name, an index or a part
that does not exist answers the failure status with the name and changes nothing. In any state `GET_FIELD` answers,
changes nothing, and reads the parts of a field, the pending interrupts, the error log, the counters, the shadows and
the captures (R46, R92, R203, R374, R385, R471, R476, R485, R490, R494). A strictness flag is set by its key and a
boolean spelling, any other key or spelling is thrown to the host without effect (R486). How a field is cut into
parts, the cuts of a written counter, which shadow pairs exist, that the pending interrupts and the error log are read
whole, what a write observes, that `SET_CONFIG` writes in every state, and that the error thrown is the command's
result are the model's choice (log entries 12, 44, 63, 69, 28, 38 and 37). -/
def Obligations.ConfigurationReadsBack : Prop :=
  ∀ (s : State) (name : FieldName) (idx : List Nat) (part : Nat) (v : BitVec 64),
    (∀ parts width, fieldParts s.params name idx = some parts → parts[part]? = some width →
      ∃ t, exec (.setField name idx part v) s = .next t ∧ t.result = .ok ∧
        exec (.getField name idx part) t = .next (t.setResult (.field (BitVec.ofNat 64 (v.toNat % 2 ^ width)))) ∧
        (∀ n k, (n, k) ≠ (name, idx) → t.field n k = s.field n k) ∧
        t = (((s.setCfg t.cfg).setTeop t.teop).setSwp { s.swp with
          maskGlobal := t.swp.maskGlobal, maskStage := t.swp.maskStage }).setResult .ok ∧
        (let cached := fun (u : State) (k : List Nat) =>
            (Store.get none u.teop.hdr k, Store.get none u.teop.teop k);
          (name ∈ [FieldName.ltMeterAlu, .ltStatsAlu, .ltMatchDependent, .busHdrMeter, .busHdrStats,
              .busTeopMeter, .busTeopStats, .teopDelayCfg] →
            ∀ k, cached t k = if k.take 2 = idx.take 2 then (none, none) else cached s k) ∧
          (name ∉ [FieldName.ltMeterAlu, .ltStatsAlu, .ltMatchDependent, .busHdrMeter, .busHdrStats,
              .busTeopMeter, .busTeopStats, .teopDelayCfg] → t.teop = s.teop)) ∧
        (name = .sweepInterval ∨ name = .sweepActive → MasksHold t) ∧
        (name ≠ .sweepInterval → name ≠ .sweepActive → t.swp = s.swp)) ∧
    (∀ parts, fieldParts s.params name idx = some parts → parts.length ≤ part →
      exec (.setField name idx part v) s = .next (s.setResult (.commFail name))) ∧
    (fieldParts s.params name idx = none → writeState s name idx v = none ∨ part ≠ 0 →
      exec (.setField name idx part v) s = .next (s.setResult (.commFail name))) ∧
    (∀ p < s.params.numPipes, ∀ st < s.params.numStages,
      let sets := fun (n : FieldName) (k : List Nat) (t : State) =>
        exec (.setField n k 0 v) s = .next (t.setResult .ok);
      (∀ c < s.params.numCtrs, let u := s.counter p st c
        sets .ctrFlags [p, st, c] (s.putCounter p st c { u with flags := BitVec.ofNat 8 (v.toNat % 16) }) ∧
        sets .ctrValue [p, st, c] (s.putCounter p st c { u with value := v.toNat % 2 ^ 23 }) ∧
        sets .ctrPopValue [p, st, c] (s.putCounter p st c { u with popValue := v.toNat % 2 ^ 23 }) ∧
        sets .ctrFill [p, st, c] (s.putCounter p st c { u with fill := v.toNat })) ∧
      (∀ a < s.params.numStatsAlu, ∀ w < s.params.statsRamWords, ∀ k < 8, let u := s.shadow p st a w k
        sets .shadowPkts [p, st, a, w, k] (s.putShadow p st a w k { u with pkts := v }) ∧
        sets .shadowBytes [p, st, a, w, k] (s.putShadow p st a w k { u with bytes := v }))) ∧
    (let gets := fun (n : FieldName) (k : List Nat) (j : Nat) (r : Ret) =>
        exec (.getField n k j) s = answers (s.setResult r);
      (∃ r, gets name idx part r) ∧
      (∀ parts, fieldParts s.params name idx = some parts →
        (part < parts.length → gets name idx part (.field (BitVec.ofNat 64 (s.field name idx / 2 ^ (64 * part))))) ∧
        (parts.length ≤ part → gets name idx part (.commFail name))) ∧
      (fieldParts s.params name idx = none → readState s name idx part = none → name ≠ .irqPending →
        name ≠ .errorLog → gets name idx part (.commFail name)) ∧
      gets .irqPending [] 0 (.irqs s.err.irq) ∧ gets .errorLog [] 0 (.errors s.err.log) ∧
      (∀ p < s.params.numPipes, ∀ st < s.params.numStages,
        (∀ c < s.params.numCtrs, let u := s.counter p st c
          gets .ctrFlags [p, st, c] 0 (.field (u.flags.setWidth 64)) ∧
          gets .ctrValue [p, st, c] 0 (.field (BitVec.ofNat 64 u.value)) ∧
          gets .ctrPopValue [p, st, c] 0 (.field (BitVec.ofNat 64 u.popValue)) ∧
          gets .ctrFill [p, st, c] 0 (.field (BitVec.ofNat 64 u.fill))) ∧
        (∀ a < s.params.numStatsAlu, ∀ w < s.params.statsRamWords, ∀ k < 8,
          gets .shadowPkts [p, st, a, w, k] 0 (.field (s.shadow p st a w k).pkts) ∧
          gets .shadowBytes [p, st, a, w, k] 0 (.field (s.shadow p st a w k).bytes)) ∧
        (∀ g : Gress, let u := s.snapUnit p st g
          let b := g.ctorIdx
          gets .snapState [p, st, b] 0 (.field (BitVec.ofNat 64 u.state.ctorIdx)) ∧
          gets .dpPktVersion [p, st, b] 0 (.field (u.dpVersion.setWidth 64)) ∧
          gets .dpThreadActive [p, st, b] 0 (.field (u.dpThreadActive.setWidth 64)) ∧
          gets .dpGhost [p, st, b] 0 (.field (BitVec.ofNat 64 u.dpGhost.toNat)) ∧
          gets .capNextTable [p, st, b] 0 (.field (u.capNextTable.setWidth 64)) ∧
          (∀ r < s.params.numRows, ∀ bus < s.params.numMatchBuses, gets .capBusHitAddr [p, st, b, r, bus] 0
            (.field ((Store.get 0 u.capBusHit [r, bus]).setWidth 64))) ∧
          (0 < s.params.numLt → gets .capLtHit [p, st, b] 0 (.field (BitVec.ofNat 64 u.capLtHit)) ∧
            gets .capLtInhibit [p, st, b] 0 (.field (BitVec.ofNat 64 u.capLtInhibit))) ∧
          (∀ i < phvCount s.params, gets .capPhv [p, st, b, i] 0
            (.field (BitVec.ofNat 64 (Store.get 0 u.capPhv [i]))))))) ∧
    (∀ key value,
      (∀ f b, setStrict s.strict key b = some f → parseBool value = some b →
        exec (.setConfig key value) s = .next ((s.setStrict f).setResult .none)) ∧
      (setStrict s.strict key true = none →
        exec (.setConfig key value) s = .next (s.setResult (.hostError (.unknownConfigKey key)))) ∧
      (setStrict s.strict key true ≠ none → parseBool value = none →
        exec (.setConfig key value) s = .next (s.setResult (.hostError (.badConfigValue key value)))))

/-- The host's RAM accesses: in any state a read in range answers the word or the entry and changes nothing; a
word in range is written, reads back, and every other word of every space reads as before; a TCAM and a gateway
entry likewise; an address out of range raises `ERR_ADDR_RANGE` and, relaxed, a write is dropped and a read is
zero (R70, R71). That an address whose stage, row, column or ALU does not exist is out of range is the model's
choice (log entry 50). -/
def Obligations.RamAccessesReadBack : Prop :=
  ∀ (s : State) (a : RamAddr),
    (ramInRange s.params a = true → exec (.ramRead a) s = .next (s.setResult (.ram (match a.space with
      | .tcam => .tcam (s.tcamEntry a.pipe a.stage a.index)
      | .gw => .gw (s.gwEntry a.pipe a.stage a.unit a.index)
      | _ => .word (s.mem.read a))))) ∧
    (∀ w, a.space ≠ .tcam → a.space ≠ .gw → ramInRange s.params a = true →
      ∃ t, exec (.ramWrite a (.word w)) s = .next t ∧ t = (s.setMem t.mem).setResult .none ∧
        exec (.ramRead a) t = .next (t.setResult (.ram (.word w))) ∧
        ∀ b, b.key ≠ a.key → t.mem.read b = s.mem.read b) ∧
    (∀ e : TcamEntry, a.space = .tcam → ramInRange s.params a = true →
      e.w0 < 2 ^ s.params.tcamW → e.w1 < 2 ^ s.params.tcamW →
      ∃ t, exec (.ramWrite a (.tcam e)) s = .next t ∧ t = (s.setTcam t.tcam).setResult .none ∧
        exec (.ramRead a) t = .next (t.setResult (.ram (.tcam e))) ∧
        ∀ p st i, [p, st, i] ≠ [a.pipe, a.stage, a.index] → t.tcamEntry p st i = s.tcamEntry p st i) ∧
    (∀ e : GwEntry, a.space = .gw → ramInRange s.params a = true →
      e.stored < 2 ^ s.params.gwW → e.m01 < 2 ^ s.params.gwW → e.m10 < 2 ^ s.params.gwW →
      ∃ t, exec (.ramWrite a (.gw e)) s = .next t ∧ t = (s.setGw t.gw).setResult .none ∧
        exec (.ramRead a) t = .next (t.setResult (.ram (.gw e))) ∧
        ∀ p st r i, [p, st, r, i] ≠ [a.pipe, a.stage, a.unit, a.index] →
          t.gwEntry p st r i = s.gwEntry p st r i) ∧
    (∀ w, a.space ≠ .tcam → a.space ≠ .gw → ramInRange s.params a = false →
      let err := s.afterRaise (some (a.pipe, a.stage)) (.addrRange a)
      (s.strict.sramVpn = false → exec (.ramWrite a (.word w)) s = .next err ∧ exec (.ramRead a) s = .next err) ∧
      (s.strict.sramVpn = true → exec (.ramWrite a (.word w)) s = .next (err.setResult .none) ∧
        exec (.ramRead a) s = .next (err.setResult (.ram (.word 0))))) ∧
    (∀ x, ((∃ e, a.space = .tcam ∧ x = RamVal.tcam e) ∨ ∃ e, a.space = .gw ∧ x = RamVal.gw e) →
      ramInRange s.params a = false →
      let err := s.afterRaise (some (a.pipe, a.stage)) (.addrRange a)
      (s.strict.sramVpn = false → exec (.ramWrite a x) s = .next err ∧ exec (.ramRead a) s = .next err) ∧
      (s.strict.sramVpn = true → exec (.ramWrite a x) s = .next (err.setResult .none) ∧
        exec (.ramRead a) s = .next (err.setResult (.ram (if a.space = .tcam then .tcam {} else .gw {})))))

/-- Draining takes the oldest eviction, or none; acknowledging removes the one source from the pending set
and no other (R202, R495). -/
def Obligations.EvictionsDrainAndInterruptsClear : Prop :=
  ∀ (s : State) (p st a : Nat), p < s.params.numPipes → st < s.params.numStages →
    a < s.params.numStatsAlu →
    (∀ e rest, s.stash p st a = e :: rest → exec (.drainEvict p st a) s =
      .next ((s.putStash p st a rest).setResult (.evicted (some e)))) ∧
    (s.stash p st a = [] → exec (.drainEvict p st a) s = .next (s.setResult (.evicted none))) ∧
    (∀ q : IrqSource, ∃ t, exec (.irqAck q) s = .next t ∧
      Store.get false t.err.irq (irqKey q) = false ∧
      (∀ q', q' ≠ q → Store.get false t.err.irq (irqKey q') = Store.get false s.err.irq (irqKey q')) ∧
      t.err.log = s.err.log ∧ t.err.faulted = s.err.faulted ∧ t = (s.setErr t.err).setResult .none)
end

