-- ==== Sys2Proof/Laws/State.lean ====
section
/-! SUPPORT. What each named update of the state writes and what it leaves alone. -/

namespace Sys2Proof.Machine

variable (s : State)

@[simp] theorem State.setStrict_params (v : Strict) : (s.setStrict v).params = s.params := rfl
@[simp] theorem State.setStrict_strict (v : Strict) : (s.setStrict v).strict = v := rfl
@[simp] theorem State.setStrict_cfg (v : Strict) : (s.setStrict v).cfg = s.cfg := rfl
@[simp] theorem State.setStrict_mem (v : Strict) : (s.setStrict v).mem = s.mem := rfl
@[simp] theorem State.setStrict_tcam (v : Strict) : (s.setStrict v).tcam = s.tcam := rfl
@[simp] theorem State.setStrict_gw (v : Strict) : (s.setStrict v).gw = s.gw := rfl
@[simp] theorem State.setStrict_row (v : Strict) : (s.setStrict v).row = s.row := rfl
@[simp] theorem State.setStrict_stats (v : Strict) : (s.setStrict v).stats = s.stats := rfl
@[simp] theorem State.setStrict_sel (v : Strict) : (s.setStrict v).sel = s.sel := rfl
@[simp] theorem State.setStrict_salu (v : Strict) : (s.setStrict v).salu = s.salu := rfl
@[simp] theorem State.setStrict_ctr (v : Strict) : (s.setStrict v).ctr = s.ctr := rfl
@[simp] theorem State.setStrict_snap (v : Strict) : (s.setStrict v).snap = s.snap := rfl
@[simp] theorem State.setStrict_teop (v : Strict) : (s.setStrict v).teop = s.teop := rfl
@[simp] theorem State.setStrict_swp (v : Strict) : (s.setStrict v).swp = s.swp := rfl
@[simp] theorem State.setStrict_coord (v : Strict) : (s.setStrict v).coord = s.coord := rfl
@[simp] theorem State.setStrict_err (v : Strict) : (s.setStrict v).err = s.err := rfl
@[simp] theorem State.setStrict_act (v : Strict) : (s.setStrict v).act = s.act := rfl
@[simp] theorem State.setStrict_result (v : Strict) : (s.setStrict v).result = s.result := rfl
@[simp] theorem State.setStrict_draws (v : Strict) : (s.setStrict v).draws = s.draws := rfl
@[simp] theorem State.setStrict_agenda (v : Strict) : (s.setStrict v).agenda = s.agenda := rfl

@[simp] theorem State.setCfg_params (v : Store Nat) : (s.setCfg v).params = s.params := rfl
@[simp] theorem State.setCfg_strict (v : Store Nat) : (s.setCfg v).strict = s.strict := rfl
@[simp] theorem State.setCfg_cfg (v : Store Nat) : (s.setCfg v).cfg = v := rfl
@[simp] theorem State.setCfg_mem (v : Store Nat) : (s.setCfg v).mem = s.mem := rfl
@[simp] theorem State.setCfg_tcam (v : Store Nat) : (s.setCfg v).tcam = s.tcam := rfl
@[simp] theorem State.setCfg_gw (v : Store Nat) : (s.setCfg v).gw = s.gw := rfl
@[simp] theorem State.setCfg_row (v : Store Nat) : (s.setCfg v).row = s.row := rfl
@[simp] theorem State.setCfg_stats (v : Store Nat) : (s.setCfg v).stats = s.stats := rfl
@[simp] theorem State.setCfg_sel (v : Store Nat) : (s.setCfg v).sel = s.sel := rfl
@[simp] theorem State.setCfg_salu (v : Store Nat) : (s.setCfg v).salu = s.salu := rfl
@[simp] theorem State.setCfg_ctr (v : Store Nat) : (s.setCfg v).ctr = s.ctr := rfl
@[simp] theorem State.setCfg_snap (v : Store Nat) : (s.setCfg v).snap = s.snap := rfl
@[simp] theorem State.setCfg_teop (v : Store Nat) : (s.setCfg v).teop = s.teop := rfl
@[simp] theorem State.setCfg_swp (v : Store Nat) : (s.setCfg v).swp = s.swp := rfl
@[simp] theorem State.setCfg_coord (v : Store Nat) : (s.setCfg v).coord = s.coord := rfl
@[simp] theorem State.setCfg_err (v : Store Nat) : (s.setCfg v).err = s.err := rfl
@[simp] theorem State.setCfg_act (v : Store Nat) : (s.setCfg v).act = s.act := rfl
@[simp] theorem State.setCfg_result (v : Store Nat) : (s.setCfg v).result = s.result := rfl
@[simp] theorem State.setCfg_draws (v : Store Nat) : (s.setCfg v).draws = s.draws := rfl
@[simp] theorem State.setCfg_agenda (v : Store Nat) : (s.setCfg v).agenda = s.agenda := rfl

@[simp] theorem State.setMem_params (v : Memory) : (s.setMem v).params = s.params := rfl
@[simp] theorem State.setMem_strict (v : Memory) : (s.setMem v).strict = s.strict := rfl
@[simp] theorem State.setMem_cfg (v : Memory) : (s.setMem v).cfg = s.cfg := rfl
@[simp] theorem State.setMem_mem (v : Memory) : (s.setMem v).mem = v := rfl
@[simp] theorem State.setMem_tcam (v : Memory) : (s.setMem v).tcam = s.tcam := rfl
@[simp] theorem State.setMem_gw (v : Memory) : (s.setMem v).gw = s.gw := rfl
@[simp] theorem State.setMem_row (v : Memory) : (s.setMem v).row = s.row := rfl
@[simp] theorem State.setMem_stats (v : Memory) : (s.setMem v).stats = s.stats := rfl
@[simp] theorem State.setMem_sel (v : Memory) : (s.setMem v).sel = s.sel := rfl
@[simp] theorem State.setMem_salu (v : Memory) : (s.setMem v).salu = s.salu := rfl
@[simp] theorem State.setMem_ctr (v : Memory) : (s.setMem v).ctr = s.ctr := rfl
@[simp] theorem State.setMem_snap (v : Memory) : (s.setMem v).snap = s.snap := rfl
@[simp] theorem State.setMem_teop (v : Memory) : (s.setMem v).teop = s.teop := rfl
@[simp] theorem State.setMem_swp (v : Memory) : (s.setMem v).swp = s.swp := rfl
@[simp] theorem State.setMem_coord (v : Memory) : (s.setMem v).coord = s.coord := rfl
@[simp] theorem State.setMem_err (v : Memory) : (s.setMem v).err = s.err := rfl
@[simp] theorem State.setMem_act (v : Memory) : (s.setMem v).act = s.act := rfl
@[simp] theorem State.setMem_result (v : Memory) : (s.setMem v).result = s.result := rfl
@[simp] theorem State.setMem_draws (v : Memory) : (s.setMem v).draws = s.draws := rfl
@[simp] theorem State.setMem_agenda (v : Memory) : (s.setMem v).agenda = s.agenda := rfl

@[simp] theorem State.setTcam_params (v : Store TcamEntry) : (s.setTcam v).params = s.params := rfl
@[simp] theorem State.setTcam_strict (v : Store TcamEntry) : (s.setTcam v).strict = s.strict := rfl
@[simp] theorem State.setTcam_cfg (v : Store TcamEntry) : (s.setTcam v).cfg = s.cfg := rfl
@[simp] theorem State.setTcam_mem (v : Store TcamEntry) : (s.setTcam v).mem = s.mem := rfl
@[simp] theorem State.setTcam_tcam (v : Store TcamEntry) : (s.setTcam v).tcam = v := rfl
@[simp] theorem State.setTcam_gw (v : Store TcamEntry) : (s.setTcam v).gw = s.gw := rfl
@[simp] theorem State.setTcam_row (v : Store TcamEntry) : (s.setTcam v).row = s.row := rfl
@[simp] theorem State.setTcam_stats (v : Store TcamEntry) : (s.setTcam v).stats = s.stats := rfl
@[simp] theorem State.setTcam_sel (v : Store TcamEntry) : (s.setTcam v).sel = s.sel := rfl
@[simp] theorem State.setTcam_salu (v : Store TcamEntry) : (s.setTcam v).salu = s.salu := rfl
@[simp] theorem State.setTcam_ctr (v : Store TcamEntry) : (s.setTcam v).ctr = s.ctr := rfl
@[simp] theorem State.setTcam_snap (v : Store TcamEntry) : (s.setTcam v).snap = s.snap := rfl
@[simp] theorem State.setTcam_teop (v : Store TcamEntry) : (s.setTcam v).teop = s.teop := rfl
@[simp] theorem State.setTcam_swp (v : Store TcamEntry) : (s.setTcam v).swp = s.swp := rfl
@[simp] theorem State.setTcam_coord (v : Store TcamEntry) : (s.setTcam v).coord = s.coord := rfl
@[simp] theorem State.setTcam_err (v : Store TcamEntry) : (s.setTcam v).err = s.err := rfl
@[simp] theorem State.setTcam_act (v : Store TcamEntry) : (s.setTcam v).act = s.act := rfl
@[simp] theorem State.setTcam_result (v : Store TcamEntry) : (s.setTcam v).result = s.result := rfl
@[simp] theorem State.setTcam_draws (v : Store TcamEntry) : (s.setTcam v).draws = s.draws := rfl
@[simp] theorem State.setTcam_agenda (v : Store TcamEntry) : (s.setTcam v).agenda = s.agenda := rfl

@[simp] theorem State.setGw_params (v : Store GwEntry) : (s.setGw v).params = s.params := rfl
@[simp] theorem State.setGw_strict (v : Store GwEntry) : (s.setGw v).strict = s.strict := rfl
@[simp] theorem State.setGw_cfg (v : Store GwEntry) : (s.setGw v).cfg = s.cfg := rfl
@[simp] theorem State.setGw_mem (v : Store GwEntry) : (s.setGw v).mem = s.mem := rfl
@[simp] theorem State.setGw_tcam (v : Store GwEntry) : (s.setGw v).tcam = s.tcam := rfl
@[simp] theorem State.setGw_gw (v : Store GwEntry) : (s.setGw v).gw = v := rfl
@[simp] theorem State.setGw_row (v : Store GwEntry) : (s.setGw v).row = s.row := rfl
@[simp] theorem State.setGw_stats (v : Store GwEntry) : (s.setGw v).stats = s.stats := rfl
@[simp] theorem State.setGw_sel (v : Store GwEntry) : (s.setGw v).sel = s.sel := rfl
@[simp] theorem State.setGw_salu (v : Store GwEntry) : (s.setGw v).salu = s.salu := rfl
@[simp] theorem State.setGw_ctr (v : Store GwEntry) : (s.setGw v).ctr = s.ctr := rfl
@[simp] theorem State.setGw_snap (v : Store GwEntry) : (s.setGw v).snap = s.snap := rfl
@[simp] theorem State.setGw_teop (v : Store GwEntry) : (s.setGw v).teop = s.teop := rfl
@[simp] theorem State.setGw_swp (v : Store GwEntry) : (s.setGw v).swp = s.swp := rfl
@[simp] theorem State.setGw_coord (v : Store GwEntry) : (s.setGw v).coord = s.coord := rfl
@[simp] theorem State.setGw_err (v : Store GwEntry) : (s.setGw v).err = s.err := rfl
@[simp] theorem State.setGw_act (v : Store GwEntry) : (s.setGw v).act = s.act := rfl
@[simp] theorem State.setGw_result (v : Store GwEntry) : (s.setGw v).result = s.result := rfl
@[simp] theorem State.setGw_draws (v : Store GwEntry) : (s.setGw v).draws = s.draws := rfl
@[simp] theorem State.setGw_agenda (v : Store GwEntry) : (s.setGw v).agenda = s.agenda := rfl

@[simp] theorem State.setRow_params (v : RowState) : (s.setRow v).params = s.params := rfl
@[simp] theorem State.setRow_strict (v : RowState) : (s.setRow v).strict = s.strict := rfl
@[simp] theorem State.setRow_cfg (v : RowState) : (s.setRow v).cfg = s.cfg := rfl
@[simp] theorem State.setRow_mem (v : RowState) : (s.setRow v).mem = s.mem := rfl
@[simp] theorem State.setRow_tcam (v : RowState) : (s.setRow v).tcam = s.tcam := rfl
@[simp] theorem State.setRow_gw (v : RowState) : (s.setRow v).gw = s.gw := rfl
@[simp] theorem State.setRow_row (v : RowState) : (s.setRow v).row = v := rfl
@[simp] theorem State.setRow_stats (v : RowState) : (s.setRow v).stats = s.stats := rfl
@[simp] theorem State.setRow_sel (v : RowState) : (s.setRow v).sel = s.sel := rfl
@[simp] theorem State.setRow_salu (v : RowState) : (s.setRow v).salu = s.salu := rfl
@[simp] theorem State.setRow_ctr (v : RowState) : (s.setRow v).ctr = s.ctr := rfl
@[simp] theorem State.setRow_snap (v : RowState) : (s.setRow v).snap = s.snap := rfl
@[simp] theorem State.setRow_teop (v : RowState) : (s.setRow v).teop = s.teop := rfl
@[simp] theorem State.setRow_swp (v : RowState) : (s.setRow v).swp = s.swp := rfl
@[simp] theorem State.setRow_coord (v : RowState) : (s.setRow v).coord = s.coord := rfl
@[simp] theorem State.setRow_err (v : RowState) : (s.setRow v).err = s.err := rfl
@[simp] theorem State.setRow_act (v : RowState) : (s.setRow v).act = s.act := rfl
@[simp] theorem State.setRow_result (v : RowState) : (s.setRow v).result = s.result := rfl
@[simp] theorem State.setRow_draws (v : RowState) : (s.setRow v).draws = s.draws := rfl
@[simp] theorem State.setRow_agenda (v : RowState) : (s.setRow v).agenda = s.agenda := rfl

@[simp] theorem State.setStats_params (v : StatsState) : (s.setStats v).params = s.params := rfl
@[simp] theorem State.setStats_strict (v : StatsState) : (s.setStats v).strict = s.strict := rfl
@[simp] theorem State.setStats_cfg (v : StatsState) : (s.setStats v).cfg = s.cfg := rfl
@[simp] theorem State.setStats_mem (v : StatsState) : (s.setStats v).mem = s.mem := rfl
@[simp] theorem State.setStats_tcam (v : StatsState) : (s.setStats v).tcam = s.tcam := rfl
@[simp] theorem State.setStats_gw (v : StatsState) : (s.setStats v).gw = s.gw := rfl
@[simp] theorem State.setStats_row (v : StatsState) : (s.setStats v).row = s.row := rfl
@[simp] theorem State.setStats_stats (v : StatsState) : (s.setStats v).stats = v := rfl
@[simp] theorem State.setStats_sel (v : StatsState) : (s.setStats v).sel = s.sel := rfl
@[simp] theorem State.setStats_salu (v : StatsState) : (s.setStats v).salu = s.salu := rfl
@[simp] theorem State.setStats_ctr (v : StatsState) : (s.setStats v).ctr = s.ctr := rfl
@[simp] theorem State.setStats_snap (v : StatsState) : (s.setStats v).snap = s.snap := rfl
@[simp] theorem State.setStats_teop (v : StatsState) : (s.setStats v).teop = s.teop := rfl
@[simp] theorem State.setStats_swp (v : StatsState) : (s.setStats v).swp = s.swp := rfl
@[simp] theorem State.setStats_coord (v : StatsState) : (s.setStats v).coord = s.coord := rfl
@[simp] theorem State.setStats_err (v : StatsState) : (s.setStats v).err = s.err := rfl
@[simp] theorem State.setStats_act (v : StatsState) : (s.setStats v).act = s.act := rfl
@[simp] theorem State.setStats_result (v : StatsState) : (s.setStats v).result = s.result := rfl
@[simp] theorem State.setStats_draws (v : StatsState) : (s.setStats v).draws = s.draws := rfl
@[simp] theorem State.setStats_agenda (v : StatsState) : (s.setStats v).agenda = s.agenda := rfl

@[simp] theorem State.setSel_params (v : Store SelLast) : (s.setSel v).params = s.params := rfl
@[simp] theorem State.setSel_strict (v : Store SelLast) : (s.setSel v).strict = s.strict := rfl
@[simp] theorem State.setSel_cfg (v : Store SelLast) : (s.setSel v).cfg = s.cfg := rfl
@[simp] theorem State.setSel_mem (v : Store SelLast) : (s.setSel v).mem = s.mem := rfl
@[simp] theorem State.setSel_tcam (v : Store SelLast) : (s.setSel v).tcam = s.tcam := rfl
@[simp] theorem State.setSel_gw (v : Store SelLast) : (s.setSel v).gw = s.gw := rfl
@[simp] theorem State.setSel_row (v : Store SelLast) : (s.setSel v).row = s.row := rfl
@[simp] theorem State.setSel_stats (v : Store SelLast) : (s.setSel v).stats = s.stats := rfl
@[simp] theorem State.setSel_sel (v : Store SelLast) : (s.setSel v).sel = v := rfl
@[simp] theorem State.setSel_salu (v : Store SelLast) : (s.setSel v).salu = s.salu := rfl
@[simp] theorem State.setSel_ctr (v : Store SelLast) : (s.setSel v).ctr = s.ctr := rfl
@[simp] theorem State.setSel_snap (v : Store SelLast) : (s.setSel v).snap = s.snap := rfl
@[simp] theorem State.setSel_teop (v : Store SelLast) : (s.setSel v).teop = s.teop := rfl
@[simp] theorem State.setSel_swp (v : Store SelLast) : (s.setSel v).swp = s.swp := rfl
@[simp] theorem State.setSel_coord (v : Store SelLast) : (s.setSel v).coord = s.coord := rfl
@[simp] theorem State.setSel_err (v : Store SelLast) : (s.setSel v).err = s.err := rfl
@[simp] theorem State.setSel_act (v : Store SelLast) : (s.setSel v).act = s.act := rfl
@[simp] theorem State.setSel_result (v : Store SelLast) : (s.setSel v).result = s.result := rfl
@[simp] theorem State.setSel_draws (v : Store SelLast) : (s.setSel v).draws = s.draws := rfl
@[simp] theorem State.setSel_agenda (v : Store SelLast) : (s.setSel v).agenda = s.agenda := rfl

@[simp] theorem State.setSalu_params (v : SaluState) : (s.setSalu v).params = s.params := rfl
@[simp] theorem State.setSalu_strict (v : SaluState) : (s.setSalu v).strict = s.strict := rfl
@[simp] theorem State.setSalu_cfg (v : SaluState) : (s.setSalu v).cfg = s.cfg := rfl
@[simp] theorem State.setSalu_mem (v : SaluState) : (s.setSalu v).mem = s.mem := rfl
@[simp] theorem State.setSalu_tcam (v : SaluState) : (s.setSalu v).tcam = s.tcam := rfl
@[simp] theorem State.setSalu_gw (v : SaluState) : (s.setSalu v).gw = s.gw := rfl
@[simp] theorem State.setSalu_row (v : SaluState) : (s.setSalu v).row = s.row := rfl
@[simp] theorem State.setSalu_stats (v : SaluState) : (s.setSalu v).stats = s.stats := rfl
@[simp] theorem State.setSalu_sel (v : SaluState) : (s.setSalu v).sel = s.sel := rfl
@[simp] theorem State.setSalu_salu (v : SaluState) : (s.setSalu v).salu = v := rfl
@[simp] theorem State.setSalu_ctr (v : SaluState) : (s.setSalu v).ctr = s.ctr := rfl
@[simp] theorem State.setSalu_snap (v : SaluState) : (s.setSalu v).snap = s.snap := rfl
@[simp] theorem State.setSalu_teop (v : SaluState) : (s.setSalu v).teop = s.teop := rfl
@[simp] theorem State.setSalu_swp (v : SaluState) : (s.setSalu v).swp = s.swp := rfl
@[simp] theorem State.setSalu_coord (v : SaluState) : (s.setSalu v).coord = s.coord := rfl
@[simp] theorem State.setSalu_err (v : SaluState) : (s.setSalu v).err = s.err := rfl
@[simp] theorem State.setSalu_act (v : SaluState) : (s.setSalu v).act = s.act := rfl
@[simp] theorem State.setSalu_result (v : SaluState) : (s.setSalu v).result = s.result := rfl
@[simp] theorem State.setSalu_draws (v : SaluState) : (s.setSalu v).draws = s.draws := rfl
@[simp] theorem State.setSalu_agenda (v : SaluState) : (s.setSalu v).agenda = s.agenda := rfl

@[simp] theorem State.setCtr_params (v : CtrState) : (s.setCtr v).params = s.params := rfl
@[simp] theorem State.setCtr_strict (v : CtrState) : (s.setCtr v).strict = s.strict := rfl
@[simp] theorem State.setCtr_cfg (v : CtrState) : (s.setCtr v).cfg = s.cfg := rfl
@[simp] theorem State.setCtr_mem (v : CtrState) : (s.setCtr v).mem = s.mem := rfl
@[simp] theorem State.setCtr_tcam (v : CtrState) : (s.setCtr v).tcam = s.tcam := rfl
@[simp] theorem State.setCtr_gw (v : CtrState) : (s.setCtr v).gw = s.gw := rfl
@[simp] theorem State.setCtr_row (v : CtrState) : (s.setCtr v).row = s.row := rfl
@[simp] theorem State.setCtr_stats (v : CtrState) : (s.setCtr v).stats = s.stats := rfl
@[simp] theorem State.setCtr_sel (v : CtrState) : (s.setCtr v).sel = s.sel := rfl
@[simp] theorem State.setCtr_salu (v : CtrState) : (s.setCtr v).salu = s.salu := rfl
@[simp] theorem State.setCtr_ctr (v : CtrState) : (s.setCtr v).ctr = v := rfl
@[simp] theorem State.setCtr_snap (v : CtrState) : (s.setCtr v).snap = s.snap := rfl
@[simp] theorem State.setCtr_teop (v : CtrState) : (s.setCtr v).teop = s.teop := rfl
@[simp] theorem State.setCtr_swp (v : CtrState) : (s.setCtr v).swp = s.swp := rfl
@[simp] theorem State.setCtr_coord (v : CtrState) : (s.setCtr v).coord = s.coord := rfl
@[simp] theorem State.setCtr_err (v : CtrState) : (s.setCtr v).err = s.err := rfl
@[simp] theorem State.setCtr_act (v : CtrState) : (s.setCtr v).act = s.act := rfl
@[simp] theorem State.setCtr_result (v : CtrState) : (s.setCtr v).result = s.result := rfl
@[simp] theorem State.setCtr_draws (v : CtrState) : (s.setCtr v).draws = s.draws := rfl
@[simp] theorem State.setCtr_agenda (v : CtrState) : (s.setCtr v).agenda = s.agenda := rfl

@[simp] theorem State.setSnap_params (v : Store SnapUnit) : (s.setSnap v).params = s.params := rfl
@[simp] theorem State.setSnap_strict (v : Store SnapUnit) : (s.setSnap v).strict = s.strict := rfl
@[simp] theorem State.setSnap_cfg (v : Store SnapUnit) : (s.setSnap v).cfg = s.cfg := rfl
@[simp] theorem State.setSnap_mem (v : Store SnapUnit) : (s.setSnap v).mem = s.mem := rfl
@[simp] theorem State.setSnap_tcam (v : Store SnapUnit) : (s.setSnap v).tcam = s.tcam := rfl
@[simp] theorem State.setSnap_gw (v : Store SnapUnit) : (s.setSnap v).gw = s.gw := rfl
@[simp] theorem State.setSnap_row (v : Store SnapUnit) : (s.setSnap v).row = s.row := rfl
@[simp] theorem State.setSnap_stats (v : Store SnapUnit) : (s.setSnap v).stats = s.stats := rfl
@[simp] theorem State.setSnap_sel (v : Store SnapUnit) : (s.setSnap v).sel = s.sel := rfl
@[simp] theorem State.setSnap_salu (v : Store SnapUnit) : (s.setSnap v).salu = s.salu := rfl
@[simp] theorem State.setSnap_ctr (v : Store SnapUnit) : (s.setSnap v).ctr = s.ctr := rfl
@[simp] theorem State.setSnap_snap (v : Store SnapUnit) : (s.setSnap v).snap = v := rfl
@[simp] theorem State.setSnap_teop (v : Store SnapUnit) : (s.setSnap v).teop = s.teop := rfl
@[simp] theorem State.setSnap_swp (v : Store SnapUnit) : (s.setSnap v).swp = s.swp := rfl
@[simp] theorem State.setSnap_coord (v : Store SnapUnit) : (s.setSnap v).coord = s.coord := rfl
@[simp] theorem State.setSnap_err (v : Store SnapUnit) : (s.setSnap v).err = s.err := rfl
@[simp] theorem State.setSnap_act (v : Store SnapUnit) : (s.setSnap v).act = s.act := rfl
@[simp] theorem State.setSnap_result (v : Store SnapUnit) : (s.setSnap v).result = s.result := rfl
@[simp] theorem State.setSnap_draws (v : Store SnapUnit) : (s.setSnap v).draws = s.draws := rfl
@[simp] theorem State.setSnap_agenda (v : Store SnapUnit) : (s.setSnap v).agenda = s.agenda := rfl

@[simp] theorem State.setTeop_params (v : TeopCaches) : (s.setTeop v).params = s.params := rfl
@[simp] theorem State.setTeop_strict (v : TeopCaches) : (s.setTeop v).strict = s.strict := rfl
@[simp] theorem State.setTeop_cfg (v : TeopCaches) : (s.setTeop v).cfg = s.cfg := rfl
@[simp] theorem State.setTeop_mem (v : TeopCaches) : (s.setTeop v).mem = s.mem := rfl
@[simp] theorem State.setTeop_tcam (v : TeopCaches) : (s.setTeop v).tcam = s.tcam := rfl
@[simp] theorem State.setTeop_gw (v : TeopCaches) : (s.setTeop v).gw = s.gw := rfl
@[simp] theorem State.setTeop_row (v : TeopCaches) : (s.setTeop v).row = s.row := rfl
@[simp] theorem State.setTeop_stats (v : TeopCaches) : (s.setTeop v).stats = s.stats := rfl
@[simp] theorem State.setTeop_sel (v : TeopCaches) : (s.setTeop v).sel = s.sel := rfl
@[simp] theorem State.setTeop_salu (v : TeopCaches) : (s.setTeop v).salu = s.salu := rfl
@[simp] theorem State.setTeop_ctr (v : TeopCaches) : (s.setTeop v).ctr = s.ctr := rfl
@[simp] theorem State.setTeop_snap (v : TeopCaches) : (s.setTeop v).snap = s.snap := rfl
@[simp] theorem State.setTeop_teop (v : TeopCaches) : (s.setTeop v).teop = v := rfl
@[simp] theorem State.setTeop_swp (v : TeopCaches) : (s.setTeop v).swp = s.swp := rfl
@[simp] theorem State.setTeop_coord (v : TeopCaches) : (s.setTeop v).coord = s.coord := rfl
@[simp] theorem State.setTeop_err (v : TeopCaches) : (s.setTeop v).err = s.err := rfl
@[simp] theorem State.setTeop_act (v : TeopCaches) : (s.setTeop v).act = s.act := rfl
@[simp] theorem State.setTeop_result (v : TeopCaches) : (s.setTeop v).result = s.result := rfl
@[simp] theorem State.setTeop_draws (v : TeopCaches) : (s.setTeop v).draws = s.draws := rfl
@[simp] theorem State.setTeop_agenda (v : TeopCaches) : (s.setTeop v).agenda = s.agenda := rfl

@[simp] theorem State.setSwp_params (v : SweeperState) : (s.setSwp v).params = s.params := rfl
@[simp] theorem State.setSwp_strict (v : SweeperState) : (s.setSwp v).strict = s.strict := rfl
@[simp] theorem State.setSwp_cfg (v : SweeperState) : (s.setSwp v).cfg = s.cfg := rfl
@[simp] theorem State.setSwp_mem (v : SweeperState) : (s.setSwp v).mem = s.mem := rfl
@[simp] theorem State.setSwp_tcam (v : SweeperState) : (s.setSwp v).tcam = s.tcam := rfl
@[simp] theorem State.setSwp_gw (v : SweeperState) : (s.setSwp v).gw = s.gw := rfl
@[simp] theorem State.setSwp_row (v : SweeperState) : (s.setSwp v).row = s.row := rfl
@[simp] theorem State.setSwp_stats (v : SweeperState) : (s.setSwp v).stats = s.stats := rfl
@[simp] theorem State.setSwp_sel (v : SweeperState) : (s.setSwp v).sel = s.sel := rfl
@[simp] theorem State.setSwp_salu (v : SweeperState) : (s.setSwp v).salu = s.salu := rfl
@[simp] theorem State.setSwp_ctr (v : SweeperState) : (s.setSwp v).ctr = s.ctr := rfl
@[simp] theorem State.setSwp_snap (v : SweeperState) : (s.setSwp v).snap = s.snap := rfl
@[simp] theorem State.setSwp_teop (v : SweeperState) : (s.setSwp v).teop = s.teop := rfl
@[simp] theorem State.setSwp_swp (v : SweeperState) : (s.setSwp v).swp = v := rfl
@[simp] theorem State.setSwp_coord (v : SweeperState) : (s.setSwp v).coord = s.coord := rfl
@[simp] theorem State.setSwp_err (v : SweeperState) : (s.setSwp v).err = s.err := rfl
@[simp] theorem State.setSwp_act (v : SweeperState) : (s.setSwp v).act = s.act := rfl
@[simp] theorem State.setSwp_result (v : SweeperState) : (s.setSwp v).result = s.result := rfl
@[simp] theorem State.setSwp_draws (v : SweeperState) : (s.setSwp v).draws = s.draws := rfl
@[simp] theorem State.setSwp_agenda (v : SweeperState) : (s.setSwp v).agenda = s.agenda := rfl

@[simp] theorem State.setCoord_params (v : CoordState) : (s.setCoord v).params = s.params := rfl
@[simp] theorem State.setCoord_strict (v : CoordState) : (s.setCoord v).strict = s.strict := rfl
@[simp] theorem State.setCoord_cfg (v : CoordState) : (s.setCoord v).cfg = s.cfg := rfl
@[simp] theorem State.setCoord_mem (v : CoordState) : (s.setCoord v).mem = s.mem := rfl
@[simp] theorem State.setCoord_tcam (v : CoordState) : (s.setCoord v).tcam = s.tcam := rfl
@[simp] theorem State.setCoord_gw (v : CoordState) : (s.setCoord v).gw = s.gw := rfl
@[simp] theorem State.setCoord_row (v : CoordState) : (s.setCoord v).row = s.row := rfl
@[simp] theorem State.setCoord_stats (v : CoordState) : (s.setCoord v).stats = s.stats := rfl
@[simp] theorem State.setCoord_sel (v : CoordState) : (s.setCoord v).sel = s.sel := rfl
@[simp] theorem State.setCoord_salu (v : CoordState) : (s.setCoord v).salu = s.salu := rfl
@[simp] theorem State.setCoord_ctr (v : CoordState) : (s.setCoord v).ctr = s.ctr := rfl
@[simp] theorem State.setCoord_snap (v : CoordState) : (s.setCoord v).snap = s.snap := rfl
@[simp] theorem State.setCoord_teop (v : CoordState) : (s.setCoord v).teop = s.teop := rfl
@[simp] theorem State.setCoord_swp (v : CoordState) : (s.setCoord v).swp = s.swp := rfl
@[simp] theorem State.setCoord_coord (v : CoordState) : (s.setCoord v).coord = v := rfl
@[simp] theorem State.setCoord_err (v : CoordState) : (s.setCoord v).err = s.err := rfl
@[simp] theorem State.setCoord_act (v : CoordState) : (s.setCoord v).act = s.act := rfl
@[simp] theorem State.setCoord_result (v : CoordState) : (s.setCoord v).result = s.result := rfl
@[simp] theorem State.setCoord_draws (v : CoordState) : (s.setCoord v).draws = s.draws := rfl
@[simp] theorem State.setCoord_agenda (v : CoordState) : (s.setCoord v).agenda = s.agenda := rfl

@[simp] theorem State.setErr_params (v : ErrState) : (s.setErr v).params = s.params := rfl
@[simp] theorem State.setErr_strict (v : ErrState) : (s.setErr v).strict = s.strict := rfl
@[simp] theorem State.setErr_cfg (v : ErrState) : (s.setErr v).cfg = s.cfg := rfl
@[simp] theorem State.setErr_mem (v : ErrState) : (s.setErr v).mem = s.mem := rfl
@[simp] theorem State.setErr_tcam (v : ErrState) : (s.setErr v).tcam = s.tcam := rfl
@[simp] theorem State.setErr_gw (v : ErrState) : (s.setErr v).gw = s.gw := rfl
@[simp] theorem State.setErr_row (v : ErrState) : (s.setErr v).row = s.row := rfl
@[simp] theorem State.setErr_stats (v : ErrState) : (s.setErr v).stats = s.stats := rfl
@[simp] theorem State.setErr_sel (v : ErrState) : (s.setErr v).sel = s.sel := rfl
@[simp] theorem State.setErr_salu (v : ErrState) : (s.setErr v).salu = s.salu := rfl
@[simp] theorem State.setErr_ctr (v : ErrState) : (s.setErr v).ctr = s.ctr := rfl
@[simp] theorem State.setErr_snap (v : ErrState) : (s.setErr v).snap = s.snap := rfl
@[simp] theorem State.setErr_teop (v : ErrState) : (s.setErr v).teop = s.teop := rfl
@[simp] theorem State.setErr_swp (v : ErrState) : (s.setErr v).swp = s.swp := rfl
@[simp] theorem State.setErr_coord (v : ErrState) : (s.setErr v).coord = s.coord := rfl
@[simp] theorem State.setErr_err (v : ErrState) : (s.setErr v).err = v := rfl
@[simp] theorem State.setErr_act (v : ErrState) : (s.setErr v).act = s.act := rfl
@[simp] theorem State.setErr_result (v : ErrState) : (s.setErr v).result = s.result := rfl
@[simp] theorem State.setErr_draws (v : ErrState) : (s.setErr v).draws = s.draws := rfl
@[simp] theorem State.setErr_agenda (v : ErrState) : (s.setErr v).agenda = s.agenda := rfl

@[simp] theorem State.setAct_params (v : ActState) : (s.setAct v).params = s.params := rfl
@[simp] theorem State.setAct_strict (v : ActState) : (s.setAct v).strict = s.strict := rfl
@[simp] theorem State.setAct_cfg (v : ActState) : (s.setAct v).cfg = s.cfg := rfl
@[simp] theorem State.setAct_mem (v : ActState) : (s.setAct v).mem = s.mem := rfl
@[simp] theorem State.setAct_tcam (v : ActState) : (s.setAct v).tcam = s.tcam := rfl
@[simp] theorem State.setAct_gw (v : ActState) : (s.setAct v).gw = s.gw := rfl
@[simp] theorem State.setAct_row (v : ActState) : (s.setAct v).row = s.row := rfl
@[simp] theorem State.setAct_stats (v : ActState) : (s.setAct v).stats = s.stats := rfl
@[simp] theorem State.setAct_sel (v : ActState) : (s.setAct v).sel = s.sel := rfl
@[simp] theorem State.setAct_salu (v : ActState) : (s.setAct v).salu = s.salu := rfl
@[simp] theorem State.setAct_ctr (v : ActState) : (s.setAct v).ctr = s.ctr := rfl
@[simp] theorem State.setAct_snap (v : ActState) : (s.setAct v).snap = s.snap := rfl
@[simp] theorem State.setAct_teop (v : ActState) : (s.setAct v).teop = s.teop := rfl
@[simp] theorem State.setAct_swp (v : ActState) : (s.setAct v).swp = s.swp := rfl
@[simp] theorem State.setAct_coord (v : ActState) : (s.setAct v).coord = s.coord := rfl
@[simp] theorem State.setAct_err (v : ActState) : (s.setAct v).err = s.err := rfl
@[simp] theorem State.setAct_act (v : ActState) : (s.setAct v).act = v := rfl
@[simp] theorem State.setAct_result (v : ActState) : (s.setAct v).result = s.result := rfl
@[simp] theorem State.setAct_draws (v : ActState) : (s.setAct v).draws = s.draws := rfl
@[simp] theorem State.setAct_agenda (v : ActState) : (s.setAct v).agenda = s.agenda := rfl

@[simp] theorem State.setResult_params (v : Ret) : (s.setResult v).params = s.params := rfl
@[simp] theorem State.setResult_strict (v : Ret) : (s.setResult v).strict = s.strict := rfl
@[simp] theorem State.setResult_cfg (v : Ret) : (s.setResult v).cfg = s.cfg := rfl
@[simp] theorem State.setResult_mem (v : Ret) : (s.setResult v).mem = s.mem := rfl
@[simp] theorem State.setResult_tcam (v : Ret) : (s.setResult v).tcam = s.tcam := rfl
@[simp] theorem State.setResult_gw (v : Ret) : (s.setResult v).gw = s.gw := rfl
@[simp] theorem State.setResult_row (v : Ret) : (s.setResult v).row = s.row := rfl
@[simp] theorem State.setResult_stats (v : Ret) : (s.setResult v).stats = s.stats := rfl
@[simp] theorem State.setResult_sel (v : Ret) : (s.setResult v).sel = s.sel := rfl
@[simp] theorem State.setResult_salu (v : Ret) : (s.setResult v).salu = s.salu := rfl
@[simp] theorem State.setResult_ctr (v : Ret) : (s.setResult v).ctr = s.ctr := rfl
@[simp] theorem State.setResult_snap (v : Ret) : (s.setResult v).snap = s.snap := rfl
@[simp] theorem State.setResult_teop (v : Ret) : (s.setResult v).teop = s.teop := rfl
@[simp] theorem State.setResult_swp (v : Ret) : (s.setResult v).swp = s.swp := rfl
@[simp] theorem State.setResult_coord (v : Ret) : (s.setResult v).coord = s.coord := rfl
@[simp] theorem State.setResult_err (v : Ret) : (s.setResult v).err = s.err := rfl
@[simp] theorem State.setResult_act (v : Ret) : (s.setResult v).act = s.act := rfl
@[simp] theorem State.setResult_result (v : Ret) : (s.setResult v).result = v := rfl
@[simp] theorem State.setResult_draws (v : Ret) : (s.setResult v).draws = s.draws := rfl
@[simp] theorem State.setResult_agenda (v : Ret) : (s.setResult v).agenda = s.agenda := rfl

@[simp] theorem State.setDraws_params (v : Nat) : (s.setDraws v).params = s.params := rfl
@[simp] theorem State.setDraws_strict (v : Nat) : (s.setDraws v).strict = s.strict := rfl
@[simp] theorem State.setDraws_cfg (v : Nat) : (s.setDraws v).cfg = s.cfg := rfl
@[simp] theorem State.setDraws_mem (v : Nat) : (s.setDraws v).mem = s.mem := rfl
@[simp] theorem State.setDraws_tcam (v : Nat) : (s.setDraws v).tcam = s.tcam := rfl
@[simp] theorem State.setDraws_gw (v : Nat) : (s.setDraws v).gw = s.gw := rfl
@[simp] theorem State.setDraws_row (v : Nat) : (s.setDraws v).row = s.row := rfl
@[simp] theorem State.setDraws_stats (v : Nat) : (s.setDraws v).stats = s.stats := rfl
@[simp] theorem State.setDraws_sel (v : Nat) : (s.setDraws v).sel = s.sel := rfl
@[simp] theorem State.setDraws_salu (v : Nat) : (s.setDraws v).salu = s.salu := rfl
@[simp] theorem State.setDraws_ctr (v : Nat) : (s.setDraws v).ctr = s.ctr := rfl
@[simp] theorem State.setDraws_snap (v : Nat) : (s.setDraws v).snap = s.snap := rfl
@[simp] theorem State.setDraws_teop (v : Nat) : (s.setDraws v).teop = s.teop := rfl
@[simp] theorem State.setDraws_swp (v : Nat) : (s.setDraws v).swp = s.swp := rfl
@[simp] theorem State.setDraws_coord (v : Nat) : (s.setDraws v).coord = s.coord := rfl
@[simp] theorem State.setDraws_err (v : Nat) : (s.setDraws v).err = s.err := rfl
@[simp] theorem State.setDraws_act (v : Nat) : (s.setDraws v).act = s.act := rfl
@[simp] theorem State.setDraws_result (v : Nat) : (s.setDraws v).result = s.result := rfl
@[simp] theorem State.setDraws_draws (v : Nat) : (s.setDraws v).draws = v := rfl
@[simp] theorem State.setDraws_agenda (v : Nat) : (s.setDraws v).agenda = s.agenda := rfl

@[simp] theorem State.setAgenda_params (v : List Line) : (s.setAgenda v).params = s.params := rfl
@[simp] theorem State.setAgenda_strict (v : List Line) : (s.setAgenda v).strict = s.strict := rfl
@[simp] theorem State.setAgenda_cfg (v : List Line) : (s.setAgenda v).cfg = s.cfg := rfl
@[simp] theorem State.setAgenda_mem (v : List Line) : (s.setAgenda v).mem = s.mem := rfl
@[simp] theorem State.setAgenda_tcam (v : List Line) : (s.setAgenda v).tcam = s.tcam := rfl
@[simp] theorem State.setAgenda_gw (v : List Line) : (s.setAgenda v).gw = s.gw := rfl
@[simp] theorem State.setAgenda_row (v : List Line) : (s.setAgenda v).row = s.row := rfl
@[simp] theorem State.setAgenda_stats (v : List Line) : (s.setAgenda v).stats = s.stats := rfl
@[simp] theorem State.setAgenda_sel (v : List Line) : (s.setAgenda v).sel = s.sel := rfl
@[simp] theorem State.setAgenda_salu (v : List Line) : (s.setAgenda v).salu = s.salu := rfl
@[simp] theorem State.setAgenda_ctr (v : List Line) : (s.setAgenda v).ctr = s.ctr := rfl
@[simp] theorem State.setAgenda_snap (v : List Line) : (s.setAgenda v).snap = s.snap := rfl
@[simp] theorem State.setAgenda_teop (v : List Line) : (s.setAgenda v).teop = s.teop := rfl
@[simp] theorem State.setAgenda_swp (v : List Line) : (s.setAgenda v).swp = s.swp := rfl
@[simp] theorem State.setAgenda_coord (v : List Line) : (s.setAgenda v).coord = s.coord := rfl
@[simp] theorem State.setAgenda_err (v : List Line) : (s.setAgenda v).err = s.err := rfl
@[simp] theorem State.setAgenda_act (v : List Line) : (s.setAgenda v).act = s.act := rfl
@[simp] theorem State.setAgenda_result (v : List Line) : (s.setAgenda v).result = s.result := rfl
@[simp] theorem State.setAgenda_draws (v : List Line) : (s.setAgenda v).draws = s.draws := rfl
@[simp] theorem State.setAgenda_agenda (v : List Line) : (s.setAgenda v).agenda = v := rfl

@[simp] theorem State.setStrict_self : s.setStrict s.strict = s := rfl
@[simp] theorem State.setStrict_setStrict (v w : Strict) : (s.setStrict v).setStrict w = s.setStrict w := rfl
@[simp] theorem State.setCfg_self : s.setCfg s.cfg = s := rfl
@[simp] theorem State.setCfg_setCfg (v w : Store Nat) : (s.setCfg v).setCfg w = s.setCfg w := rfl
@[simp] theorem State.setMem_self : s.setMem s.mem = s := rfl
@[simp] theorem State.setMem_setMem (v w : Memory) : (s.setMem v).setMem w = s.setMem w := rfl
@[simp] theorem State.setTcam_self : s.setTcam s.tcam = s := rfl
@[simp] theorem State.setTcam_setTcam (v w : Store TcamEntry) : (s.setTcam v).setTcam w = s.setTcam w := rfl
@[simp] theorem State.setGw_self : s.setGw s.gw = s := rfl
@[simp] theorem State.setGw_setGw (v w : Store GwEntry) : (s.setGw v).setGw w = s.setGw w := rfl
@[simp] theorem State.setRow_self : s.setRow s.row = s := rfl
@[simp] theorem State.setRow_setRow (v w : RowState) : (s.setRow v).setRow w = s.setRow w := rfl
@[simp] theorem State.setStats_self : s.setStats s.stats = s := rfl
@[simp] theorem State.setStats_setStats (v w : StatsState) : (s.setStats v).setStats w = s.setStats w := rfl
@[simp] theorem State.setSel_self : s.setSel s.sel = s := rfl
@[simp] theorem State.setSel_setSel (v w : Store SelLast) : (s.setSel v).setSel w = s.setSel w := rfl
@[simp] theorem State.setSalu_self : s.setSalu s.salu = s := rfl
@[simp] theorem State.setSalu_setSalu (v w : SaluState) : (s.setSalu v).setSalu w = s.setSalu w := rfl
@[simp] theorem State.setCtr_self : s.setCtr s.ctr = s := rfl
@[simp] theorem State.setCtr_setCtr (v w : CtrState) : (s.setCtr v).setCtr w = s.setCtr w := rfl
@[simp] theorem State.setSnap_self : s.setSnap s.snap = s := rfl
@[simp] theorem State.setSnap_setSnap (v w : Store SnapUnit) : (s.setSnap v).setSnap w = s.setSnap w := rfl
@[simp] theorem State.setTeop_self : s.setTeop s.teop = s := rfl
@[simp] theorem State.setTeop_setTeop (v w : TeopCaches) : (s.setTeop v).setTeop w = s.setTeop w := rfl
@[simp] theorem State.setSwp_self : s.setSwp s.swp = s := rfl
@[simp] theorem State.setSwp_setSwp (v w : SweeperState) : (s.setSwp v).setSwp w = s.setSwp w := rfl
@[simp] theorem State.setCoord_self : s.setCoord s.coord = s := rfl
@[simp] theorem State.setCoord_setCoord (v w : CoordState) : (s.setCoord v).setCoord w = s.setCoord w := rfl
@[simp] theorem State.setErr_self : s.setErr s.err = s := rfl
@[simp] theorem State.setErr_setErr (v w : ErrState) : (s.setErr v).setErr w = s.setErr w := rfl
@[simp] theorem State.setAct_self : s.setAct s.act = s := rfl
@[simp] theorem State.setAct_setAct (v w : ActState) : (s.setAct v).setAct w = s.setAct w := rfl
@[simp] theorem State.setResult_self : s.setResult s.result = s := rfl
@[simp] theorem State.setResult_setResult (v w : Ret) : (s.setResult v).setResult w = s.setResult w := rfl
@[simp] theorem State.setDraws_self : s.setDraws s.draws = s := rfl
@[simp] theorem State.setDraws_setDraws (v w : Nat) : (s.setDraws v).setDraws w = s.setDraws w := rfl
@[simp] theorem State.setAgenda_self : s.setAgenda s.agenda = s := rfl
@[simp] theorem State.setAgenda_setAgenda (v w : List Line) : (s.setAgenda v).setAgenda w = s.setAgenda w := rfl

end Sys2Proof.Machine
end

