-- ==== Sys2Proof/Laws/Store.lean ====
section
/-! SUPPORT. The laws of sparse indexed data and of the memory: a write is read back, leaves every other key
alone and keeps the canonical form. -/

namespace Sys2Proof

/-! ### The order of keys -/

theorem keyLt_irrefl : ∀ k, keyLt k k = false
  | [] => rfl
  | a :: as => by simp [keyLt, keyLt_irrefl as]

theorem keyLt_trans : ∀ {a b c : List Nat}, keyLt a b = true → keyLt b c = true → keyLt a c = true
  | [], [], _, h, _ => by simp [keyLt] at h
  | [], _ :: _, [], _, h => by simp [keyLt] at h
  | [], _ :: _, _ :: _, _, _ => rfl
  | _ :: _, [], _, h, _ => by simp [keyLt] at h
  | _ :: _, _ :: _, [], _, h => by simp [keyLt] at h
  | a :: as, b :: bs, c :: cs, h1, h2 => by
    simp only [keyLt] at h1 h2 ⊢
    rcases Nat.lt_trichotomy a b with hab | rfl | hab
    · rcases Nat.lt_trichotomy b c with hbc | rfl | hbc
      · simp [Nat.lt_trans hab hbc]
      · simp [hab]
      · simp [Nat.lt_asymm hbc, Nat.ne_of_gt hbc] at h2
    · rcases Nat.lt_trichotomy a c with hac | rfl | hac
      · simp [hac]
      · simp at h1 h2 ⊢
        exact keyLt_trans h1 h2
      · simp [Nat.lt_asymm hac, Nat.ne_of_gt hac] at h2
    · simp [Nat.lt_asymm hab, Nat.ne_of_gt hab] at h1

theorem keyLt_total : ∀ {a b : List Nat}, a ≠ b → keyLt a b = false → keyLt b a = true
  | [], [], h, _ => absurd rfl h
  | [], _ :: _, _, h => by simp [keyLt] at h
  | _ :: _, [], _, _ => rfl
  | a :: as, b :: bs, hne, h => by
    simp only [keyLt] at h ⊢
    rcases Nat.lt_trichotomy a b with hab | rfl | hab
    · simp [hab] at h
    · simp at h hne ⊢
      exact keyLt_total hne h
    · simp [hab]

theorem ne_of_keyLt {a b : List Nat} (h : keyLt a b = true) : a ≠ b := by
  rintro rfl
  simp [keyLt_irrefl] at h

/-! ### Reading -/

section
variable {α : Type} (d : α)

@[simp] theorem Store.get_nil (k : List Nat) : Store.get d [] k = d := rfl

theorem Store.get_cons (k' : List Nat) (v : α) (m : Store α) (k : List Nat) :
    Store.get d ((k', v) :: m) k = if k' = k then v else Store.get d m k := rfl

theorem Store.get_insert (m : Store α) (k k' : List Nat) (v : α) :
    Store.get d (Store.insert k v m) k' = if k' = k then v else Store.get d m k' := by
  induction m with
  | nil =>
    simp only [Store.insert, Store.get_cons, Store.get_nil]
    by_cases h : k = k' <;> simp [h, eq_comm]
  | cons e m ih =>
    obtain ⟨k0, v0⟩ := e
    simp only [Store.insert]
    split
    · rename_i h0
      subst h0
      simp only [Store.get_cons]
      by_cases h : k0 = k'
      · simp [h]
      · simp [h, Ne.symm h]
    · rename_i h0
      split
      · simp only [Store.get_cons]
        by_cases h : k = k'
        · simp [h]
        · simp [h, Ne.symm h]
      · simp only [Store.get_cons, ih]
        by_cases h : k0 = k'
        · subst h
          simp [h0]
        · simp [h]

theorem Store.get_dropWhere (p : List Nat → Bool) (m : Store α) (k : List Nat) :
    Store.get d (Store.dropWhere p m) k = if p k = true then d else Store.get d m k := by
  induction m with
  | nil => simp [Store.dropWhere]
  | cons e m ih =>
    obtain ⟨k0, v0⟩ := e
    simp only [Store.dropWhere, List.filter_cons] at ih ⊢
    by_cases hk : k0 = k
    · subst hk
      by_cases hp : p k0 = true
      · simp only [hp, Bool.not_true, Bool.false_eq_true, if_false, ih, if_true]
      · simp [hp, Store.get_cons]
    · by_cases hp : p k0 = true
      · simp only [hp, Bool.not_true, Bool.false_eq_true, if_false, ih, Store.get_cons, hk]
      · simp only [hp, Bool.not_false, if_true, ih, Store.get_cons, hk, if_false]

theorem Store.erase_eq_dropWhere (k : List Nat) (m : Store α) :
    Store.erase k m = Store.dropWhere (fun k' => k' == k) m := by
  refine List.filter_congr fun e _ => ?_
  by_cases h : e.1 = k <;> simp [h]

theorem Store.get_erase (m : Store α) (k k' : List Nat) :
    Store.get d (Store.erase k m) k' = if k' = k then d else Store.get d m k' := by
  rw [Store.erase_eq_dropWhere, Store.get_dropWhere]
  simp

/-- A write is read back, and every other key reads as before. -/
theorem Store.get_set [DecidableEq α] (m : Store α) (k k' : List Nat) (v : α) :
    Store.get d (Store.set d m k v) k' = if k' = k then v else Store.get d m k' := by
  unfold Store.set
  split
  · rename_i h
    rw [Store.get_erase, h]
  · rw [Store.get_insert, Store.get_erase]
    split <;> rfl

@[simp] theorem Store.get_set_same [DecidableEq α] (m : Store α) (k : List Nat) (v : α) :
    Store.get d (Store.set d m k v) k = v := by
  simp [Store.get_set]

theorem Store.get_set_other [DecidableEq α] (m : Store α) {k k' : List Nat} (v : α) (h : k' ≠ k) :
    Store.get d (Store.set d m k v) k' = Store.get d m k' := by
  simp [Store.get_set, h]

theorem Store.erase_insert (k : List Nat) (v : α) (m : Store α) :
    Store.erase k (Store.insert k v m) = Store.erase k m := by
  induction m with
  | nil => simp [Store.insert, Store.erase]
  | cons e m ih =>
    obtain ⟨k', v'⟩ := e
    simp only [Store.insert]
    split
    · rename_i h
      simp [Store.erase, h]
    · split
      · simp [Store.erase]
      · rename_i h _
        simp only [Store.erase] at ih ⊢
        rw [List.filter_cons_of_pos (by simpa using h), List.filter_cons_of_pos (by simpa using h), ih]

theorem Store.erase_erase (k : List Nat) (m : Store α) :
    Store.erase k (Store.erase k m) = Store.erase k m := by
  simp [Store.erase]

/-- Of two writes to one key the second alone counts, whatever the store holds. -/
@[simp] theorem Store.set_set [DecidableEq α] (m : Store α) (k : List Nat) (v w : α) :
    Store.set d (Store.set d m k v) k w = Store.set d m k w := by
  unfold Store.set
  by_cases hv : v = d <;> simp [hv, Store.erase_insert, Store.erase_erase]

/-! ### The canonical form -/

theorem Store.above_iff (k : List Nat) (m : Store α) :
    Store.above k m = true ↔ ∀ e ∈ m, keyLt k e.1 = true := by
  simp [Store.above, List.all_eq_true]

theorem Store.mem_insert {k : List Nat} {v : α} {m : Store α} {e : List Nat × α}
    (h : e ∈ Store.insert k v m) : e = (k, v) ∨ e ∈ m := by
  induction m with
  | nil => simpa [Store.insert] using h
  | cons e0 m ih =>
    obtain ⟨k0, v0⟩ := e0
    simp only [Store.insert] at h
    split at h
    · rcases List.mem_cons.1 h with h | h
      · exact .inl h
      · exact .inr (List.mem_cons_of_mem _ h)
    · split at h
      · rcases List.mem_cons.1 h with h | h
        · exact .inl h
        · exact .inr h
      · rcases List.mem_cons.1 h with h | h
        · exact .inr (h ▸ List.mem_cons_self)
        · exact (ih h).imp_right (List.mem_cons_of_mem _)

theorem Store.rising_insert {m : Store α} (k : List Nat) (v : α) (h : Store.rising m = true) :
    Store.rising (Store.insert k v m) = true := by
  induction m with
  | nil => simp [Store.insert, Store.rising, Store.above]
  | cons e m ih =>
    obtain ⟨k0, v0⟩ := e
    simp only [Store.rising, Bool.and_eq_true, Store.above_iff] at h
    simp only [Store.insert]
    split
    · rename_i h0
      subst h0
      simpa [Store.rising, Store.above_iff] using h
    · rename_i h0
      split
      · rename_i hlt
        simp only [Store.rising, Bool.and_eq_true, Store.above_iff, List.forall_mem_cons]
        exact ⟨⟨hlt, fun e he => keyLt_trans hlt (h.1 e he)⟩, h.1, h.2⟩
      · rename_i hlt
        simp only [Store.rising, Bool.and_eq_true, Store.above_iff]
        refine ⟨fun e he => ?_, ih h.2⟩
        rcases Store.mem_insert he with rfl | he
        · exact keyLt_total (Ne.symm h0) (by simpa using hlt)
        · exact h.1 e he

theorem Store.rising_filter {m : Store α} (q : List Nat × α → Bool) (h : Store.rising m = true) :
    Store.rising (m.filter q) = true := by
  induction m with
  | nil => rfl
  | cons e m ih =>
    obtain ⟨k0, v0⟩ := e
    simp only [Store.rising, Bool.and_eq_true, Store.above_iff] at h
    simp only [List.filter_cons]
    split
    · simp only [Store.rising, Bool.and_eq_true, Store.above_iff]
      exact ⟨fun e he => h.1 e (List.mem_filter.1 he).1, ih h.2⟩
    · exact ih h.2

theorem Store.wf_iff [DecidableEq α] (m : Store α) :
    Store.wf d m = true ↔ Store.rising m = true ∧ ∀ e ∈ m, e.2 ≠ d := by
  simp [Store.wf, List.all_eq_true]

theorem Store.wf_filter [DecidableEq α] {m : Store α} (q : List Nat × α → Bool) (h : Store.wf d m = true) :
    Store.wf d (m.filter q) = true := by
  rw [Store.wf_iff] at h ⊢
  exact ⟨Store.rising_filter q h.1, fun e he => h.2 e (List.mem_filter.1 he).1⟩

/-- A write keeps the canonical form. -/
theorem Store.wf_set [DecidableEq α] {m : Store α} (k : List Nat) (v : α) (h : Store.wf d m = true) :
    Store.wf d (Store.set d m k v) = true := by
  unfold Store.set
  split
  · exact Store.wf_filter d _ h
  · rename_i hv
    have h := Store.wf_filter (d := d) (fun e => decide (e.1 ≠ k)) h
    rw [Store.wf_iff] at h ⊢
    refine ⟨Store.rising_insert k v h.1, fun e he => ?_⟩
    rcases Store.mem_insert he with rfl | he
    · exact hv
    · exact h.2 e he

theorem Store.wf_dropWhere [DecidableEq α] {m : Store α} (p : List Nat → Bool) (h : Store.wf d m = true) :
    Store.wf d (Store.dropWhere p m) = true :=
  Store.wf_filter d _ h

end

/-! ### The memory -/

theorem Memory.read_write (m : Memory) (a b : RamAddr) (w : Word) :
    Memory.read (Memory.write m a w) b = if b.key = a.key then w else Memory.read m b :=
  Store.get_set unwrittenWord m a.key b.key w

@[simp] theorem Memory.read_write_same (m : Memory) (a : RamAddr) (w : Word) :
    Memory.read (Memory.write m a w) a = w := by
  simp [Memory.read_write]

theorem Memory.read_write_other (m : Memory) {a b : RamAddr} (w : Word) (h : b.key ≠ a.key) :
    Memory.read (Memory.write m a w) b = Memory.read m b := by
  simp [Memory.read_write, h]

/-- Every memory operation keeps the canonical form. -/
theorem Memory.wf_write {m : Memory} (a : RamAddr) (w : Word) (h : m.wf = true) :
    (m.write a w).wf = true :=
  Store.wf_set unwrittenWord a.key w h

theorem Machine.State.reset_mem_wf : Machine.State.reset.mem.wf = true := rfl

end Sys2Proof
end

