-- ==== Sys2Proof/Laws/Ops.lean ====
section
/-! SUPPORT. What a sequence of statements does, what each shared operation of `Machine/Ops.lean` can do, and
how a relation between the state before and after passes through a sequence. -/

namespace Sys2Proof.Machine

/-! ### Sequences -/

section
variable {α β : Type} (s : State)

@[simp] theorem pure_apply (a : α) : (pure a : M α) s = .ok a s := rfl

theorem bind_apply (m : M α) (f : α → M β) :
    (m >>= f) s = match m s with
      | .ok a t => f a t
      | .error e t => .error e t := by
  cases h : m s <;> simp [bind, EStateM.bind, h]

theorem map_apply (m : M α) (f : α → β) :
    (f <$> m) s = match m s with
      | .ok a t => .ok (f a) t
      | .error e t => .error e t := by
  cases h : m s <;> simp [Functor.map, EStateM.map, h]

theorem bind_of_ok {m : M α} {a : α} {t : State} (f : α → M β) (h : m s = .ok a t) :
    (m >>= f) s = f a t := by
  rw [bind_apply, h]

theorem bind_of_error {m : M α} {e : Stop} {t : State} (f : α → M β) (h : m s = .error e t) :
    (m >>= f) s = .error e t := by
  rw [bind_apply, h]

/-- A sequence that answers ran both of its parts to their ends. -/
theorem bind_eq_ok {m : M α} {f : α → M β} {b : β} {u : State} :
    (m >>= f) s = .ok b u ↔ ∃ a t, m s = .ok a t ∧ f a t = .ok b u := by
  rw [bind_apply]
  cases h : m s <;> simp

@[simp] theorem look_apply (f : State → α) : look f s = .ok (f s) s := rfl
@[simp] theorem change_apply (f : State → State) : change f s = .ok () (f s) := rfl
@[simp] theorem refuse_apply (r : Refusal) : (refuse r : M α) s = .error (.refuse r) s := rfl

@[simp] theorem look_bind (f : State → α) (k : α → M β) : (look f >>= k) s = k (f s) s := rfl
@[simp] theorem change_bind (f : State → State) (k : Unit → M β) : (change f >>= k) s = k () (f s) := rfl
@[simp] theorem pure_bind' (a : α) (k : α → M β) : ((pure a : M α) >>= k) s = k a s := rfl
@[simp] theorem refuse_bind (r : Refusal) (k : α → M β) :
    ((refuse r : M α) >>= k) s = .error (.refuse r) s := rfl

@[simp] theorem forEach_nil (f : α → M Unit) : forEach [] f s = .ok () s := rfl

theorem forEach_cons (a : α) (as : List α) (f : α → M Unit) :
    forEach (a :: as) f s = (f a >>= fun _ => forEach as f) s := rfl

@[simp] theorem collect_nil (f : α → M β) : collect [] f s = .ok [] s := rfl

theorem collect_cons (a : α) (as : List α) (f : α → M β) :
    collect (a :: as) f s = (f a >>= fun b => collect as f >>= fun bs => pure (b :: bs)) s := rfl

/-- A loop whose rounds leave the state as it is leaves it as it is. -/
theorem forEach_skip (l : List α) (f : α → M Unit) (h : ∀ a ∈ l, f a s = .ok () s) :
    forEach l f s = .ok () s := by
  induction l with
  | nil => rfl
  | cons a as ih =>
    rw [forEach_cons, bind_of_ok s _ (h a List.mem_cons_self)]
    exact ih fun b hb => h b (List.mem_cons_of_mem _ hb)

/-- A collecting loop whose rounds leave the state as it is. -/
theorem collect_skip (l : List α) (f : α → M β) (g : α → β) (h : ∀ a ∈ l, f a s = .ok (g a) s) :
    collect l f s = .ok (l.map g) s := by
  induction l with
  | nil => rfl
  | cons a as ih =>
    rw [collect_cons, bind_of_ok s _ (h a List.mem_cons_self),
      bind_of_ok s _ (ih fun b hb => h b (List.mem_cons_of_mem _ hb))]
    rfl

end

/-! ### Outcomes -/

theorem outcome_of_ok {m : M Ret} {s t : State} {r : Ret} (h : m s = .ok r t) :
    outcome m s = .next (t.setResult r) := by
  rw [outcome, h]

theorem outcome_of_faulted {m : M Ret} {s t : State} (h : m s = .error .faulted t) :
    outcome m s = .next t := by
  rw [outcome, h]

theorem outcome_of_refused {m : M Ret} {s t : State} {r : Refusal} (h : m s = .error (.refuse r) t) :
    outcome m s = .refused r := by
  rw [outcome, h]

/-- An operation answers a next state by running to its end or by taking the fault entry. -/
theorem outcome_eq_next {m : M Ret} {s u : State} :
    outcome m s = .next u ↔
      (∃ r t, m s = .ok r t ∧ u = t.setResult r) ∨ m s = .error .faulted u := by
  unfold outcome
  split <;> rename_i h <;> simp [h, eq_comm]

/-- An operation never stops with a fault of the model. -/
theorem outcome_ne_fault (m : M Ret) (s : State) (f : Fault) : outcome m s ≠ .fault f := by
  unfold outcome
  split <;> simp

/-! ### Errors and the fault entry (R473, R490) -/

@[simp] theorem State.logError_log (s : State) (r : ErrRec) : (s.logError r).err.log = s.err.log ++ [r] := rfl
@[simp] theorem State.logError_faulted (s : State) (r : ErrRec) :
    (s.logError r).err.faulted = s.err.faulted := rfl

theorem State.enterFault_of_none {s : State} (r : ErrRec) (h : s.err.faulted = none) :
    s.enterFault r = s.setErr { s.err with faulted := some r } := by
  rw [State.enterFault, h]

theorem State.enterFault_of_some {s : State} {r' : ErrRec} (r : ErrRec) (h : s.err.faulted = some r') :
    s.enterFault r = s := by
  rw [State.enterFault, h]

/-- The fault entry writes the error state and nothing else. -/
theorem State.enterFault_eq (s : State) (r : ErrRec) : s.enterFault r = s.setErr (s.enterFault r).err := by
  unfold State.enterFault
  split <;> rfl

@[simp] theorem takeFault_apply {α : Type} (s : State) (r : ErrRec) :
    (takeFault r : M α) s = .error .faulted (s.enterFault r) := rfl

theorem raise_of_fatal {s : State} {e : Err} (place : Option (Nat × Nat)) (h : fatal s.strict e = true) :
    raise place e s
      = .error .faulted ((s.logError (errRecord s place e)).enterFault (errRecord s place e)) := by
  simp [raise, h]

theorem raise_of_relaxed {s : State} {e : Err} (place : Option (Nat × Nat)) (h : fatal s.strict e = false) :
    raise place e s = .ok () (s.logError (errRecord s place e)) := by
  simp [raise, h]

/-! ### The RAM spaces (R71) -/

theorem memRead_of_inRange {s : State} {a : RamAddr} (h : ramInRange s.params a = true) :
    memRead a s = .ok (s.mem.read a) s := by
  simp [memRead, h]

theorem memRead_of_outOfRange {s : State} {a : RamAddr} (h : ramInRange s.params a = false) :
    memRead a s = (raise (ramPlace a) (.addrRange a) >>= fun _ => pure 0) s := by
  simp [memRead, h]

/-- What a read that answers did. -/
theorem memRead_ok {s t : State} {a : RamAddr} {w : Word} (h : memRead a s = .ok w t) :
    (ramInRange s.params a = true ∧ w = s.mem.read a ∧ t = s) ∨
    (ramInRange s.params a = false ∧ fatal s.strict (.addrRange a) = false ∧ w = 0 ∧
      t = s.logError (errRecord s (ramPlace a) (.addrRange a))) := by
  cases hr : ramInRange s.params a
  · rw [memRead_of_outOfRange hr] at h
    cases hf : fatal s.strict (.addrRange a)
    · rw [bind_of_ok s _ (raise_of_relaxed _ hf)] at h
      cases h
      exact .inr ⟨rfl, rfl, rfl, rfl⟩
    · rw [bind_of_error s _ (raise_of_fatal _ hf)] at h
      cases h
  · rw [memRead_of_inRange hr] at h
    cases h
    exact .inl ⟨rfl, rfl, rfl⟩

theorem memWrite_of_inRange {s : State} {a : RamAddr} (w : Word) (h : ramInRange s.params a = true) :
    memWrite a w s = .ok () (s.setMem (s.mem.write a w)) := by
  simp [memWrite, h]

theorem memWrite_of_outOfRange {s : State} {a : RamAddr} (w : Word) (h : ramInRange s.params a = false) :
    memWrite a w s = raise (ramPlace a) (.addrRange a) s := by
  simp [memWrite, h]

/-- What a write that answers did. -/
theorem memWrite_ok {s t : State} {a : RamAddr} {w : Word} {u : Unit} (h : memWrite a w s = .ok u t) :
    (ramInRange s.params a = true ∧ t = s.setMem (s.mem.write a w)) ∨
    (ramInRange s.params a = false ∧ fatal s.strict (.addrRange a) = false ∧
      t = s.logError (errRecord s (ramPlace a) (.addrRange a))) := by
  cases hr : ramInRange s.params a
  · rw [memWrite_of_outOfRange w hr] at h
    cases hf : fatal s.strict (.addrRange a)
    · rw [raise_of_relaxed _ hf] at h
      cases h
      exact .inr ⟨rfl, rfl, rfl⟩
    · rw [raise_of_fatal _ hf] at h
      cases h
  · rw [memWrite_of_inRange w hr] at h
    cases h
    exact .inl ⟨rfl, rfl⟩

@[simp] theorem drawIndex_apply (s : State) : drawIndex s = .ok s.draws (s.setDraws (s.draws + 1)) := rfl

/-! ### Records by index -/

/-- A configuration field that is written reads back; every other field reads as before. -/
theorem State.field_putField (s : State) (n n' : FieldName) (k k' : List Nat) (v : Nat) :
    (s.putField n k v).field n' k' = if n'.ctorIdx :: k' = n.ctorIdx :: k then v else s.field n' k' :=
  Store.get_set 0 s.cfg (n.ctorIdx :: k) (n'.ctorIdx :: k') v

theorem State.field_eq_of_cfg {s t : State} (h : t.cfg = s.cfg) (n : FieldName) (k : List Nat) :
    t.field n k = s.field n k := by
  rw [State.field, State.field, h]

theorem State.flag_eq_of_cfg {s t : State} (h : t.cfg = s.cfg) (n : FieldName) (k : List Nat) :
    t.flag n k = s.flag n k := by
  rw [State.flag, State.flag, State.field_eq_of_cfg h]

theorem State.bus_putBus (s : State) (k k' : BusKind) (key key' : List Nat) (b : BusRec) :
    (s.putBus k key b).bus k' key' = if k' = k ∧ key' = key then b else s.bus k' key' := by
  cases k <;> cases k' <;> simp [State.bus, State.putBus, Store.get_set]

theorem State.stash_putStash (s : State) (p st a p' st' a' : Nat) (l : List EvictRec) :
    (s.putStash p st a l).stash p' st' a' = if [p', st', a'] = [p, st, a] then l else s.stash p' st' a' :=
  Store.get_set [] s.stats.stash [p, st, a] [p', st', a'] l

theorem State.shadow_putShadow (s : State) (p st a w k p' st' a' w' k' : Nat) (v : ShadowPair) :
    (s.putShadow p st a w k v).shadow p' st' a' w' k'
      = if [p', st', a', w', k'] = [p, st, a, w, k] then v else s.shadow p' st' a' w' k' :=
  Store.get_set ({} : ShadowPair) s.stats.shadow [p, st, a, w, k] [p', st', a', w', k'] v

theorem State.selLast_putSelLast (s : State) (p st a p' st' a' : Nat) (v : SelLast) :
    (s.putSelLast p st a v).selLast p' st' a'
      = if [p', st', a'] = [p, st, a] then v else s.selLast p' st' a' :=
  Store.get_set ({} : SelLast) s.sel [p, st, a] [p', st', a'] v

theorem State.saluLast_putSaluLast (s : State) (p st a p' st' a' : Nat) (v : SaluLast) :
    (s.putSaluLast p st a v).saluLast p' st' a'
      = if [p', st', a'] = [p, st, a] then v else s.saluLast p' st' a' :=
  Store.get_set ({} : SaluLast) s.salu.last [p, st, a] [p', st', a'] v

theorem State.saluRun_putSaluRun (s : State) (p st a p' st' a' : Nat) (v : SaluRun) :
    (s.putSaluRun p st a v).saluRun p' st' a'
      = if [p', st', a'] = [p, st, a] then v else s.saluRun p' st' a' :=
  Store.get_set ({} : SaluRun) s.salu.run [p, st, a] [p', st', a'] v

theorem State.counter_putCounter (s : State) (p st c p' st' c' : Nat) (v : Counter) :
    (s.putCounter p st c v).counter p' st' c'
      = if [p', st', c'] = [p, st, c] then v else s.counter p' st' c' :=
  Store.get_set ({} : Counter) s.ctr.ctrs [p, st, c] [p', st', c'] v

theorem State.snapUnit_putSnapUnit (s : State) (p st p' st' : Nat) (g g' : Gress) (v : SnapUnit) :
    (s.putSnapUnit p st g v).snapUnit p' st' g'
      = if [p', st', g'.ctorIdx] = [p, st, g.ctorIdx] then v else s.snapUnit p' st' g' :=
  Store.get_set ({} : SnapUnit) s.snap [p, st, g.ctorIdx] [p', st', g'.ctorIdx] v

theorem ctlKey_inj {t t' : TableId} {a a' : AType} (h : ctlKey t a = ctlKey t' a') : t = t' ∧ a = a' := by
  obtain ⟨p, st, lt⟩ := t
  obtain ⟨p', st', lt'⟩ := t'
  cases a <;> cases a' <;> simp_all [ctlKey, AType.ctorIdx]

theorem State.ctl_putCtl (s : State) (t t' : TableId) (a a' : AType) (v : TableOpCtl) :
    (s.putCtl t a v).ctl t' a' = if t' = t ∧ a' = a then v else s.ctl t' a' := by
  have h : (s.putCtl t a v).ctl t' a' = if ctlKey t' a' = ctlKey t a then v else s.ctl t' a' :=
    Store.get_set ({} : TableOpCtl) s.swp.ctl (ctlKey t a) (ctlKey t' a') v
  rw [h]
  by_cases hk : ctlKey t' a' = ctlKey t a
  · simp [ctlKey_inj hk]
  · rw [if_neg hk, if_neg]
    rintro ⟨rfl, rfl⟩
    exact hk rfl

theorem State.pipe_putPipe (s : State) (p p' : Nat) (v : PipeState) :
    (s.putPipe p v).pipe p' = if p' = p then v else s.pipe p' := by
  have h : (s.putPipe p v).pipe p' = if [p'] = [p] then v else s.pipe p' :=
    Store.get_set ({} : PipeState) s.coord.pipes [p] [p'] v
  simpa using h

theorem State.worker_putWorker (s : State) (w w' : Nat) (v : Worker) :
    (s.putWorker w v).worker w' = if w' = w then v else s.worker w' := by
  have h : (s.putWorker w v).worker w' = if [w'] = [w] then v else s.worker w' :=
    Store.get_set (workerReset s.params) s.coord.workers [w] [w'] v
  simpa using h

@[simp] theorem State.pipe_putWorker (s : State) (w p : Nat) (v : Worker) :
    (s.putWorker w v).pipe p = s.pipe p := rfl

@[simp] theorem State.worker_putPipe (s : State) (w p : Nat) (v : PipeState) :
    (s.putPipe p v).worker w = s.worker w := rfl

theorem irqKey_inj {q q' : IrqSource} (h : irqKey q = irqKey q') : q = q' := by
  cases q with
  | statsEvict p s a => cases q' <;> simp_all [irqKey]
  | snapshot p s g =>
    cases q' with
    | statsEvict => simp [irqKey] at h
    | snapshot p' s' g' => cases g <;> cases g' <;> simp_all [irqKey, Gress.ctorIdx]

/-! ### Relations between the state before and after -/

/-- However the sequence ends short of a refusal, the state it reaches is related to the state it began in. -/
def Moves {α : Type} (R : State → State → Prop) (m : M α) : Prop :=
  ∀ s, match m s with
    | .ok _ t => R s t
    | .error .faulted t => R s t
    | .error (.refuse _) _ => True

section
variable {α β : Type} {R : State → State → Prop}

theorem moves_ok {m : M α} (h : Moves R m) {s t : State} {a : α} (e : m s = .ok a t) : R s t := by
  have := h s
  rwa [e] at this

theorem moves_faulted {m : M α} (h : Moves R m) {s t : State} (e : m s = .error .faulted t) : R s t := by
  have := h s
  rwa [e] at this

theorem moves_pure (hr : ∀ s, R s s) (a : α) : Moves R (pure a : M α) := hr

theorem moves_look (hr : ∀ s, R s s) (f : State → α) : Moves R (look f) := hr

theorem moves_refuse (r : Refusal) : Moves R (refuse r : M α) := fun _ => trivial

theorem moves_change {f : State → State} (h : ∀ s, R s (f s)) : Moves R (change f) := h

theorem moves_bind (ht : ∀ a b c, R a b → R b c → R a c) {m : M α} {f : α → M β}
    (h : Moves R m) (k : ∀ a, Moves R (f a)) : Moves R (m >>= f) := by
  intro s
  rw [bind_apply]
  have hs := h s
  cases e : m s with
  | ok a t =>
    rw [e] at hs
    have hk := k a t
    simp only
    cases e' : f a t with
    | ok b u =>
      rw [e'] at hk
      exact ht _ _ _ hs hk
    | error x u =>
      rw [e'] at hk
      cases x with
      | faulted => exact ht _ _ _ hs hk
      | refuse => trivial
  | error x t =>
    rw [e] at hs
    cases x <;> exact hs

theorem moves_forEach (hr : ∀ s, R s s) (ht : ∀ a b c, R a b → R b c → R a c) (l : List α)
    {f : α → M Unit} (h : ∀ a, Moves R (f a)) : Moves R (forEach l f) := by
  induction l with
  | nil => exact moves_pure hr ()
  | cons a as ih => exact moves_bind ht (h a) fun _ => ih

theorem moves_collect (hr : ∀ s, R s s) (ht : ∀ a b c, R a b → R b c → R a c) (l : List α)
    {f : α → M β} (h : ∀ a, Moves R (f a)) : Moves R (collect l f) := by
  induction l with
  | nil => exact moves_pure hr []
  | cons a as ih => exact moves_bind ht (h a) fun _ => moves_bind ht ih fun _ => moves_pure hr _

theorem moves_takeFault (h : ∀ s e, R s (s.setErr e)) (r : ErrRec) : Moves R (takeFault r : M α) := by
  intro s
  simp only [takeFault_apply]
  rw [State.enterFault_eq]
  exact h s _

theorem moves_raise (h : ∀ s e, R s (s.setErr e)) (place : Option (Nat × Nat)) (e : Err) :
    Moves R (raise place e) := by
  intro s
  cases hf : fatal s.strict e
  · rw [raise_of_relaxed _ hf]
    exact h s _
  · rw [raise_of_fatal _ hf]
    simp only
    rw [State.enterFault_eq]
    exact h s _

theorem moves_memRead (hr : ∀ s, R s s) (ht : ∀ a b c, R a b → R b c → R a c)
    (h : ∀ s e, R s (s.setErr e)) (a : RamAddr) : Moves R (memRead a) := by
  refine moves_bind ht (moves_look hr _) fun s => ?_
  split
  · exact moves_pure hr _
  · exact moves_bind ht (moves_raise h _ _) fun _ => moves_pure hr _

theorem moves_memWrite (hr : ∀ s, R s s) (ht : ∀ a b c, R a b → R b c → R a c)
    (h : ∀ s e, R s (s.setErr e)) (a : RamAddr) (w : Word) (hw : ∀ s, R s (s.setMem (s.mem.write a w))) :
    Moves R (memWrite a w) := by
  refine moves_bind ht (moves_look hr _) fun s => ?_
  split
  · exact moves_change hw
  · exact moves_raise h _ _

/-- What an operation relates, the step it takes relates, up to what the operation returned. -/
theorem moves_outcome {m : M Ret} (h : Moves R m) {s u : State} (e : outcome m s = .next u) :
    R s u ∨ ∃ r t, R s t ∧ u = t.setResult r := by
  rcases outcome_eq_next.1 e with ⟨r, t, e', rfl⟩ | e'
  · exact .inr ⟨r, t, moves_ok h e', rfl⟩
  · exact .inl (moves_faulted h e')

end

end Sys2Proof.Machine
end

