-- ==== Sys2Proof/Laws/Bits.lean ====
section
/-! SUPPORT. The bit-field primitives, bit by bit. -/

namespace Sys2Proof

theorem testBit_ones (n i : Nat) : (ones n).testBit i = decide (i < n) :=
  Nat.testBit_two_pow_sub_one n i

theorem ones_lt (n : Nat) : ones n < 2 ^ n := Nat.sub_lt (Nat.two_pow_pos n) Nat.one_pos

theorem testBit_notBits (n v i : Nat) : (notBits n v).testBit i = (decide (i < n) && !v.testBit i) := by
  rw [notBits, Nat.testBit_xor, testBit_ones, Nat.testBit_mod_two_pow]
  by_cases h : i < n <;> simp [h]

theorem notBits_lt (n v : Nat) : notBits n v < 2 ^ n :=
  Nat.xor_lt_two_pow (ones_lt n) (Nat.mod_lt _ (Nat.two_pow_pos n))

theorem testBit_getBits {N v : Nat} (hv : v < 2 ^ N) (off n i : Nat) :
    (getBits N v off n).testBit i = (decide (i < n) && v.testBit (off + i)) := by
  unfold getBits
  split
  · rename_i h
    rcases h with rfl | h
    · simp
    · rw [Nat.testBit_lt_two_pow (lt_of_lt_of_le hv (Nat.pow_le_pow_right two_pos (by omega)))]
      simp
  · rw [Nat.testBit_mod_two_pow, Nat.testBit_div_two_pow, Nat.add_comm]

theorem getBits_lt (N v off n : Nat) : getBits N v off n < 2 ^ n := by
  unfold getBits
  split
  · exact Nat.two_pow_pos n
  · exact Nat.mod_lt _ (Nat.two_pow_pos n)

/-- A field inside the vector, as a quotient and a remainder. -/
theorem getBits_of_lt {N off : Nat} (v n : Nat) (h : off < N) : getBits N v off n = v / 2 ^ off % 2 ^ n := by
  unfold getBits
  by_cases hn : n = 0
  · subst hn
    simp [Nat.mod_one]
  · rw [if_neg (by omega)]

theorem testBit_fieldMask (N off n i : Nat) :
    (fieldMask N off n).testBit i = (decide (i < N) && decide (off ≤ i ∧ i < off + n)) := by
  rw [fieldMask, Nat.testBit_mod_two_pow, Nat.testBit_mul_two_pow, testBit_ones]
  by_cases h1 : i < N <;> by_cases h2 : off ≤ i <;> simp [h1, h2]
  omega

theorem testBit_setBits {N i : Nat} (v x off n : Nat) (hi : i < N) :
    (setBits N v x off n).testBit i = if off ≤ i ∧ i < off + n then x.testBit (i - off) else v.testBit i := by
  unfold setBits
  split
  · rw [if_neg (by omega)]
  · simp only [Nat.testBit_or, Nat.testBit_and, testBit_notBits, testBit_fieldMask, Nat.testBit_mul_two_pow,
      Nat.testBit_mod_two_pow, hi]
    by_cases h : off ≤ i ∧ i < off + n
    · have h' : i - off < n := by omega
      simp [h, h']
    · simp [h]

theorem setBits_lt {N v : Nat} (hv : v < 2 ^ N) (x off n : Nat) : setBits N v x off n < 2 ^ N := by
  unfold setBits
  split
  · exact hv
  · exact Nat.or_lt_two_pow (Nat.and_lt_two_pow _ (notBits_lt _ _))
      (Nat.and_lt_two_pow _ (Nat.mod_lt _ (Nat.two_pow_pos N)))

theorem wordBits_lt (w : Word) (off n : Nat) : wordBits w off n < 2 ^ n := getBits_lt _ _ _ _

theorem testBit_wordBits (w : Word) (off n i : Nat) :
    (wordBits w off n).testBit i = (decide (i < n) && w.getLsbD (off + i)) :=
  testBit_getBits w.isLt off n i

theorem wordBits_of_lt {off : Nat} (w : Word) (n : Nat) (h : off < 128) :
    wordBits w off n = w.toNat / 2 ^ off % 2 ^ n :=
  getBits_of_lt _ _ h

/-- A field of a word that is written: its bits are the value's, every other bit is as it was. -/
theorem getLsbD_wordSet (w : Word) (x off n i : Nat) :
    (wordSet w x off n).getLsbD i
      = (decide (i < 128) && if off ≤ i ∧ i < off + n then x.testBit (i - off) else w.getLsbD i) := by
  rw [wordSet, BitVec.getLsbD_ofNat]
  by_cases hi : i < 128
  · rw [testBit_setBits _ _ _ _ hi]
    rfl
  · simp [hi]

theorem toNat_wordSet (w : Word) (x off n : Nat) : (wordSet w x off n).toNat = setBits 128 w.toNat x off n :=
  Nat.mod_eq_of_lt (setBits_lt w.isLt x off n)

/-- Reading back a field that was written, cut to its width. -/
theorem wordBits_wordSet_same (w : Word) (x off n : Nat) (h : off + n ≤ 128) :
    wordBits (wordSet w x off n) off n = x % 2 ^ n := by
  apply Nat.eq_of_testBit_eq
  intro i
  rw [testBit_wordBits, getLsbD_wordSet, Nat.testBit_mod_two_pow]
  by_cases hi : i < n
  · have : off + i < 128 := by omega
    simp [hi, this]
  · simp [hi]

/-- Reading a field that does not meet the one written. -/
theorem wordBits_wordSet_other (w : Word) (x off n off' n' : Nat) (h : off' + n' ≤ off ∨ off + n ≤ off') :
    wordBits (wordSet w x off n) off' n' = wordBits w off' n' := by
  apply Nat.eq_of_testBit_eq
  intro i
  rw [testBit_wordBits, testBit_wordBits, getLsbD_wordSet]
  by_cases hi : i < n'
  · rw [if_neg (by omega)]
    by_cases h128 : off' + i < 128
    · simp [h128]
    · simp [BitVec.getLsbD_of_ge, Nat.le_of_not_lt h128]
  · simp [hi]

theorem signed_of_lt {n v : Nat} (h : v < 2 ^ n) :
    signed n v = if 2 ^ (n - 1) ≤ v ∧ 0 < n then (v : Int) - 2 ^ n else (v : Int) := by
  rw [signed, Nat.mod_eq_of_lt h]
  have h' : ((v : Int) % 2 ^ n) = v := by
    exact_mod_cast congrArg (Nat.cast : Nat → Int) (Nat.mod_eq_of_lt h)
  rw [h']

end Sys2Proof

namespace Sys2Proof.Machine

/-- Every operand source is a value of the execution's width (R255). -/
theorem operand_lt {r : SaluRun} {code : BitVec 3} {x : Nat} (h : operand r code = some x) :
    x < 2 ^ r.width := by
  unfold operand at h
  split at h <;> first
    | (cases h; exact wordBits_lt _ _ _)
    | (cases h; exact Nat.mod_lt _ (Nat.two_pow_pos _))
    | cases h

end Sys2Proof.Machine
end

