-- ==== Sys2Proof/Laws/PerInstr.lean ====
section
/-! SUPPORT. Per operation: the encoded word of an operation fits in the width of its format, so that every
operand field has its place in the word. -/

namespace Sys2Proof.Laws.Coverage

/-- The encoded word of the operation, when it has one, has no bit at or above the width of its format. -/
def Statement (i : Instr) : Prop := ∀ c, encode i = some c → c.word < 2 ^ c.format.width

/-! ### One bound a format -/

theorem fits_of_lt {i : Instr} {c : Coded} (e : encode i = some c)
    (h : c.word < 2 ^ c.format.width) : Statement i := by
  intro c' h'
  rw [e] at h'
  cases h'
  exact h

theorem fits_of_none {i : Instr} (e : encode i = none) : Statement i := by
  intro c h
  rw [e] at h
  cases h

theorem fits_of_hc {i : Instr} {code : Nat} {a : HostArgs} (e : encode i = codedHc code a)
    (h : code < 2 ^ 8) : Statement i :=
  fits_of_lt e h

theorem saDisabled_le : 2 ^ 23 ≤ 2 ^ Format.sa.width := by decide

theorem maDisabled_le : 2 ^ 31 ≤ 2 ^ Format.ma.width := by decide

theorem encodeSaFields_lt (a : SaFields) {op : Nat} (h : op < 4) : encodeSaFields a op < 2 ^ 24 := by
  unfold encodeSaFields
  have := a.subword.isLt
  have := a.word.isLt
  omega

theorem encodeMaFields_lt (a : MaFields) {op : Nat} (h : op < 8) : encodeMaFields a op < 2 ^ 32 := by
  unfold encodeMaFields
  have := a.sub.isLt
  have := a.word.isLt
  have := a.instr.isLt
  omega

theorem encodeCmpFields_lt (c : CmpFields) {cop : Nat} (h : cop < 16) : encodeCmpFields c cop < 2 ^ 16 := by
  unfold encodeCmpFields
  have := c.srcA.isLt
  have := c.srcB.isLt
  have := c.bNeg.toNat_le
  have := c.cEn.toNat_le
  have := c.sbusAnd.toNat_le
  have := c.sbusOr.toNat_le
  have := c.sbusInv.toNat_le
  omega

theorem encodeAuFields_lt (u : AuFields) {aop : Nat} (h : aop < 32) : encodeAuFields u aop < 2 ^ 16 := by
  unfold encodeAuFields
  have := u.srcA.isLt
  have := u.srcB.isLt
  have := u.pred.isLt
  omega

theorem encodeOutFields_lt (o : OutFields) {sel : Nat} (h : sel < 16) : encodeOutFields o sel < 2 ^ 16 := by
  unfold encodeOutFields
  have := o.pred.isLt
  omega

theorem encodeMiscFields_lt (m : MiscFields) {mode bitOp : Nat} (h : mode < 4) (hb : bitOp < 8) :
    encodeMiscFields m mode bitOp < 2 ^ 16 := by
  unfold encodeMiscFields
  have := m.width.isLt
  have := m.divEn.toNat_le
  have := m.divSrcA.isLt
  have := m.divSrcB.isLt
  omega

theorem encodeDivFields_lt (d : DivFields) : encodeDivFields d < 2 ^ 16 := by
  unfold encodeDivFields
  have := d.mode.isLt
  have := d.width.isLt
  have := d.divSrcA.isLt
  have := d.divSrcB.isLt
  have := d.bitOp.isLt
  omega

theorem encodeMmFields_lt (m : MmFields) {isMax : Nat} (h : isMax < 2) : encodeMmFields m isMax < 2 ^ 32 := by
  unfold encodeMmFields
  have := m.size16.toNat_le
  have := m.maskSrc.toNat_le
  have := m.tieHigh.toNat_le
  have := m.post.isLt
  have := m.delta.isLt
  have := m.constMask.isLt
  omega

theorem encodeOpFields_lt (o : OpFields) {opcode : Nat} (h : opcode < 16) : encodeOpFields o opcode < 2 ^ 96 := by
  unfold encodeOpFields
  have := o.epoch.isLt
  have := o.lt.isLt
  have := o.stage.isLt
  have := o.pipe.isLt
  have := o.arg.isLt
  cases o.atype <;> simp only <;> omega

/-! ### The operations, in the order of the table -/

theorem statsNop (a : SaFields) : Statement (.statsNop a) :=
  fits_of_lt rfl (encodeSaFields_lt a (by decide))

theorem stats (a : SaFields) : Statement (.stats a) :=
  fits_of_lt rfl (encodeSaFields_lt a (by decide))

theorem cfgRd (a : SaFields) : Statement (.cfgRd a) :=
  fits_of_lt rfl (encodeSaFields_lt a (by decide))

theorem cfgRdclr (a : SaFields) : Statement (.cfgRdclr a) :=
  fits_of_lt rfl (encodeSaFields_lt a (by decide))

theorem statsDisabled (rest : BitVec 23) : Statement (.statsDisabled rest) :=
  fits_of_lt rfl (Nat.lt_of_lt_of_le rest.isLt saDisabled_le)

theorem maNop (a : MaFields) : Statement (.maNop a) :=
  fits_of_lt rfl (encodeMaFields_lt a (by decide))

theorem saluExec (a : MaFields) : Statement (.saluExec a) :=
  fits_of_lt rfl (encodeMaFields_lt a (by decide))

theorem selExec (a : MaFields) : Statement (.selExec a) :=
  fits_of_lt rfl (encodeMaFields_lt a (by decide))

theorem maCfgRd (a : MaFields) : Statement (.maCfgRd a) :=
  fits_of_lt rfl (encodeMaFields_lt a (by decide))

theorem maDisabled (rest : BitVec 31) : Statement (.maDisabled rest) :=
  fits_of_lt rfl (Nat.lt_of_lt_of_le rest.isLt maDisabled_le)

theorem cmpEq (c : CmpFields) : Statement (.cmpEq c) :=
  fits_of_lt rfl (encodeCmpFields_lt c (by decide))

theorem cmpNe (c : CmpFields) : Statement (.cmpNe c) :=
  fits_of_lt rfl (encodeCmpFields_lt c (by decide))

theorem cmpDisabled (c : CmpFields) : Statement (.cmpDisabled c) :=
  fits_of_lt rfl (encodeCmpFields_lt c (by decide))

theorem cmpGtS (c : CmpFields) : Statement (.cmpGtS c) :=
  fits_of_lt rfl (encodeCmpFields_lt c (by decide))

theorem cmpGeS (c : CmpFields) : Statement (.cmpGeS c) :=
  fits_of_lt rfl (encodeCmpFields_lt c (by decide))

theorem cmpLtS (c : CmpFields) : Statement (.cmpLtS c) :=
  fits_of_lt rfl (encodeCmpFields_lt c (by decide))

theorem cmpLeS (c : CmpFields) : Statement (.cmpLeS c) :=
  fits_of_lt rfl (encodeCmpFields_lt c (by decide))

theorem cmpGtU (c : CmpFields) : Statement (.cmpGtU c) :=
  fits_of_lt rfl (encodeCmpFields_lt c (by decide))

theorem cmpGeU (c : CmpFields) : Statement (.cmpGeU c) :=
  fits_of_lt rfl (encodeCmpFields_lt c (by decide))

theorem cmpLtU (c : CmpFields) : Statement (.cmpLtU c) :=
  fits_of_lt rfl (encodeCmpFields_lt c (by decide))

theorem cmpLeU (c : CmpFields) : Statement (.cmpLeU c) :=
  fits_of_lt rfl (encodeCmpFields_lt c (by decide))

theorem cmpGtUus (c : CmpFields) : Statement (.cmpGtUus c) :=
  fits_of_lt rfl (encodeCmpFields_lt c (by decide))

theorem cmpGeUus (c : CmpFields) : Statement (.cmpGeUus c) :=
  fits_of_lt rfl (encodeCmpFields_lt c (by decide))

theorem cmpLtUus (c : CmpFields) : Statement (.cmpLtUus c) :=
  fits_of_lt rfl (encodeCmpFields_lt c (by decide))

theorem cmpLeUus (c : CmpFields) : Statement (.cmpLeUus c) :=
  fits_of_lt rfl (encodeCmpFields_lt c (by decide))

theorem aNop (u : AuFields) : Statement (.aNop u) :=
  fits_of_lt rfl (encodeAuFields_lt u (by decide))

theorem aAdd (u : AuFields) : Statement (.aAdd u) :=
  fits_of_lt rfl (encodeAuFields_lt u (by decide))

theorem aSub (u : AuFields) : Statement (.aSub u) :=
  fits_of_lt rfl (encodeAuFields_lt u (by decide))

theorem aSubr (u : AuFields) : Statement (.aSubr u) :=
  fits_of_lt rfl (encodeAuFields_lt u (by decide))

theorem aSaddu (u : AuFields) : Statement (.aSaddu u) :=
  fits_of_lt rfl (encodeAuFields_lt u (by decide))

theorem aSadds (u : AuFields) : Statement (.aSadds u) :=
  fits_of_lt rfl (encodeAuFields_lt u (by decide))

theorem aSsubu (u : AuFields) : Statement (.aSsubu u) :=
  fits_of_lt rfl (encodeAuFields_lt u (by decide))

theorem aSsubs (u : AuFields) : Statement (.aSsubs u) :=
  fits_of_lt rfl (encodeAuFields_lt u (by decide))

theorem aMinu (u : AuFields) : Statement (.aMinu u) :=
  fits_of_lt rfl (encodeAuFields_lt u (by decide))

theorem aMins (u : AuFields) : Statement (.aMins u) :=
  fits_of_lt rfl (encodeAuFields_lt u (by decide))

theorem aMaxu (u : AuFields) : Statement (.aMaxu u) :=
  fits_of_lt rfl (encodeAuFields_lt u (by decide))

theorem aMaxs (u : AuFields) : Statement (.aMaxs u) :=
  fits_of_lt rfl (encodeAuFields_lt u (by decide))

theorem aAddc (u : AuFields) : Statement (.aAddc u) :=
  fits_of_lt rfl (encodeAuFields_lt u (by decide))

theorem aSubc (u : AuFields) : Statement (.aSubc u) :=
  fits_of_lt rfl (encodeAuFields_lt u (by decide))

theorem lSetz (u : AuFields) : Statement (.lSetz u) :=
  fits_of_lt rfl (encodeAuFields_lt u (by decide))

theorem lNor (u : AuFields) : Statement (.lNor u) :=
  fits_of_lt rfl (encodeAuFields_lt u (by decide))

theorem lAndca (u : AuFields) : Statement (.lAndca u) :=
  fits_of_lt rfl (encodeAuFields_lt u (by decide))

theorem lNota (u : AuFields) : Statement (.lNota u) :=
  fits_of_lt rfl (encodeAuFields_lt u (by decide))

theorem lAndcb (u : AuFields) : Statement (.lAndcb u) :=
  fits_of_lt rfl (encodeAuFields_lt u (by decide))

theorem lNotb (u : AuFields) : Statement (.lNotb u) :=
  fits_of_lt rfl (encodeAuFields_lt u (by decide))

theorem lXor (u : AuFields) : Statement (.lXor u) :=
  fits_of_lt rfl (encodeAuFields_lt u (by decide))

theorem lNand (u : AuFields) : Statement (.lNand u) :=
  fits_of_lt rfl (encodeAuFields_lt u (by decide))

theorem lAnd (u : AuFields) : Statement (.lAnd u) :=
  fits_of_lt rfl (encodeAuFields_lt u (by decide))

theorem lXnor (u : AuFields) : Statement (.lXnor u) :=
  fits_of_lt rfl (encodeAuFields_lt u (by decide))

theorem lB (u : AuFields) : Statement (.lB u) :=
  fits_of_lt rfl (encodeAuFields_lt u (by decide))

theorem lOrca (u : AuFields) : Statement (.lOrca u) :=
  fits_of_lt rfl (encodeAuFields_lt u (by decide))

theorem lA (u : AuFields) : Statement (.lA u) :=
  fits_of_lt rfl (encodeAuFields_lt u (by decide))

theorem lOrcb (u : AuFields) : Statement (.lOrcb u) :=
  fits_of_lt rfl (encodeAuFields_lt u (by decide))

theorem lOr (u : AuFields) : Statement (.lOr u) :=
  fits_of_lt rfl (encodeAuFields_lt u (by decide))

theorem lSethi (u : AuFields) : Statement (.lSethi u) :=
  fits_of_lt rfl (encodeAuFields_lt u (by decide))

theorem oNone (o : OutFields) : Statement (.oNone o) :=
  fits_of_lt rfl (encodeOutFields_lt o (by decide))

theorem oRamLo (o : OutFields) : Statement (.oRamLo o) :=
  fits_of_lt rfl (encodeOutFields_lt o (by decide))

theorem oRamHi (o : OutFields) : Statement (.oRamHi o) :=
  fits_of_lt rfl (encodeOutFields_lt o (by decide))

theorem oPhvLo (o : OutFields) : Statement (.oPhvLo o) :=
  fits_of_lt rfl (encodeOutFields_lt o (by decide))

theorem oPhvHi (o : OutFields) : Statement (.oPhvHi o) :=
  fits_of_lt rfl (encodeOutFields_lt o (by decide))

theorem oAluLo (o : OutFields) : Statement (.oAluLo o) :=
  fits_of_lt rfl (encodeOutFields_lt o (by decide))

theorem oAluHi (o : OutFields) : Statement (.oAluHi o) :=
  fits_of_lt rfl (encodeOutFields_lt o (by decide))

theorem oPred (o : OutFields) : Statement (.oPred o) :=
  fits_of_lt rfl (encodeOutFields_lt o (by decide))

theorem oDiv (o : OutFields) : Statement (.oDiv o) :=
  fits_of_lt rfl (encodeOutFields_lt o (by decide))

theorem oMod (o : OutFields) : Statement (.oMod o) :=
  fits_of_lt rfl (encodeOutFields_lt o (by decide))

theorem oMmValue (o : OutFields) : Statement (.oMmValue o) :=
  fits_of_lt rfl (encodeOutFields_lt o (by decide))

theorem oMmIndex (o : OutFields) : Statement (.oMmIndex o) :=
  fits_of_lt rfl (encodeOutFields_lt o (by decide))

theorem oBitOld (o : OutFields) : Statement (.oBitOld o) :=
  fits_of_lt rfl (encodeOutFields_lt o (by decide))

theorem modeDual (m : MiscFields) (bitOp : BitVec 3) : Statement (.modeDual m bitOp) :=
  fits_of_lt rfl (encodeMiscFields_lt m (by decide) bitOp.isLt)

theorem bitNop (m : MiscFields) : Statement (.bitNop m) :=
  fits_of_lt rfl (encodeMiscFields_lt m (by decide) (by decide))

theorem bitRead (m : MiscFields) : Statement (.bitRead m) :=
  fits_of_lt rfl (encodeMiscFields_lt m (by decide) (by decide))

theorem bitReadc (m : MiscFields) : Statement (.bitReadc m) :=
  fits_of_lt rfl (encodeMiscFields_lt m (by decide) (by decide))

theorem bitSet (m : MiscFields) : Statement (.bitSet m) :=
  fits_of_lt rfl (encodeMiscFields_lt m (by decide) (by decide))

theorem bitSetc (m : MiscFields) : Statement (.bitSetc m) :=
  fits_of_lt rfl (encodeMiscFields_lt m (by decide) (by decide))

theorem bitClr (m : MiscFields) : Statement (.bitClr m) :=
  fits_of_lt rfl (encodeMiscFields_lt m (by decide) (by decide))

theorem bitClrc (m : MiscFields) : Statement (.bitClrc m) :=
  fits_of_lt rfl (encodeMiscFields_lt m (by decide) (by decide))

theorem modeMinmax (m : MiscFields) (bitOp : BitVec 3) : Statement (.modeMinmax m bitOp) :=
  fits_of_lt rfl (encodeMiscFields_lt m (by decide) bitOp.isLt)

theorem divMod (d : DivFields) : Statement (.divMod d) :=
  fits_of_lt rfl (encodeDivFields_lt d)

theorem mmMin (m : MmFields) : Statement (.mmMin m) :=
  fits_of_lt rfl (encodeMmFields_lt m (by decide))

theorem mmMax (m : MmFields) : Statement (.mmMax m) :=
  fits_of_lt rfl (encodeMmFields_lt m (by decide))

theorem intervalSet (o : OpFields) : Statement (.intervalSet o) :=
  fits_of_lt rfl (encodeOpFields_lt o (by decide))

theorem lock (o : OpFields) : Statement (.lock o) :=
  fits_of_lt rfl (encodeOpFields_lt o (by decide))

theorem unlock (o : OpFields) : Statement (.unlock o) :=
  fits_of_lt rfl (encodeOpFields_lt o (by decide))

theorem sweep (o : OpFields) : Statement (.sweep o) :=
  fits_of_lt rfl (encodeOpFields_lt o (by decide))

theorem dump (o : OpFields) : Statement (.dump o) :=
  fits_of_lt rfl (encodeOpFields_lt o (by decide))

theorem dumpWord (o : OpFields) : Statement (.dumpWord o) :=
  fits_of_lt rfl (encodeOpFields_lt o (by decide))

theorem evictWord (o : OpFields) : Statement (.evictWord o) :=
  fits_of_lt rfl (encodeOpFields_lt o (by decide))

theorem barrier (o : OpFields) : Statement (.barrier o) :=
  fits_of_lt rfl (encodeOpFields_lt o (by decide))

theorem enqueue (port : Nat) (bytes : List Byte) : Statement (.enqueue port bytes) :=
  fits_of_hc rfl (by decide)

theorem enqueuePkt (port : Nat) (pkt : Packet) (pgen : Bool) : Statement (.enqueuePkt port pkt pgen) :=
  fits_of_hc rfl (by decide)

theorem enqueueResubmit (pkt : Packet) : Statement (.enqueueResubmit pkt) :=
  fits_of_hc rfl (by decide)

theorem enqueueFromTm (pkt : Packet) (pipe : Nat) : Statement (.enqueueFromTm pkt pipe) :=
  fits_of_hc rfl (by decide)

theorem waitForIdle : Statement (.waitForIdle) :=
  fits_of_hc rfl (by decide)

theorem stop : Statement (.stop) :=
  fits_of_hc rfl (by decide)

theorem start : Statement (.start) :=
  fits_of_hc rfl (by decide)

theorem setField (name : FieldName) (idx : List Nat) (part : Nat) (value : BitVec 64) : Statement (.setField name idx part value) :=
  fits_of_hc rfl (by decide)

theorem getField (name : FieldName) (idx : List Nat) (part : Nat) : Statement (.getField name idx part) :=
  fits_of_hc rfl (by decide)

theorem setConfig (key value : String) : Statement (.setConfig key value) :=
  fits_of_hc rfl (by decide)

theorem ramWrite (addr : RamAddr) (value : RamVal) : Statement (.ramWrite addr value) :=
  fits_of_hc rfl (by decide)

theorem ramRead (addr : RamAddr) : Statement (.ramRead addr) :=
  fits_of_hc rfl (by decide)

theorem opCreate (opcode : BitVec 4) (atype : AType) (table : TableId) (arg : BitVec 64) (queue : QueueSel) : Statement (.opCreate opcode atype table arg queue) :=
  fits_of_hc rfl (by decide)

theorem drainEvict (pipe stage alu : Nat) : Statement (.drainEvict pipe stage alu) :=
  fits_of_hc rfl (by decide)

theorem snapSetState (pipe stage : Nat) (gress : Gress) (sn : BitVec 2) : Statement (.snapSetState pipe stage gress sn) :=
  fits_of_hc rfl (by decide)

theorem irqAck (source : IrqSource) : Statement (.irqAck source) :=
  fits_of_hc rfl (by decide)

theorem ctrStartClear (pipe stage ctr : Nat) : Statement (.ctrStartClear pipe stage ctr) :=
  fits_of_hc rfl (by decide)

theorem bvGetWord (n v off len : Nat) : Statement (.bvGetWord n v off len) :=
  fits_of_none rfl

theorem bvSetWord (n v value off len : Nat) : Statement (.bvSetWord n v value off len) :=
  fits_of_none rfl

theorem bvFromWords (n : Nat) (words : List (BitVec 64)) : Statement (.bvFromWords n words) :=
  fits_of_none rfl

theorem bvTcamCompare (n w0 w1 s0 s1 : Nat) : Statement (.bvTcamCompare n w0 w1 s0 s1) :=
  fits_of_none rfl

theorem bvSearchEncode (n key : Nat) : Statement (.bvSearchEncode n key) :=
  fits_of_none rfl

theorem bvMaskedS0q1S1q0Equals (n stored query m01 m10 : Nat) : Statement (.bvMaskedS0q1S1q0Equals n stored query m01 m10) :=
  fits_of_none rfl

theorem bvMaskedEquals (n v w m : Nat) : Statement (.bvMaskedEquals n v w m) :=
  fits_of_none rfl

theorem bvPopcountParity (n v : Nat) : Statement (.bvPopcountParity n v) :=
  fits_of_none rfl

theorem bvByteShift (n v k : Nat) (dir : ShiftDir) : Statement (.bvByteShift n v k dir) :=
  fits_of_none rfl

theorem bvExtractInto (n src off m : Nat) : Statement (.bvExtractInto n src off m) :=
  fits_of_none rfl

theorem bvSetFrom (n dst off m src : Nat) : Statement (.bvSetFrom n dst off m src) :=
  fits_of_none rfl

theorem rowGetHashIndex (col : Nat) : Statement (.rowGetHashIndex col) :=
  fits_of_none rfl

theorem rowExactLookup (col : Nat) : Statement (.rowExactLookup col) :=
  fits_of_none rfl

theorem rowHitAddress : Statement (.rowHitAddress) :=
  fits_of_none rfl

theorem rowTernaryLookup (lt : Nat) : Statement (.rowTernaryLookup lt) :=
  fits_of_none rfl

theorem rowTindLookup (col : Nat) : Statement (.rowTindLookup col) :=
  fits_of_none rfl

theorem rowGatewayLookup : Statement (.rowGatewayLookup) :=
  fits_of_none rfl

theorem rowSetMatchOutputBus (bus output col : Nat) : Statement (.rowSetMatchOutputBus bus output col) :=
  fits_of_none rfl

theorem rowSetTindOutputBus (bus output col : Nat) : Statement (.rowSetTindOutputBus bus output col) :=
  fits_of_none rfl

theorem rowResetResources : Statement (.rowResetResources) :=
  fits_of_none rfl

theorem rowAluData (alu : Nat) : Statement (.rowAluData alu) :=
  fits_of_none rfl

theorem statsDumpEntry (word subword : Nat) : Statement (.statsDumpEntry word subword) :=
  fits_of_none rfl

theorem statsLrtCheck (a : SaFields) (pkt byt : Nat) : Statement (.statsLrtCheck a pkt byt) :=
  fits_of_none rfl

theorem selResilient (pv : Word) (hash52 : BitVec 52) : Statement (.selResilient pv hash52) :=
  fits_of_none rfl

theorem selPlanB (pv : Word) (hash52 : BitVec 52) : Statement (.selPlanB pv hash52) :=
  fits_of_none rfl

theorem selFair (pv : Word) (hash52 : BitVec 52) : Statement (.selFair pv hash52) :=
  fits_of_none rfl

theorem ctrPushFifo (c : Nat) : Statement (.ctrPushFifo c) :=
  fits_of_none rfl

theorem ctrPopFifo (c : Nat) : Statement (.ctrPopFifo c) :=
  fits_of_none rfl

theorem ctrPushStack (c : Nat) : Statement (.ctrPushStack c) :=
  fits_of_none rfl

theorem ctrPopStack (c : Nat) : Statement (.ctrPopStack c) :=
  fits_of_none rfl

theorem ctrWatermark (c : Nat) (pop : Bool) : Statement (.ctrWatermark c pop) :=
  fits_of_none rfl

theorem ctrStartClearAt (c t : Nat) : Statement (.ctrStartClearAt c t) :=
  fits_of_none rfl

theorem ctrClearStep (c : Nat) : Statement (.ctrClearStep c) :=
  fits_of_none rfl

theorem ctrContinueClearTill (c tStop : Nat) : Statement (.ctrContinueClearTill c tStop) :=
  fits_of_none rfl

theorem ctrMaybeSynchronousClear (c : Nat) : Statement (.ctrMaybeSynchronousClear c) :=
  fits_of_none rfl

theorem snapStep : Statement (.snapStep) :=
  fits_of_none rfl

theorem snapFirstPass : Statement (.snapFirstPass) :=
  fits_of_none rfl

theorem snapFinalizeSnapshot (nextTable : BitVec 8) : Statement (.snapFinalizeSnapshot nextTable) :=
  fits_of_none rfl

theorem teopBusesAtHdrtime (lt : Nat) : Statement (.teopBusesAtHdrtime lt) :=
  fits_of_none rfl

theorem teopBusesAtTeoptime (lt : Nat) : Statement (.teopBusesAtTeoptime lt) :=
  fits_of_none rfl

theorem teopDelayRequired (lt bus : Nat) : Statement (.teopDelayRequired lt bus) :=
  fits_of_none rfl

theorem teopOutputStatsAddr (lt alu : Nat) (addr : BitVec 32) : Statement (.teopOutputStatsAddr lt alu addr) :=
  fits_of_none rfl

theorem teopOutputMeterAddr (lt alu : Nat) (addr : BitVec 32) : Statement (.teopOutputMeterAddr lt alu addr) :=
  fits_of_none rfl

theorem teopConsume : Statement (.teopConsume) :=
  fits_of_none rfl

theorem swpIncLock (t : TableId) (a : AType) : Statement (.swpIncLock t a) :=
  fits_of_none rfl

theorem swpDecLock (t : TableId) (a : AType) : Statement (.swpDecLock t a) :=
  fits_of_none rfl

theorem swpLockWait (t : TableId) (a : AType) : Statement (.swpLockWait t a) :=
  fits_of_none rfl

theorem swpOpStartStop (t : TableId) (a : AType) (starts : Bool) : Statement (.swpOpStartStop t a starts) :=
  fits_of_none rfl

theorem swpIsLockedElseOpStart (t : TableId) (a : AType) : Statement (.swpIsLockedElseOpStart t a) :=
  fits_of_none rfl

theorem swpTimerTick : Statement (.swpTimerTick) :=
  fits_of_none rfl

theorem coordWorkerScan (w : Nat) : Statement (.coordWorkerScan w) :=
  fits_of_none rfl

theorem coordDequeue (p : Nat) : Statement (.coordDequeue p) :=
  fits_of_none rfl

theorem coordSelectInput (p : Nat) : Statement (.coordSelectInput p) :=
  fits_of_none rfl

theorem coordWorkerProcess (w : Nat) : Statement (.coordWorkerProcess w) :=
  fits_of_none rfl

theorem coordIngressActivation (p : Nat) (pkt : Packet) : Statement (.coordIngressActivation p pkt) :=
  fits_of_none rfl

theorem coordEgressActivation (p : Nat) (pkt : Packet) : Statement (.coordEgressActivation p pkt) :=
  fits_of_none rfl

theorem coordRelease (w p n : Nat) : Statement (.coordRelease w p n) :=
  fits_of_none rfl

theorem coordPacketArrived : Statement (.coordPacketArrived) :=
  fits_of_none rfl

theorem coordWaitForPackets (w : Nat) : Statement (.coordWaitForPackets w) :=
  fits_of_none rfl

theorem coordTransmit (pkt : Packet) : Statement (.coordTransmit pkt) :=
  fits_of_none rfl

theorem stageCycle (p s : Nat) : Statement (.stageCycle p s) :=
  fits_of_none rfl

theorem fault (rec : ErrRec) : Statement (.fault rec) :=
  fits_of_none rfl

end Sys2Proof.Laws.Coverage
end

