-- ==== Sys2Proof/Laws/Units.lean ====
section
/-! SUPPORT. What each shared operation of the units can do: the guards of a site, the checks, the execution
in progress of a stateful ALU, the output buses, the queues of the coordinator. -/

namespace Sys2Proof.Machine

/-! ### Where an operation is addressed -/

section
variable {s : State} {p st : Nat}

theorem stageExists_of_at (h : AtStage s p st) : stageExists s.params p st = true := by
  simp [stageExists, h.2.2.1, h.2.2.2]

theorem stageExists_iff (params : Params) (p st : Nat) :
    stageExists params p st = true ↔ p < params.numPipes ∧ st < params.numStages := by
  simp [stageExists]

theorem tableInRange_iff (params : Params) (t : TableId) :
    tableInRange params t = true ↔ t.pipe < params.numPipes ∧ t.stage < params.numStages ∧ t.lt < params.numLt := by
  simp [tableInRange, stageExists, and_assoc]

theorem atStage_apply {α : Type} (h : AtStage s p st) (f : Nat → Nat → M α) : atStage f s = f p st s := by
  have hs := stageExists_of_at h
  obtain ⟨rfl, rfl, -⟩ := h
  simp [atStage, hs]

theorem atRow_apply {α : Type} {r : Nat} (h : AtRow s p st r) (f : Nat → Nat → Nat → M α) :
    atRow f s = f p st r s := by
  obtain ⟨h, rfl, hr⟩ := h
  have hs := stageExists_of_at h
  obtain ⟨rfl, rfl, -⟩ := h
  simp [atRow, hs, hr]

theorem atStats_apply {α : Type} {a : Nat} (h : AtStats s p st a) (f : Nat → Nat → Nat → M α) :
    atStats f s = f p st a s := by
  obtain ⟨h, rfl, hr⟩ := h
  have hs := stageExists_of_at h
  obtain ⟨rfl, rfl, -⟩ := h
  simp [atStats, hs, hr]

theorem atSel_apply {α : Type} {a : Nat} (h : AtSel s p st a) (f : Nat → Nat → Nat → M α) :
    atSel f s = f p st a s := by
  obtain ⟨h, rfl, hr⟩ := h
  have hs := stageExists_of_at h
  obtain ⟨rfl, rfl, -⟩ := h
  simp [atSel, hs, hr]

theorem atSalu_apply {α : Type} {a : Nat} (h : AtSalu s p st a) (f : Nat → Nat → Nat → M α) :
    atSalu f s = f p st a s := by
  obtain ⟨h, rfl, hr⟩ := h
  have hs := stageExists_of_at h
  obtain ⟨rfl, rfl, -⟩ := h
  simp [atSalu, hs, hr]

theorem onTable_apply {t : TableId} (h : TableExists s t) (m : M Ret) : onTable t m s = m s := by
  simp [onTable, (tableInRange_iff s.params t).2 h]

theorem onWorker_apply {α : Type} {w : Nat} (h : w < s.params.numWorkers) (m : M α) :
    onWorker w m s = m s := by
  simp [onWorker, h]

theorem onPipe_apply {α : Type} {p : Nat} (h : p < s.params.numPipes) (m : M α) : onPipe p m s = m s := by
  simp [onPipe, h]

theorem withCounter_apply {p st c : Nat} (h : c < s.params.numCtrs) (m : M Ret) :
    withCounter p st c m s = m s := by
  simp [withCounter, h]

end

/-! ### Addresses in range (R70, R71) -/

section
variable {s : State} {p st : Nat}

theorem sramAddr_inRange {r c idx : Nat} (h : AtRow s p st r) (hc : c < numCols)
    (hi : idx < s.params.sramDepth) : ramInRange s.params (sramAddr p st r c idx) = true := by
  obtain ⟨⟨-, -, hp, hst⟩, -, hr⟩ := h
  simp [ramInRange, sramAddr, spaceUnits, spaceCols, spaceSize, *]

theorem statsAddr_inRange {a w : Nat} (h : AtStats s p st a) (hw : w < s.params.statsRamWords) :
    ramInRange s.params (statsAddr p st a w) = true := by
  obtain ⟨⟨-, -, hp, hst⟩, -, hr⟩ := h
  simp [ramInRange, statsAddr, spaceUnits, spaceCols, spaceSize, *]

theorem saluAddr_inRange {a w : Nat} (h : AtSalu s p st a) (hw : w < s.params.saluRamWords) :
    ramInRange s.params (saluAddr p st a w) = true := by
  obtain ⟨⟨-, -, hp, hst⟩, -, hr⟩ := h
  simp [ramInRange, saluAddr, spaceUnits, spaceCols, spaceSize, *]

theorem selAddr_inRange {a w : Nat} (h : AtSel s p st a) (hw : w < s.params.selRamWords) :
    ramInRange s.params (selAddr p st a w) = true := by
  obtain ⟨⟨-, -, hp, hst⟩, -, hr⟩ := h
  simp [ramInRange, selAddr, spaceUnits, spaceCols, spaceSize, *]

end

/-! ### Checks -/

theorem legalField_of_lt {s : State} {name : FieldName} {idx : List Nat} {bound : Nat}
    (h : s.field name idx < bound) : legalField name idx bound s = .ok (s.field name idx) s := by
  simp [legalField, h]

theorem legalField_of_ge {s : State} {name : FieldName} {idx : List Nat} {bound : Nat}
    (h : bound ≤ s.field name idx) :
    legalField name idx bound s = .error (.refuse (.illegalConfig name)) s := by
  simp [legalField, Nat.not_lt.2 h]

theorem getWordOp_of_le {s : State} {N v off n : Nat} (h : n ≤ 64) :
    getWordOp N v off n s = .ok (getBits N v off n) s := by
  simp [getWordOp, h]

@[simp] theorem need_some {α : Type} (s : State) (x : α) : need (some x) s = .ok x s := rfl
@[simp] theorem need_none {α : Type} (s : State) :
    (need none : M α) s = .error (.refuse .reservedCode) s := rfl

theorem readBounds_of_le {s : State} {p st c : Nat}
    (h : s.field .vpnBase [p, st, c] ≤ s.field .vpnLimit [p, st, c]) :
    readBounds p st c s = .ok (boundsAt s p st c) s := by
  simp [readBounds, h]

theorem statsValidate_of_has {s : State} {p st a k : Nat} (sa : BitVec 24)
    (h : FormatHas (s.statsFmt p st a) k) : statsValidate p st a k sa s = .ok (some (s.statsFmt p st a)) s := by
  have hk := h.1
  have h0 : (s.statsFmt p st a).nEntries ≠ 0 := by omega
  have h1 : ¬ (s.statsFmt p st a).nEntries ≤ k := by omega
  have e : statsFormatAt s.params (s.field .statsFormat [p, st, a]) = s.statsFmt p st a := rfl
  simp only [statsValidate, look_bind, id, e, if_neg h0, if_neg h1, pure_apply]

/-! ### The execution in progress of a stateful ALU -/

@[simp] theorem runOf_apply (s : State) (p st a : Nat) : runOf p st a s = .ok (s.saluRun p st a) s := rfl
@[simp] theorem putRun_apply (s : State) (p st a : Nat) (r : SaluRun) :
    putRun p st a r s = .ok () (s.putSaluRun p st a r) := rfl
@[simp] theorem runOf_bind {α : Type} (s : State) (p st a : Nat) (k : SaluRun → M α) :
    (runOf p st a >>= k) s = k (s.saluRun p st a) s := rfl
@[simp] theorem putRun_bind {α : Type} (s : State) (p st a : Nat) (r : SaluRun) (k : Unit → M α) :
    (putRun p st a r >>= k) s = k () (s.putSaluRun p st a r) := rfl

@[simp] theorem State.saluRun_putSaluRun_same (s : State) (p st a : Nat) (r : SaluRun) :
    (s.putSaluRun p st a r).saluRun p st a = r := by
  simp [State.saluRun_putSaluRun]

theorem predicate_eq (tt : BitVec 4) (p0 p1 : Bool) :
    predicate tt p0 p1 = tt.getLsbD (2 * p1.toNat + p0.toNat) := rfl

theorem predicate_of_holds {r : SaluRun} {tt : BitVec 4} (h : PredHolds r tt) :
    predicate tt r.p0 r.p1 = true := h

theorem predicate_of_not {r : SaluRun} {tt : BitVec 4} (h : ¬ PredHolds r tt) :
    predicate tt r.p0 r.p1 = false := Bool.eq_false_iff.2 h

/-- The gate of the model is the gate of R273. -/
theorem gate_eq_gatedBy (raw : Bool) (c : CmpFields) (b : Bool) : gate raw c b = gatedBy c raw b := by
  unfold gate gatedBy
  cases raw <;> cases b <;> cases c.sbusInv <;> cases c.sbusAnd <;> cases c.sbusOr <;> rfl

/-- A compare unit whose raw result is known. -/
theorem compareUnit_apply {s : State} {p st a : Nat} {op : CmpOp} {c : CmpFields} {raw : Bool}
    (h : cmpRaw op c (s.saluRun p st a) = some raw) :
    compareUnit p st a op c s
      = .ok (gatedOf (withCompare (s.saluRun p st a) c raw) c.unit)
          (s.putSaluRun p st a (withCompare (s.saluRun p st a) c raw)) := by
  simp [compareUnit, h, bind_apply, map_apply]

/-- A unit that does not run (R276). -/
theorem idleUnit_apply (s : State) (p st a : Nat) (half : Half) (r : SaluRun) :
    idleUnit p st a half r s
      = .ok (oldHalf r half) (s.putSaluRun p st a (withHalf r half (oldHalf r half))) := rfl

/-- A logical unit that runs (R292). -/
theorem logicHalf_apply {s : State} {p st a tt x y : Nat} {u : AuFields}
    (hp : PredHolds (s.saluRun p st a) u.pred) (hs : Sources (s.saluRun p st a) u.srcA u.srcB x y) :
    logicHalf p st a tt u s
      = .ok (logicValue tt (s.saluRun p st a).width x y)
          (s.putSaluRun p st a (withHalf (s.saluRun p st a) u.half
            (logicValue tt (s.saluRun p st a).width x y))) := by
  simp [logicHalf, predicate_of_holds hp, hs.1, hs.2, bind_apply, map_apply]

/-- An arithmetic unit that runs is its operation on the two operands. -/
theorem arithHalf_apply {s : State} {p st a x y : Nat} {op : ArithOp} {u : AuFields}
    (hp : PredHolds (s.saluRun p st a) u.pred) (hs : Sources (s.saluRun p st a) u.srcA u.srcB x y) :
    arithHalf p st a op u s = arithUnit p st a op u.half (s.saluRun p st a) x y s := by
  simp [arithHalf, predicate_of_holds hp, hs.1, hs.2, bind_apply]

/-- The divide unit (R317, R318). -/
theorem divide_apply {s : State} {p st a x y : Nat} {ca cb : BitVec 3}
    (hs : Sources (s.saluRun p st a) ca cb x y) :
    divide p st a ca cb s
      = .ok (dividerOutput (divOperand x) (divOperand y), modulusOutput (divOperand x) (divOperand y))
          (s.putSaluRun p st a { s.saluRun p st a with
            divRan := true, quot := dividerOutput (divOperand x) (divOperand y),
            rem := modulusOutput (divOperand x) (divOperand y) }) := by
  simp [divide, hs.1, hs.2, bind_apply, map_apply]

/-- The width of a `MISC` word (R253, R254). -/
theorem setWidth_apply {s : State} {p st a W : Nat} {m : MiscFields} (h : widthOf m.width = some W) :
    setWidth p st a m s = .ok () (s.putSaluRun p st a (widened (s.saluRun p st a) W)) := by
  simp [setWidth, h, bind_apply, widened, entryBase]

/-! ### Output buses (R170) -/

theorem setOutputBus_of_land {s : State} {k : BusKind} {p st r bus out col idx : Nat} {b' : BusRec}
    (h : busWrite (s.bus k [p, st, r, bus]) (out % 2 ^ busWidth s.params k) (s.params.priority.getD col 0)
      (s.params.prigroup.getD col 0) (hitAddress col idx) = .land b') :
    setOutputBus k p st r bus out col idx s = .ok () (s.putBus k [p, st, r, bus] b') := by
  simp only [setOutputBus, look_bind, id]
  rw [h]
  rfl

theorem setOutputBus_of_ignored {s : State} {k : BusKind} {p st r bus out col idx : Nat}
    (h : busWrite (s.bus k [p, st, r, bus]) (out % 2 ^ busWidth s.params k) (s.params.priority.getD col 0)
      (s.params.prigroup.getD col 0) (hitAddress col idx) = .ignored) :
    setOutputBus k p st r bus out col idx s = .ok () s := by
  simp only [setOutputBus, look_bind, id]
  rw [h]
  rfl

/-! ### Counters -/

@[simp] theorem counterOf_apply (s : State) (p st c : Nat) :
    counterOf p st c s = .ok (s.counter p st c) s := rfl
@[simp] theorem putCtr_apply (s : State) (p st c : Nat) (v : Counter) :
    putCtr p st c v s = .ok () (s.putCounter p st c v) := rfl
@[simp] theorem counterOf_bind {α : Type} (s : State) (p st c : Nat) (k : Counter → M α) :
    (counterOf p st c >>= k) s = k (s.counter p st c) s := rfl
@[simp] theorem putCtr_bind {α : Type} (s : State) (p st c : Nat) (v : Counter) (k : Unit → M α) :
    (putCtr p st c v >>= k) s = k () (s.putCounter p st c v) := rfl

/-- A counter that is not clearing is left alone by the sweep (R347). -/
theorem clearTillLoop_of_inactive {s : State} {p st c : Nat} (h : ctrActive (s.counter p st c).flags = false)
    (tStop n : Nat) : clearTillLoop p st c tStop n s = .ok () s := by
  cases n <;> simp [clearTillLoop, h]

/-- And by the synchronous clear (R349). -/
theorem clearAllLoop_of_inactive {s : State} {p st c : Nat} (h : ctrActive (s.counter p st c).flags = false)
    (n : Nat) : clearAllLoop p st c n s = .ok () s := by
  cases n <;> simp [clearAllLoop, h]

/-! ### The coordinator -/

theorem mem_waiters (s : State) (w : Nat) :
    w ∈ waiters s ↔ w < s.params.numWorkers ∧ (s.worker w).wstate = .waiting ∧ (s.worker w).notified = false := by
  simp [waiters]

/-- Notifying one waiter: nobody when none waits, else one of those that wait (R448). -/
theorem notifyOne_apply (s : State) :
    (waiters s = [] ∧ notifyOne s = .ok () s) ∨
    (∃ w n, w ∈ waiters s ∧ notifyOne s = .ok () (notifyWorker w (s.setDraws n))) := by
  rcases h : waiters s with _ | ⟨w, _ | ⟨w', ws⟩⟩
  · exact .inl ⟨rfl, by simp [notifyOne, h]⟩
  · exact .inr ⟨w, s.draws, by simp, by simp [notifyOne, h, State.setDraws]⟩
  · refine .inr ⟨(w :: w' :: ws).getD (Config.waiter s.draws % (w :: w' :: ws).length) 0, s.draws + 1, ?_, ?_⟩
    · have hlt : Config.waiter s.draws % (w :: w' :: ws).length < (w :: w' :: ws).length :=
        Nat.mod_lt _ (by simp)
      rw [List.getD_eq_getElem?_getD, List.getElem?_eq_getElem hlt]
      exact List.getElem_mem hlt
    · simp only [notifyOne, look_bind, h]
      rfl

end Sys2Proof.Machine
end

