-- ==== Sys2Proof/Tests/Slice0.lean ====
section
/-! SUPPORT. Tests: ill-formed operands that `WellFormed` refuses, words written out from the encoding tables
of `30_encoding.md`, single steps with the expected values of `95_test_vectors.md`, and for every
statement with hypotheses a state and operands that meet them (`witness_<statement>`). -/

namespace Sys2Proof.Tests

-- One theorem after another: each runs in a thread whose stack counts against the memory limit.
set_option Elab.async false

open Sys2Proof Sys2Proof.Machine

/-! ### Helpers -/

/-- The word of this format is read as this operation, and the operation is encoded as the word. -/
abbrev reads (f : Format) (w : Nat) (i : Instr) : Prop :=
  decode { format := f, word := w } = .ok i ∧ encode i = some { format := f, word := w }

/-- The command with this code and these operands is read as this operation, and encoded as it. -/
abbrev commands (code : Nat) (a : HostArgs) (i : Instr) : Prop :=
  decode { format := .hc, word := code, args := a } = .ok i ∧
    encode i = some { format := .hc, word := code, args := a }

/-- The next state of an outcome; a faulted or refused outcome gives a state with `draws` 1000. -/
def nextOf (o : Host.Outcome State Fault Refusal) : State :=
  match o with
  | .next t => t
  | .fault _ => State.reset.setDraws 1000
  | .refused _ => State.reset.setDraws 1000

/-- The refusal of an outcome. -/
def refusalOf (o : Host.Outcome State Fault Refusal) : Option Refusal :=
  match o with
  | .refused r => some r
  | _ => none

/-- The fault of an outcome. -/
def faultOf (o : Host.Outcome State Fault Refusal) : Option Fault :=
  match o with
  | .fault f => some f
  | _ => none

/-- The state after an operation. -/
def run (i : Instr) (s : State) : State := nextOf (exec i s)

/-- What an operation answers. -/
def answer (i : Instr) (s : State) : Ret := (run i s).result

/-- A small launch: one pipe, one stage, one row, a few entries. -/
def tiny : Params :=
  { Params.default with
    numPipes := 1, numStages := 1, numRows := 1, sramDepth := 4, numTcam := 2, tcamW := 2, numLt := 2,
    gwEntries := 2, gwW := 2, phvN32 := 1, phvN8 := 0, phvN16 := 0, statsRamWords := 4,
    saluRamWords := 4, selRamWords := 4, numSalu := 2, numStatsAlu := 1, numTeopBuses := 2,
    numCtrs := 2, numWorkers := 2 }

/-- The reset state of the small launch. -/
def small : State := { State.reset with params := tiny }

/-- A state with these configuration fields. -/
def withFields (s : State) (l : List (FieldName × List Nat × Nat)) : State :=
  l.foldl (fun s e => s.putField e.1 e.2.1 e.2.2) s

/-- A state with this execution in progress at stateful ALU 0. -/
def withRun (r : SaluRun) (s : State) : State := s.putSaluRun 0 0 0 r

/-- A state with this word of a stats ALU's RAM. -/
def withStats (i : Nat) (w : Word) (s : State) : State := s.setMem (s.mem.write (statsAddr 0 0 0 i) w)

/-- A state with this word of a stateful ALU's RAM. -/
def withSalu (i : Nat) (w : Word) (s : State) : State := s.setMem (s.mem.write (saluAddr 0 0 0 i) w)

/-- A state whose I/O object carries this packet length. -/
def withLen (n : Nat) (s : State) : State := s.setIo { s.act.io with byteLen := n }

/-- A state with one line on the agenda. -/
def withLine (l : Line) (s : State) : State := s.setAgenda [l]

/-! ### Operands that are not well formed (R7, R20) -/

theorem test_illformed_vectors :
    [Instr.bvGetWord 4 16 0 1, .bvGetWord 0 0 0 1, .bvSetWord 4 16 0 0 1, .bvFromWords 65 [0],
      .bvFromWords 0 [], .bvTcamCompare 1 2 0 0 0, .bvTcamCompare 1 0 2 0 0, .bvTcamCompare 1 0 0 2 0,
      .bvTcamCompare 1 0 0 0 2, .bvSearchEncode 3 8, .bvMaskedS0q1S1q0Equals 1 2 0 0 0,
      .bvMaskedS0q1S1q0Equals 1 0 2 0 0, .bvMaskedS0q1S1q0Equals 1 0 0 2 0,
      .bvMaskedS0q1S1q0Equals 1 0 0 0 2, .bvMaskedEquals 1 2 0 0, .bvMaskedEquals 1 0 2 0,
      .bvMaskedEquals 1 0 0 2, .bvPopcountParity 8 256, .bvByteShift 8 256 1 .left,
      .bvExtractInto 8 256 0 4, .bvExtractInto 8 255 0 0, .bvSetFrom 8 256 0 4 0, .bvSetFrom 8 0 0 4 16
      ].all (fun i => !i.wellFormed) = true := by decide

theorem test_illformed_columns :
    [Instr.rowGetHashIndex 12, .rowExactLookup 12, .rowTindLookup 12, .rowSetMatchOutputBus 0 0 12,
      .rowSetTindOutputBus 0 0 12].all (fun i => !i.wellFormed) = true := by decide

theorem test_wellformed_boundaries :
    [Instr.bvGetWord 4 15 9 64, .bvFromWords 65 [0, 0], .bvSetFrom 8 255 20 4 15, .rowTindLookup 11,
      .bvExtractInto 8 255 0 1].all Instr.wellFormed = true := by decide

/-- An operation with ill-formed operands is refused by the step. -/
theorem test_illformed_step :
    step (withLine { body := .instr (.rowExactLookup 12) } small) = .refused .illFormed := by rfl

/-- R500: an agent without the right to an operation does not run it. -/
theorem test_rights :
    let by' := fun (a : Agent) (i : Instr) => step (withLine { agent := a, body := .instr i } small)
    by' (.worker 0) (.setField .aluDataHashEn [0, 0, 0] 0 1) = .refused .notPermitted ∧
    by' .sweeper (.ramWrite {} (.word 1)) = .refused .notPermitted ∧
    by' (.unit 0 0) .start = .refused .notPermitted ∧
    by' .host .swpTimerTick = .refused .notPermitted ∧
    by' (.unit 1 0) (.stats {}) = .refused .notPermitted ∧
    by' (.worker 1) (.coordWorkerScan 0) = .refused .notPermitted ∧
    by' (.worker 0) (.coordEgressActivation 0 {}) = .refused .notPermitted ∧
    by' (.worker 2) (.coordTransmit {}) = .refused .notPermitted ∧
    by' (.worker 0) (.coordRelease 0 0 0) = .refused .notPermitted ∧
    (nextOf (by' .sweeper .swpTimerTick)).swp.tick = 1 := by
  and_intros <;> rfl

/-! ### Words written out from the tables (R102 to R124) -/

theorem test_decode_stats_addresses :
    reads .sa 0x880000 (.statsNop { subword := 0, word := 0x10000 }) ∧
    reads .sa 0x980919 (.stats { subword := 1, word := 0x10123 }) ∧
    reads .sa 0xA81232 (.cfgRd { subword := 2, word := 0x10246 }) ∧
    reads .sa 0xB81B4B (.cfgRdclr { subword := 3, word := 0x10369 }) ∧
    reads .sa 0x6D5E6F (.statsDisabled 0x6D5E6F) := by
  and_intros <;> rfl

theorem test_decode_meter_addresses :
    reads .ma 0x888000C0 (.maNop { sub := 0x40, word := 0x10001, instr := 1 }) ∧
    reads .ma 0x918080C9 (.saluExec { sub := 0x49, word := 0x10101, instr := 2 }) ∧
    reads .ma 0x9A8100D2 (.selExec { sub := 0x52, word := 0x10201, instr := 3 }) ∧
    reads .ma 0x838180DB (.maCfgRd { sub := 0x5B, word := 0x10301, instr := 0 }) ∧
    reads .ma 0x7ED5E685 (.maDisabled 0x7ED5E685) := by
  and_intros <;> rfl

theorem test_decode_compares_1 :
    reads (.cmp .zero) 0x4100 (.cmpEq ⟨.zero, 0, 2, false, false, false, false, true⟩) ∧
    reads (.cmp .one) 0x591 (.cmpNe ⟨.one, 1, 3, true, false, false, false, false⟩) ∧
    reads (.cmp .zero) 0x4A22 (.cmpDisabled ⟨.zero, 2, 4, false, true, false, false, true⟩) ∧
    reads (.cmp .one) 0xEB4 (.cmpGtS ⟨.one, 3, 5, true, true, false, false, false⟩) ∧
    reads (.cmp .zero) 0x5345 (.cmpGeS ⟨.zero, 4, 6, false, false, true, false, true⟩) ∧
    reads (.cmp .one) 0x1786 (.cmpLtS ⟨.one, 0, 7, true, false, true, false, false⟩) ∧
    reads (.cmp .zero) 0x5817 (.cmpLeS ⟨.zero, 1, 0, false, true, true, false, true⟩) ∧
    reads (.cmp .one) 0x1CA8 (.cmpGtU ⟨.one, 2, 1, true, true, true, false, false⟩) ∧
    reads (.cmp .zero) 0x6139 (.cmpGeU ⟨.zero, 3, 2, false, false, false, true, true⟩) ∧
    reads (.cmp .one) 0x25CA (.cmpLtU ⟨.one, 4, 3, true, false, false, true, false⟩) := by
  and_intros <;> rfl

theorem test_decode_compares_2 :
    reads (.cmp .zero) 0x6A0B (.cmpLeU ⟨.zero, 0, 4, false, true, false, true, true⟩) ∧
    reads (.cmp .one) 0x2E9C (.cmpGtUus ⟨.one, 1, 5, true, true, false, true, false⟩) ∧
    reads (.cmp .zero) 0x732D (.cmpGeUus ⟨.zero, 2, 6, false, false, true, true, true⟩) ∧
    reads (.cmp .one) 0x37BE (.cmpLtUus ⟨.one, 3, 7, true, false, true, true, false⟩) ∧
    reads (.cmp .zero) 0x784F (.cmpLeUus ⟨.zero, 4, 0, false, true, true, true, true⟩) := by
  and_intros <;> rfl

theorem test_decode_units_1 :
    reads (.au .lo) 0x830 (.aNop { half := .lo, srcA := 1, srcB := 0, pred := 1 }) ∧
    reads (.au .hi) 0x4351 (.aAdd { half := .hi, srcA := 2, srcB := 3, pred := 8 }) ∧
    reads (.au .lo) 0x7E72 (.aSub { half := .lo, srcA := 3, srcB := 6, pred := 15 }) ∧
    reads (.au .hi) 0x3193 (.aSubr { half := .hi, srcA := 4, srcB := 1, pred := 6 }) ∧
    reads (.au .lo) 0x6CB4 (.aSaddu { half := .lo, srcA := 5, srcB := 4, pred := 13 }) ∧
    reads (.au .hi) 0x27D5 (.aSadds { half := .hi, srcA := 6, srcB := 7, pred := 4 }) ∧
    reads (.au .lo) 0x5AF6 (.aSsubu { half := .lo, srcA := 7, srcB := 2, pred := 11 }) ∧
    reads (.au .hi) 0x1517 (.aSsubs { half := .hi, srcA := 0, srcB := 5, pred := 2 }) ∧
    reads (.au .lo) 0x4838 (.aMinu { half := .lo, srcA := 1, srcB := 0, pred := 9 }) ∧
    reads (.au .hi) 0x359 (.aMins { half := .hi, srcA := 2, srcB := 3, pred := 0 }) := by
  and_intros <;> rfl

theorem test_decode_units_2 :
    reads (.au .lo) 0x3E7A (.aMaxu { half := .lo, srcA := 3, srcB := 6, pred := 7 }) ∧
    reads (.au .hi) 0x719B (.aMaxs { half := .hi, srcA := 4, srcB := 1, pred := 14 }) ∧
    reads (.au .lo) 0x2CBC (.aAddc { half := .lo, srcA := 5, srcB := 4, pred := 5 }) ∧
    reads (.au .hi) 0x67DD (.aSubc { half := .hi, srcA := 6, srcB := 7, pred := 12 }) ∧
    reads (.au .lo) 0x1AE0 (.lSetz { half := .lo, srcA := 7, srcB := 2, pred := 3 }) ∧
    reads (.au .hi) 0x5501 (.lNor { half := .hi, srcA := 0, srcB := 5, pred := 10 }) ∧
    reads (.au .lo) 0x822 (.lAndca { half := .lo, srcA := 1, srcB := 0, pred := 1 }) ∧
    reads (.au .hi) 0x4343 (.lNota { half := .hi, srcA := 2, srcB := 3, pred := 8 }) ∧
    reads (.au .lo) 0x7E64 (.lAndcb { half := .lo, srcA := 3, srcB := 6, pred := 15 }) ∧
    reads (.au .hi) 0x3185 (.lNotb { half := .hi, srcA := 4, srcB := 1, pred := 6 }) := by
  and_intros <;> rfl

theorem test_decode_units_3 :
    reads (.au .lo) 0x6CA6 (.lXor { half := .lo, srcA := 5, srcB := 4, pred := 13 }) ∧
    reads (.au .hi) 0x27C7 (.lNand { half := .hi, srcA := 6, srcB := 7, pred := 4 }) ∧
    reads (.au .lo) 0x5AE8 (.lAnd { half := .lo, srcA := 7, srcB := 2, pred := 11 }) ∧
    reads (.au .hi) 0x1509 (.lXnor { half := .hi, srcA := 0, srcB := 5, pred := 2 }) ∧
    reads (.au .lo) 0x482A (.lB { half := .lo, srcA := 1, srcB := 0, pred := 9 }) ∧
    reads (.au .hi) 0x34B (.lOrca { half := .hi, srcA := 2, srcB := 3, pred := 0 }) ∧
    reads (.au .lo) 0x3E6C (.lA { half := .lo, srcA := 3, srcB := 6, pred := 7 }) ∧
    reads (.au .hi) 0x718D (.lOrcb { half := .hi, srcA := 4, srcB := 1, pred := 14 }) ∧
    reads (.au .lo) 0x2CAE (.lOr { half := .lo, srcA := 5, srcB := 4, pred := 5 }) ∧
    reads (.au .hi) 0x67CF (.lSethi { half := .hi, srcA := 6, srcB := 7, pred := 12 }) := by
  and_intros <;> rfl

theorem test_decode_outputs_1 :
    reads .out 0x10 (.oNone { pred := 1 }) ∧
    reads .out 0x61 (.oRamLo { pred := 6 }) ∧
    reads .out 0xB2 (.oRamHi { pred := 11 }) ∧
    reads .out 0x3 (.oPhvLo { pred := 0 }) ∧
    reads .out 0x54 (.oPhvHi { pred := 5 }) ∧
    reads .out 0xA5 (.oAluLo { pred := 10 }) ∧
    reads .out 0xF6 (.oAluHi { pred := 15 }) ∧
    reads .out 0x47 (.oPred { pred := 4 }) ∧
    reads .out 0x98 (.oDiv { pred := 9 }) ∧
    reads .out 0xE9 (.oMod { pred := 14 }) := by
  and_intros <;> rfl

theorem test_decode_outputs_2 :
    reads .out 0x3A (.oMmValue { pred := 3 }) ∧
    reads .out 0x8B (.oMmIndex { pred := 8 }) ∧
    reads .out 0xDC (.oBitOld { pred := 13 }) := by
  and_intros <;> rfl

theorem test_decode_misc_words :
    reads .misc 0x2E60 (.modeDual { width := 0, divEn := false, divSrcA := 3, divSrcB := 6 } 5) ∧
    reads .misc 0x795 (.bitNop { width := 1, divEn := true, divSrcA := 4, divSrcB := 7 }) ∧
    reads .misc 0x8A9 (.bitRead { width := 2, divEn := false, divSrcA := 5, divSrcB := 0 }) ∧
    reads .misc 0x11D1 (.bitReadc { width := 0, divEn := true, divSrcA := 6, divSrcB := 1 }) ∧
    reads .misc 0x1AE5 (.bitSet { width := 1, divEn := false, divSrcA := 7, divSrcB := 2 }) ∧
    reads .misc 0x2319 (.bitSetc { width := 2, divEn := true, divSrcA := 0, divSrcB := 3 }) ∧
    reads .misc 0x2C21 (.bitClr { width := 0, divEn := false, divSrcA := 1, divSrcB := 4 }) ∧
    reads .misc 0x3555 (.bitClrc { width := 1, divEn := true, divSrcA := 2, divSrcB := 5 }) ∧
    reads .misc 0x2E6A (.modeMinmax { width := 2, divEn := false, divSrcA := 3, divSrcB := 6 } 5) := by
  and_intros <;> rfl

theorem test_decode_divide_words :
    reads .miscDiv 0x3579 (.divMod { mode := 1, width := 2, divSrcA := 3, divSrcB := 5, bitOp := 6 }) := by
  and_intros <;> rfl

theorem test_decode_minmax_words :
    reads .mm 0xC003A51C (.mmMin { size16 := false, maskSrc := true, tieHigh := true, post := 1, delta := 0xA5, constMask := 0xC003 }) ∧
    reads .mm 0xC004A62B (.mmMax { size16 := true, maskSrc := false, tieHigh := true, post := 2, delta := 0xA6, constMask := 0xC004 }) := by
  and_intros <;> rfl

theorem test_decode_operation_records :
    reads .op 0x8000000000000001181FF000 (.intervalSet { atype := .idle, epoch := 0xF0, lt := 15, stage := 0x81, pipe := 1, arg := 0x8000000000000001 }) ∧
    reads .op 0x8000000000000101282EF111 (.lock { atype := .stats, epoch := 0xF1, lt := 14, stage := 0x82, pipe := 2, arg := 0x8000000000000101 }) ∧
    reads .op 0x8000000000000201383DF202 (.unlock { atype := .idle, epoch := 0xF2, lt := 13, stage := 0x83, pipe := 3, arg := 0x8000000000000201 }) ∧
    reads .op 0x8000000000000301484CF313 (.sweep { atype := .stats, epoch := 0xF3, lt := 12, stage := 0x84, pipe := 4, arg := 0x8000000000000301 }) ∧
    reads .op 0x8000000000000401585BF404 (.dump { atype := .idle, epoch := 0xF4, lt := 11, stage := 0x85, pipe := 5, arg := 0x8000000000000401 }) ∧
    reads .op 0x8000000000000501686AF515 (.dumpWord { atype := .stats, epoch := 0xF5, lt := 10, stage := 0x86, pipe := 6, arg := 0x8000000000000501 }) ∧
    reads .op 0x80000000000006017879F606 (.evictWord { atype := .idle, epoch := 0xF6, lt := 9, stage := 0x87, pipe := 7, arg := 0x8000000000000601 }) ∧
    reads .op 0x80000000000007018888F717 (.barrier { atype := .stats, epoch := 0xF7, lt := 8, stage := 0x88, pipe := 8, arg := 0x8000000000000701 }) := by
  and_intros <;> rfl

theorem test_decode_host_commands_1 :
    commands 0x01 { port := 5, bytes := [1, 2] } (.enqueue 5 [1, 2]) ∧
    commands 0x02 { port := 6, pkt := { id := 9 }, pgen := true } (.enqueuePkt 6 { id := 9 } true) ∧
    commands 0x03 { pkt := { id := 7 } } (.enqueueResubmit { id := 7 }) ∧
    commands 0x04 { pkt := { id := 8 }, pipe := 3 } (.enqueueFromTm { id := 8 } 3) ∧
    commands 0x05 {} .waitForIdle ∧
    commands 0x06 {} .stop ∧
    commands 0x07 {} .start ∧
    commands 0x10 { name := .colMode, idx := [0, 1, 2, 3], part := 1, value := 2 }
      (.setField .colMode [0, 1, 2, 3] 1 2) ∧
    commands 0x11 { name := .irqPending } (.getField .irqPending [] 0) := by
  and_intros <;> rfl

theorem test_decode_host_commands_2 :
    commands 0x12 { key := "a", str := "b" } (.setConfig "a" "b") ∧
    commands 0x13 { addr := { space := .salu, index := 3 }, ram := .word 7 }
      (.ramWrite { space := .salu, index := 3 } (.word 7)) ∧
    commands 0x14 { addr := { space := .gw, unit := 2 } } (.ramRead { space := .gw, unit := 2 }) ∧
    commands 0x20 { opcode := 5, atype := .stats, table := { lt := 3 }, arg := 17, queue := .lo }
      (.opCreate 5 .stats { lt := 3 } 17 .lo) ∧
    commands 0x21 { pipe := 1, stage := 2, unit := 3 } (.drainEvict 1 2 3) ∧
    commands 0x22 { pipe := 1, stage := 2, gress := .egress, sn := 2 } (.snapSetState 1 2 .egress 2) ∧
    commands 0x23 { source := .snapshot 1 2 .egress } (.irqAck (.snapshot 1 2 .egress)) ∧
    commands 0x24 { pipe := 1, stage := 2, unit := 3 } (.ctrStartClear 1 2 3) := by
  and_intros <;> rfl

/-- The words that `95_test_vectors.md` prints for P1, P2, P3, P6 and V9. -/
theorem test_decode_printed_words :
    reads .sa 0x900011 (.stats { word := 2, subword := 1 }) ∧
    reads .sa 0xB00010 (.cfgRdclr { word := 2 }) ∧
    reads .ma 0x890001C0 (.saluExec { word := 3, sub := 0x40, instr := 1 }) ∧
    reads .ma 0x82000480 (.selExec { word := 9 }) ∧
    reads (.cmp .zero) 0x061A (.cmpLtU ⟨.zero, 1, 4, true, false, false, false, false⟩) ∧
    reads (.au .lo) 0x7A0A (.lB { half := .lo, srcA := 0, srcB := 2, pred := 15 }) ∧
    reads (.au .hi) 0x533C (.aAddc { half := .hi, srcA := 1, srcB := 3, pred := 10 }) ∧
    reads .mm 0x002E042B
      (.mmMax { size16 := true, tieHigh := true, post := 2, delta := 4, constMask := 0x2E }) ∧
    reads .op 0x0000000000000103_00230010 (.intervalSet { atype := .stats, lt := 3, stage := 2, arg := 0x103 }) := by
  and_intros <;> rfl

/-- Words that select no operation are rejected by name (R120). -/
theorem test_decode_rejects :
    decode { format := .sa, word := 0xD00028 } = .error .reservedBits ∧
    decode { format := .ma, word := 0x84000000 } = .error .reservedCode ∧
    decode { format := .cmp .zero, word := 0x0003 } = .error .reservedCode ∧
    decode { format := .cmp .zero, word := 0x8000 } = .error .reservedBits ∧
    decode { format := .au .lo, word := 0x001E } = .error .reservedCode ∧
    decode { format := .out, word := 0x000D } = .error .reservedCode ∧
    decode { format := .misc, word := 0x0003 } = .error .reservedCode ∧
    decode { format := .misc, word := 0x3801 } = .error .reservedCode ∧
    decode { format := .mm, word := 0x00000040 } = .error .reservedBits ∧
    decode { format := .op, word := 0x8 } = .error .reservedCode ∧
    decode { format := .hc, word := 0x08 } = .error .unknownCommand ∧
    decode { format := .sa, word := 0x1000000 } = .error .tooWide := by
  and_intros <;> rfl

/-- A bare word of the table is read in its format and runs as the first step. -/
theorem test_table_word_runs :
    decodeTableWord 24 0x900010 = some (.stats { word := 2 }) ∧
    decodeTableWord 8 0x07 = some .start ∧
    ((nextOf (step (State.reset.withFetchWord 8 0x07))).coord.run) = true := by
  and_intros <;> rfl

/-! ### BitVector primitives (vectors S1, S2, V1) -/

theorem test_bv_words :
    let v := 0x0123456789ABCDEF_FEDCBA9876543210
    answer (.bvFromWords 128 [0xFEDCBA9876543210, 0x0123456789ABCDEF]) small = .nat v ∧
    answer (.bvGetWord 128 v 60 8) small = .nat 0xFF ∧
    answer (.bvGetWord 128 v 120 16) small = .nat 0x01 ∧
    answer (.bvGetWord 128 v 128 8) small = .nat 0 ∧
    answer (.bvSetWord 128 0 0xABCD 60 16) small = .nat 0xABCD000000000000000 ∧
    answer (.bvSetWord 16 0xFFFF 0 12 8) small = .nat 0x0FFF ∧
    exec (.bvGetWord 128 v 0 65) small = .refused .wordTooWide := by
  and_intros <;> rfl

theorem test_bv_compares :
    answer (.bvTcamCompare 4 0b1101 0b0111 0b1001 0b0110) small = .bool true ∧
    answer (.bvTcamCompare 1 0 0 1 0) small = .bool false ∧
    answer (.bvTcamCompare 1 1 1 1 1) small = .bool true ∧
    answer (.bvSearchEncode 8 0xAA) small = .pair 0x55 0xAA ∧
    answer (.bvMaskedS0q1S1q0Equals 4 0b1010 0b1110 0b1011 0b1111) small = .bool true ∧
    answer (.bvMaskedS0q1S1q0Equals 4 0b1010 0b0010 0b1111 0b0111) small = .bool true ∧
    answer (.bvMaskedS0q1S1q0Equals 4 0b1010 0b0010 0b1111 0b1111) small = .bool false ∧
    answer (.bvMaskedEquals 4 0b1100 0b1010 0b1001) small = .bool true ∧
    answer (.bvMaskedEquals 4 0b1100 0b1010 0b0110) small = .bool false := by
  and_intros <;> rfl

theorem test_bv_moves :
    answer (.bvPopcountParity 16 0xF0F0) small = .pair 8 0 ∧
    answer (.bvPopcountParity 4 7) small = .pair 3 1 ∧
    answer (.bvByteShift 32 0x00ABCDEF 1 .left) small = .nat 0xABCDEF00 ∧
    answer (.bvByteShift 32 0x00ABCDEF 1 .right) small = .nat 0x0000ABCD ∧
    answer (.bvByteShift 32 0x00ABCDEF 4 .left) small = .nat 0 ∧
    answer (.bvExtractInto 16 0xABCD 4 8) small = .nat 0xBC ∧
    answer (.bvExtractInto 16 0xABCD 12 8) small = .nat 0x0A ∧
    answer (.bvSetFrom 16 0x0000 8 8 0xAB) small = .nat 0xAB00 ∧
    answer (.bvSetFrom 16 0xFFFF 12 8 0x00) small = .nat 0x0FFF ∧
    answer (.bvSetFrom 16 0x1234 16 8 0xAB) small = .nat 0x1234 := by
  and_intros <;> rfl

/-! ### SRAM row (vectors S3, V2) -/

/-- The arguments of a hashing or crossbar function of row 0 for the small launch's empty PHV. -/
def rowCall (unit col : Nat) : RowCall := { pipe := 0, stage := 0, unit := unit, col := col, phv := [] }

/-- The row of V2: column 4 in exact mode, hashed to 0x12345 (entry 1 of 4), the key 0x12AB, the ternary key
0b10 of table 1, the gateway query 0b01, and the crossbar slices. -/
def rowState : State :=
  let tables : OpenTables :=
    { hashFn := [(rowCall 0 4, 0x12345)], hashValidFn := [(rowCall 0 4, true), (rowCall 0 5, false)],
      matchKey := [(rowCall 0 4, 0x12AB)], tcamKey := [(rowCall 1 0, 0b10)], gwKey := [(rowCall 0 0, 0b01)],
      xbarHash := [(rowCall 0 0, 0x00FF)], xbarPhv := [(rowCall 0 0, 0x0F0F)] }
  let s := { small with
    params := { tiny with supplied := tables }
    mem := Memory.write [] (sramAddr 0 0 0 4 1) 0x00000000000000FF_DEADBEEF000012AB
    tcam := [([0, 0, 0], { w0 := 0b01, w1 := 0b10 }), ([0, 0, 1], { w0 := 0b11, w1 := 0b11 })]
    gw := [([0, 0, 0, 0], { valid := true, stored := 0b11, m01 := 3, m10 := 3 }),
           ([0, 0, 0, 1], { valid := true })] }
  withFields s [(.colMode, [0, 0, 0, 4], 1), (.emKeyMask, [0, 0, 0, 4], 0xFFFF), (.emOutOff, [0, 0, 0, 4], 32),
    (.colMode, [0, 0, 0, 6], 2), (.colLt, [0, 0, 0, 6], 1), (.tcamEntryValid, [0, 0, 0], 1),
    (.tcamEntryLt, [0, 0, 0], 1), (.tcamEntryValid, [0, 0, 1], 1), (.tcamEntryLt, [0, 0, 1], 1),
    (.gwEnable, [0, 0, 0], 1), (.gwLt, [0, 0, 0], 1), (.aluDataHashEn, [0, 0, 0], 1),
    (.aluDataPhvEn, [0, 0, 0], 1)]

theorem test_row_hash :
    answer (.rowGetHashIndex 4) rowState = .int 1 ∧
    answer (.rowGetHashIndex 5) rowState = .int (-1) ∧
    answer (.rowAluData 0) rowState = .word 0x0FFF := by
  and_intros <;> rfl

theorem test_row_lookups :
    answer (.rowExactLookup 4) rowState = .hit 1 ∧
    (run (.rowExactLookup 4) rowState).bus .matchBus [0, 0, 0, 0] =
      { inUse := true, value := 0x000000FFDEADBEEF, prio := 4, group := 0, hit := 0x400001 } ∧
    answer .rowHitAddress (run (.rowExactLookup 4) rowState) = .nat 0x400001 ∧
    answer (.rowExactLookup 4) (withFields rowState [(.emValidEn, [0, 0, 0, 4], 1), (.emValidBit, [0, 0, 0, 4], 127)])
      = .miss ∧
    answer (.rowTernaryLookup 1) rowState = .ternary 3 (some 1) ∧
    answer (.rowTindLookup 6) rowState = .hit 1 ∧
    answer .rowGatewayLookup rowState = .hit 1 ∧
    answer .rowGatewayLookup { rowState with gw := [([0, 0, 0, 0], { valid := true, stored := 1, m01 := 3, m10 := 3 })] }
      = .hit 0 := by
  and_intros <;> rfl

/-- S3: a1 to a4 in the relaxed mode, b1 to b3, and the strict fault. -/
theorem test_row_bus :
    let a2 := run (.rowSetMatchOutputBus 0 0x10 3) (run (.rowSetMatchOutputBus 0 0x01 1) small)
    let a3 := run (.rowSetMatchOutputBus 0 0x04 4) a2
    let b1 := run (.rowSetMatchOutputBus 0 0x80 8) small
    let bus := fun (s : State) => let b := s.bus .matchBus [0, 0, 0, 0]; (b.value, b.prio, b.group)
    bus a3 = (0x15, 4, 0) ∧
    (run (.rowSetMatchOutputBus 0 0x80 8) a3).err.faulted.map (·.info) = some (.busOverride 0 0 8 4 8) ∧
    bus (run (.rowSetMatchOutputBus 0 0x80 8) (a3.setStrict { busOverride := true })) = (0x80, 8, 1) ∧
    bus (run (.rowSetMatchOutputBus 0 0x0F 2) b1) = (0x80, 8, 1) ∧
    bus (run (.rowSetMatchOutputBus 0 0x03 9) b1) = (0x83, 9, 1) ∧
    bus (run .rowResetResources b1) = (0, 0, 0) ∧
    ((run (.rowSetTindOutputBus 1 0x7 2) b1).bus .tindBus [0, 0, 0, 1]).value = 7 := by
  and_intros <;> rfl

/-! ### Stats ALU (vectors S4, V3) -/

/-- Two sub-entries of packets and bytes. -/
def statsState : State := withLen 64 (withFields small [(.statsFormat, [0, 0, 0], 0b11010)])

/-- The same with the LRT of V3. -/
def lrtState : State :=
  withFields statsState [(.lrtEnable, [0, 0, 0], 1), (.lrtMultiplier, [0, 0, 0], 4), (.lrtThreshold, [0, 0, 0], 4000)]

theorem test_stats_counts :
    let word := fun (s : State) (w : Word) => (run (.stats { word := 1 }) (withStats 1 w s)).mem.read (statsAddr 0 0 0 1)
    word statsState 0x00000005_000003E8 = 0x00000006_00000428 ∧
    word (withLen 0x20 statsState) 0xFFFFFFFF_FFFFFFF0 = 0x00000000_00000010 ∧
    word statsState 0xFFFFFFFE_FFFFFFBF = 0xFFFFFFFF_FFFFFFFF ∧
    word statsState 0xFFFFFFFF_FFFFFFFF = 0xFFFFFFFF_FFFFFFFF ∧
    word lrtState 0x00000005_000003E8 = 0 ∧
    word lrtState 0x00000005_000003A8 = 0x00000006_000003E8 ∧
    word (withLen 2 (withFields statsState [(.byteAdjust, [0, 0, 0], 0x3FFC)])) 0x00000001_0000003C
      = 0x00000002_0000003C := by
  and_intros <;> rfl

theorem test_stats_eviction :
    let t := run (.stats { word := 1 }) (withStats 1 0x00000005_000003E8 lrtState)
    t.stash 0 0 0 = [{ addr := 0x00008, word := 0x6_0000000000000428 }] ∧
    answer (.drainEvict 0 0 0) t = .evicted (some { addr := 0x00008, word := 0x6_0000000000000428 }) ∧
    Store.get false t.err.irq (irqKey (.statsEvict 0 0 0)) = true ∧
    Store.get false (run (.irqAck (.statsEvict 0 0 0)) t).err.irq (irqKey (.statsEvict 0 0 0)) = false ∧
    answer (.statsLrtCheck { word := 1 } 6 1064) lrtState = .pair 0 0 ∧
    answer (.statsLrtCheck { word := 1 } 6 1000) lrtState = .pair 6 1000 := by
  and_intros <;> rfl

theorem test_stats_reads :
    let s := withStats 1 0x00000006_00000428 statsState
    answer (.cfgRdclr { word := 1 }) s = .alu (.data 0x600000428) ∧
    (run (.cfgRdclr { word := 1 }) s).mem.read (statsAddr 0 0 0 1) = 0 ∧
    answer (.cfgRd { word := 1 }) s = .alu (.data 0x600000428) ∧
    answer (.statsDumpEntry 1 0) s = .word 0x6_0000000000000428 ∧
    (run (.cfgRdclr { word := 1 }) (withStats 1 0xFFFFFFFFFFFFFFFF statsState)).mem.read (statsAddr 0 0 0 1)
      = 0xFFFFFFFFFFFFFFFF ∧
    answer (.statsNop { word := 1 }) s = .alu .none ∧
    answer (.statsDisabled 0x100028) s = .alu .none ∧
    (run (.stats { word := 1, subword := 2 }) s).err.faulted.map (·.code) = some 4 ∧
    (run (.stats {}) small).err.faulted.map (·.code) = some 3 := by
  and_intros <;> rfl

/-! ### Selector ALU (vectors S5, V4) -/

theorem test_selector_strategies :
    let on := fun n => withFields small [(.hashEnable, [0, 0, 0], n), (.fairBucketSel, [0, 0, 0], 1)]
    answer (.selResilient 0b1011 0x9001C005) (on 0b111) = .nat 1 ∧
    answer (.selResilient 0b1011 0x9001C005) (on 0b101) = .nat 0 ∧
    answer (.selResilient 0b1011 0x9001C005) (on 0) = .nat 255 ∧
    answer (.selPlanB 0b100000 (BitVec.ofNat 52 (0x00C41 * 2 ^ 34))) small = .nat 5 ∧
    answer (.selPlanB 0x0000001000000000_0000000000000042 0xA970C80014002) small = .nat 1 ∧
    answer (.selPlanB 0 5) small = .nat 255 ∧
    answer (.selFair 0b101100 0x28000) (on 0) = .nat 3 := by
  decide +kernel

/-- P3, steps 1 and 3: the miss falls back to Plan-B, and one cycle later the old word is used. -/
theorem test_selector_execution :
    let s := withFields (small.setMem (Memory.write [] (selAddr 0 0 0 2) 0x0000001000000000_0000000000000042))
      [(.selMode, [0, 0, 0], 1), (.hashEnable, [0, 0, 0], 7)]
    let go := fun (t : Nat) (s : State) => run (.selExec { word := 2 }) ((s.setAct { s.act with aluData := 0xA970C80014002, io := { s.act.io with t := t } }))
    let one := go 4 s
    let moved := run (.ramWrite { space := .sel, index := 2 } (.word 5)) one
    one.result = .alu (.member 1) ∧ (go 5 moved).result = .alu (.member 1) ∧
    (go 7 (go 5 moved)).result = .alu (.member 0) ∧
    (go 7 (go 5 moved)).selLast 0 0 0 = { valid := true, addr := 2, t := 7, inputWord := 5 } := by
  decide +kernel

/-! ### Stateful ALU (vectors S6, V5, P2) -/

/-- An execution of width `W` on the operands `a` (`RAM_LO`) and `b` (`PHV_LO`), with a constant. -/
def operands (W a b : Nat) (k : Nat) : SaluRun :=
  { width := W, input := BitVec.ofNat 128 a, output := BitVec.ofNat 128 a, data := BitVec.ofNat 128 b,
    instr := BitVec.ofNat 128 (k * 2 ^ 96), p0 := true, p1 := true }

/-- The bits that the fifteen compares answer for these operands, in the order of the codes. -/
def compareBits (a b k : Nat) (bNeg cEn : Bool) : List Ret :=
  let c : CmpFields := { srcA := 0, srcB := 2, bNeg := bNeg, cEn := cEn }
  [.cmpEq c, .cmpNe c, .cmpDisabled c, .cmpGtS c, .cmpGeS c, .cmpLtS c, .cmpLeS c, .cmpGtU c, .cmpGeU c,
    .cmpLtU c, .cmpLeU c, .cmpGtUus c, .cmpGeUus c, .cmpLtUus c, .cmpLeUus c].map
      (fun i => answer i (withRun (operands 8 a b k) small))

/-- Columns A to E of V5. -/
theorem test_salu_compares :
    let bits := fun l : List Nat => l.map (fun n => Ret.bool (n == 1))
    compareBits 0x80 0x7F 0 true false = bits [0, 1, 0, 0, 0, 1, 1, 1, 1, 0, 0, 1, 1, 0, 0] ∧
    compareBits 0xFF 0x01 0 false false = bits [1, 0, 0, 0, 1, 0, 1, 1, 1, 0, 0, 1, 1, 0, 0] ∧
    compareBits 200 100 0x9C true true = bits [1, 0, 0, 0, 0, 1, 1, 1, 1, 0, 0, 0, 1, 0, 1] ∧
    compareBits 5 5 0 true false = bits [1, 0, 0, 0, 1, 0, 1, 0, 1, 0, 1, 0, 1, 0, 1] ∧
    compareBits 0 0 0x80 false true = bits [0, 1, 0, 0, 0, 1, 1, 1, 1, 0, 0, 0, 0, 1, 1] := by
  and_intros <;> rfl

/-- The sbus gates of V5 for a true and a false compare. -/
theorem test_salu_gates :
    let gate := fun (raw sbus and or inv : Bool) =>
      answer (.cmpEq ⟨.zero, 0, 2, true, false, and, or, inv⟩)
        (withRun { operands 8 5 (if raw then 5 else 6) 0 with sbus0 := sbus } small)
    gate true false false false false = .bool true ∧ gate true false true false false = .bool false ∧
    gate false true false true false = .bool true ∧ gate true true true false true = .bool false ∧
    gate true false true true false = .bool false ∧ gate false true true true false = .bool true := by
  and_intros <;> rfl

/-- What the operations of an arithmetic/logic unit answer for these operands. -/
def unitValues (W a b : Nat) (l : List (AuFields → Instr)) : List Ret :=
  l.map (fun i => answer (i { srcA := 0, srcB := 2, pred := 8 }) (withRun (operands W a b 0) small))

/-- The rows of V5 for the arithmetic units. -/
theorem test_salu_arithmetic :
    let ops := [Instr.aAdd, .aSub, .aSubr, .aSaddu, .aSadds, .aSsubu, .aSsubs, .aMinu, .aMins, .aMaxu, .aMaxs]
    let vals := fun l : List Nat => l.map Ret.nat
    unitValues 8 0xF0 0x20 ops = vals [0x10, 0xD0, 0x30, 0xFF, 0x10, 0xD0, 0xD0, 0x20, 0xF0, 0xF0, 0x20] ∧
    unitValues 8 0x10 0x20 ops = vals [0x30, 0xF0, 0x10, 0x30, 0x30, 0x00, 0xF0, 0x10, 0x10, 0x20, 0x20] ∧
    unitValues 8 0x7F 0x01 ops = vals [0x80, 0x7E, 0x82, 0x80, 0x7F, 0x7E, 0x7E, 0x01, 0x01, 0x7F, 0x7F] ∧
    unitValues 8 0x80 0xFF ops = vals [0x7F, 0x81, 0x7F, 0xFF, 0x80, 0x00, 0x81, 0x80, 0x80, 0xFF, 0xFF] ∧
    unitValues 8 0x80 0x01 ops = vals [0x81, 0x7F, 0x81, 0x81, 0x81, 0x7F, 0x80, 0x01, 0x80, 0x80, 0x01] ∧
    unitValues 8 0xFF 0x01 ops = vals [0x00, 0xFE, 0x02, 0xFF, 0x00, 0xFE, 0xFE, 0x01, 0xFF, 0xFF, 0x01] ∧
    unitValues 32 0xFFFFFFFF 2 ops = vals [1, 0xFFFFFFFD, 3, 0xFFFFFFFF, 1, 0xFFFFFFFD, 0xFFFFFFFD, 2, 0xFFFFFFFF,
      0xFFFFFFFF, 2] ∧
    unitValues 8 0x33 0x20 [.aNop] = vals [0x33] := by
  and_intros <;> rfl

/-- V5: the truth tables in order, on 0xCC and 0xAA. -/
theorem test_salu_logic :
    unitValues 8 0xCC 0xAA [.lSetz, .lNor, .lAndca, .lNota, .lAndcb, .lNotb, .lXor, .lNand, .lAnd, .lXnor, .lB, .lOrca,
      .lA, .lOrcb, .lOr, .lSethi] =
    [0x00, 0x11, 0x22, 0x33, 0x44, 0x55, 0x66, 0x77, 0x88, 0x99, 0xAA, 0xBB, 0xCC, 0xDD, 0xEE, 0xFF].map Ret.nat := by
  rfl

/-- V5: the carry chain after 0xF0 + 0x20 and after 0x10 - 0x20, and unpaired. -/
theorem test_salu_carry :
    let lo := fun a b => operands 8 (a + 0x100) b 0
    let hi : AuFields := { half := .hi, srcA := 1, srcB := 3, pred := 8 }
    let chain := fun (first next : AuFields → Instr) (r : SaluRun) =>
      answer (next hi) (run (first { srcA := 0, srcB := 2, pred := 8 }) (withRun r small))
    chain .aAdd .aAddc (lo 0xF0 0x20) = .nat 0x02 ∧
    chain .aSub .aSubc (operands 8 0x510 0x20 0) = .nat 0x04 ∧
    (run (.aAddc hi) (withRun (lo 0xF0 0x20) small)).err.faulted.map (·.code) = some 6 ∧
    answer (.aSubc hi) ((withRun (lo 0xF0 0x20) small).setStrict { saluCarry := true }) = .nat 1 ∧
    exec (.aAddc hi) { withRun (lo 0 0) small with params := { tiny with chip := .tofino } } = .refused .carryOnTofino := by
  and_intros <;> rfl

/-- The output sources on one execution (R111). -/
theorem test_salu_outputs :
    let r : SaluRun :=
      { width := 8, base := 16, input := 0x5AF00000, output := 0x01020000, data := 0xBEEF, p0 := true, divRan := true,
        quot := 3, rem := 4, mmValue := 5, mmIndex := 6, bitOut := true }
    [Instr.oNone, .oRamLo, .oRamHi, .oPhvLo, .oPhvHi, .oAluLo, .oAluHi, .oPred, .oDiv, .oMod, .oMmValue, .oMmIndex,
      .oBitOld].map (fun i => answer (i { pred := 2 }) (withRun r small)) =
    [0, 0xF0, 0x5A, 0xEF, 0xBE, 0x02, 0x01, 1, 3, 4, 5, 6, 1].map Ret.nat ∧
    answer (.oAluHi { pred := 1 }) (withRun r small) = .nat 0 ∧
    (run (.oDiv { pred := 2 }) (withRun { r with divRan := false } small)).err.faulted.map (·.code) = some 7 := by
  and_intros <;> rfl

/-- V5: the 1-bit operations on bit 9 of the word. -/
theorem test_salu_bits :
    let go := fun (i : MiscFields → Instr) (w : Word) =>
      let t := run (i {}) (withRun { sub := 9, input := w } small)
      (t.result, (t.saluRun 0 0 0).output)
    go .bitSet 0 = (.bool false, 0x200) ∧ go .bitSet 0x200 = (.bool true, 0x200) ∧
    go .bitClrc 0x200 = (.bool false, 0) ∧ go .bitClrc 0 = (.bool true, 0) ∧
    go .bitRead 0x200 = (.bool true, 0x200) ∧ go .bitReadc 0x200 = (.bool false, 0x200) ∧
    go .bitSetc 0 = (.bool true, 0x200) ∧ go .bitClr 0x200 = (.bool true, 0) ∧
    go .bitNop 0x200 = (.bool false, 0x200) := by
  and_intros <;> rfl

/-- S6 and V5: divide and modulo. -/
theorem test_salu_divide :
    let go := fun (a b : Int) => answer (.divMod { width := 1, divSrcA := 0, divSrcB := 2 })
      (withRun (operands 16 (a % 65536).toNat (b % 65536).toNat 0) small)
    go 100 0 = .pair 0x7FFF 0x64 ∧ go (-100) 0 = .pair 0x8000 0xFF9C ∧ go 7 2 = .pair 3 1 ∧
    go (-7) 2 = .pair 0xFFFD 1 ∧ go 7 (-2) = .pair 0xFFFD 0xFFFF ∧ go (-7) (-2) = .pair 3 0xFFFF ∧
    go (-5) 7 = .pair 0 2 ∧ go (-32768) (-1) = .pair 0x8000 0 ∧ go 32767 1 = .pair 0x7FFF 0 := by
  and_intros <;> rfl

/-- V5: the min/max unit. -/
theorem test_salu_minmax :
    let x : Word := 0x0003_0002_0009_0000_0001_0009_0009_0005
    let y : Word := 0x0003_0002_0009_FFF0_0001_0009_0009_0005
    let go := fun (i : Instr) (w d : Word) =>
      let t := run i (withRun { input := w, data := d } small)
      (t.result, (t.saluRun 0 0 0).output)
    let up : MmFields := { size16 := true, maskSrc := true, post := 1, delta := 0xFF }
    go (.mmMax { size16 := true, tieHigh := true, post := 2, delta := 4, constMask := 0x2E }) x 0 =
      (.pair 9 5, 0x0003_0002_0005_0000_0001_0009_0009_0005) ∧
    go (.mmMin up) y 0b10001000 = (.pair 1 3, 0x0003_0002_0009_FFF0_0100_0009_0009_0005) ∧
    go (.mmMin up) y 0 = (.pair 0 0, y) ∧
    go (.mmMax { up with delta := 0x20 }) y 0b00010000 = (.pair 0xFFF0 4, 0x0003_0002_0009_FFFF_0001_0009_0009_0005) ∧
    go (.mmMin { constMask := 0xC003, post := 2, delta := 3 }) 0x0200_0000_0000_0000_0000_0000_0000_0702 0 =
      (.pair 0 14, 0x0200_0000_0000_0000_0000_0000_0000_0702) := by
  decide +kernel

/-- One execution of slot 0 of stateful ALU 0 on word 0, sub-address `sub`, at time `t`. -/
def execute (instr mm : Nat) (sub : BitVec 7) (t : Nat) (data : Word) (s : State) : State :=
  run (.saluExec { sub := sub }) (withFields (s.setAct { s.act with aluData := data, io := { s.act.io with t := t } })
    [(.saluInstr, [0, 0, 0, 0], instr), (.mmCfg, [0, 0, 0], mm)])

/-- V5: the instruction with both units predicated, two steps; and the zero instruction (V11). -/
theorem test_salu_execution :
    let one := execute 0x5A000800F76426521406100506 0 0x10 1 0x20 (withSalu 0 0x5AF00000 small)
    let two := execute 0x5A000800F76426521406100506 0 0x1F 2 0x20 one
    one.result = .alu (.salu 3 true true) ∧ one.mem.read (saluAddr 0 0 0 0) = 0x00FF0000 ∧
    two.result = .alu (.salu 1 true false) ∧ two.mem.read (saluAddr 0 0 0 0) = 0x00FF0000 ∧
    (execute 0 0 0 0 0 (withSalu 0 0x80000000 small)).result = .alu (.salu 0 true true) ∧
    (execute 0 0 0 0 0 (withSalu 0 5 small)).result = .alu (.salu 0 false false) ∧
    (execute 0x021400F80000000000000000 0 0 0 2 (withSalu 0 0xFFF9 small)).result = .alu (.salu 0xFFFD false false) := by
  decide +kernel

/-- V5: the min/max program with its forwarding, at T = 20, 21 and 23. -/
theorem test_salu_forwarding :
    let s := withSalu 0 0x0003_0002_0009_0000_0001_0009_0009_0005 small
    let one := execute 0x000200FA0000000000000000 0x002E042B 0 20 0 s
    let two := execute 0x000200FB0000000000000000 0x002E042B 0 21 0 one
    let three := execute 0x000200FB0000000000000000 0x002E042B 0 23 0 two
    let out := fun (s : State) => match s.result with | .alu (.salu n _ _) => n | _ => 1000
    (out one, out two, out three) = (9, 5, 2) ∧
    two.mem.read (saluAddr 0 0 0 0) = 0x0003_0002_0005_0000_0001_0009_0009_0005 ∧
    three.mem.read (saluAddr 0 0 0 0) = 0x0003_0002_0005_0000_0001_0005_0009_0005 := by
  decide +kernel

/-- The mode operations by themselves, what a carry chain pairs with (R291, R252), and the plain reads. -/
theorem test_salu_modes :
    let r : SaluRun := { operands 32 5 7 0 with instr := 0x7A31_7A11 <<< 32 }
    let flags := fun (s : State) => ((s.saluRun 0 0 0).loAddRan, (s.saluRun 0 0 0).carry)
    let chain := withRun { operands 32 5 7 0 with loAddRan := .add, carry := true, instr := 0x7B3C_0000 <<< 32 } small
    answer (.modeDual {} 0) (withRun { r with p0 := true } small) = .pair 12 7 ∧
    (run (.modeDual {} 0) chain).err.log.map (·.info) = [.saluCarryUnpaired 0 0] ∧
    (run (.aAddc { srcA := 1, srcB := 3, pred := 15 }) chain).err.log.map (·.info) = [.saluCarryUnpaired 0 0] ∧
    answer (.aAddc { half := .hi, srcA := 1, srcB := 3, pred := 15 }) chain = .nat 1 ∧
    flags (run (.saluExec { word := 4 }) chain) = (.none, false) ∧
    answer (.modeMinmax {} 0) (withRun { input := 0x0703 } (withFields small [(.mmCfg, [0, 0, 0], 0x00030001)])) = .pair 7 1 ∧
    answer (.maCfgRd { word := 1 }) (withSalu 1 77 small) = .alu (.data 77) ∧
    answer (.maNop {}) small = .alu .none ∧ answer (.maDisabled 5) small = .alu .none := by
  decide +kernel

/-! ### Stateful counters (vectors S7, V6) -/

/-- A counter of two units of 2^7 bits in word 1023 and 1022, seen from its upper bound: `vpn 0/0`, shift 7. -/
def ctrState (v : Counter) : State := (withFields small [(.ctrShift, [0, 0, 0], 7)]).putCounter 0 0 0 v

theorem test_counter_fifo :
    let one := run (.ctrPushFifo 0) (ctrState {})
    let two := run (.ctrPushFifo 0) one
    one.result = .pointer (some 0) ∧ two.result = .pointer (some 0x80) ∧
    two.counter 0 0 0 = { value := 0x100, fill := 2 } ∧
    answer (.ctrPopFifo 0) two = .pointer (some 0) ∧
    (run (.ctrPopFifo 0) two).counter 0 0 0 = { value := 0x100, popValue := 0x80, fill := 1 } ∧
    (run (.ctrPushFifo 0) (ctrState { value := 0x1FF80, fill := 1023 })).counter 0 0 0 = { value := 0, fill := 1024 } ∧
    (run (.ctrPushFifo 0) (ctrState { fill := 1024 })).counter 0 0 0 = { fill := 1024, flags := 4 } ∧
    (run (.ctrPopFifo 0) (ctrState {})).counter 0 0 0 = { flags := 8 } ∧
    (run (.ctrPushFifo 2) small).err.faulted.map (·.info) = some (.ctrIndex 2) := by
  decide +kernel

theorem test_counter_stack :
    let two := run (.ctrPushStack 0) (run (.ctrPushStack 0) (ctrState {}))
    let top := run (.ctrPopStack 0) two
    top.result = .pointer (some 0x80) ∧ answer (.ctrPopStack 0) top = .pointer (some 0) ∧
    (run (.ctrPopStack 0) (ctrState {})).counter 0 0 0 = { flags := 8 } ∧
    (let s := withFields (ctrState { wmCount := 254 }) [(.wmEnable, [0, 0, 0], 1), (.wmThreshold, [0, 0, 0], 2)]
     ((run (.ctrWatermark 0 false) s).counter 0 0 0).wmCount = 255 ∧
     ((run (.ctrWatermark 0 true) s).counter 0 0 0).wmCount = 254 ∧
     ((run (.ctrWatermark 0 false) (run (.ctrWatermark 0 false) s)).counter 0 0 0).wmCount = 0) := by
  decide +kernel

/-- The clear of V6 near the upper bound: two units are left, swept at T = 10 and 11. -/
theorem test_counter_clear :
    let s := withSalu 3 5 (ctrState { flags := 2, clearPtr := 0x180, tClearNext := 10 })
    let started := run (.ctrStartClearAt 0 10) (ctrState { fill := 3 })
    let stepped := run (.ctrClearStep 0) started
    started.counter 0 0 0 = { fill := 3, flags := 1, tClearNext := 10 } ∧
    stepped.counter 0 0 0 = { flags := 2, tClearNext := 10, clearPtr := 0x80 } ∧
    (run (.ctrClearStep 0) s).mem.read (saluAddr 0 0 0 3) = 0 ∧
    (run (.ctrContinueClearTill 0 11) started).counter 0 0 0 = { flags := 2, tClearNext := 12, clearPtr := 0x100 } ∧
    (run (.ctrContinueClearTill 0 9) started).counter 0 0 0 = started.counter 0 0 0 ∧
    (run (.ctrMaybeSynchronousClear 0) (ctrState { fill := 3 })).counter 0 0 0 = { fill := 3 } ∧
    (run (.ctrStartClear 0 0 0) (ctrState {})).counter 0 0 0 = { flags := 1 } := by
  decide +kernel

/-! ### Snapshot (vectors S11, V7) -/

/-- An ingress unit of the small launch in this state, its one container matching any value. -/
def snapState (u : SnapUnit) (flag : Bool) : State :=
  let s := withFields small [(.snapMatch, [0, 0, 0, 0], 0xFFFFFFFF_00000000_FFFFFFFF), (.snapCaptureSel, [0, 0, 0, 0], 1)]
  (s.putSnapUnit 0 0 .ingress u).setAct { s.act with phv := [0x1234AA78], io := { threadActive := 1, snapTriggered := flag } }

/-- The rows of V7 whose trigger is evaluated, and the NOP of another thread. -/
theorem test_snapshot_propagation :
    let out := fun (st : SnapState) (flag : Bool) =>
      let t := run .snapStep (snapState { state := st } flag)
      (t.act.io.snapTriggered, (t.snapUnit 0 0 .ingress).pending)
    let dark := fun (st : SnapState) (flag : Bool) =>
      let t := run .snapStep (withFields (snapState { state := st } flag) [(.snapMatch, [0, 0, 0, 0], 0)])
      (t.act.io.snapTriggered, (t.snapUnit 0 0 .ingress).pending)
    out .passive true = (true, false) ∧ out .passive false = (false, false) ∧ out .full true = (false, false) ∧
    out .armed false = (true, true) ∧ dark .triggerHappy true = (true, true) ∧ dark .armed true = (false, false) ∧
    dark .triggerHappy false = (false, false) := by
  decide +kernel

/-- The two passes: the capture, the interrupt, and the host's reset of the unit. -/
theorem test_snapshot_capture :
    let first := run .snapFirstPass (snapState { state := .armed } false)
    let done := run (.snapFinalizeSnapshot 7) first
    let u := done.snapUnit 0 0 .ingress
    (first.snapUnit 0 0 .ingress).pending = true ∧ (first.snapUnit 0 0 .ingress).dpThreadActive = 1 ∧
    u.state = .full ∧ u.capNextTable = 7 ∧ Store.get 0 u.capPhv [0] = 0x1234AA78 ∧
    Store.get false done.err.irq (irqKey (.snapshot 0 0 .ingress)) = true ∧
    ((run (.snapSetState 0 0 .ingress 1) done).snapUnit 0 0 .ingress).state = .armed := by
  decide +kernel

/-! ### tEOP (vector V8) -/

/-- A stage whose table 1 uses stats ALU 0, which drives bus 0 at header time. -/
def teopState : State :=
  withFields small [(.ltStatsAlu, [0, 0, 1], 1), (.busHdrStats, [0, 0, 0], 1), (.busHdrMeter, [0, 0, 1], 4),
    (.teopDelayCfg, [0, 0, 0], 11)]

theorem test_teop_addresses :
    answer (.teopBusesAtHdrtime 1) teopState = .nat 1 ∧ answer (.teopBusesAtTeoptime 1) teopState = .nat 0 ∧
    answer (.teopDelayRequired 1 0) teopState = .nat 11 ∧ answer (.teopDelayRequired 1 1) teopState = .nat 0 ∧
    (let t := run (.teopOutputStatsAddr 1 0 0x900010) teopState
     Store.get ({} : TeopBus) t.act.io.buses [0] = { valid := true, addr := 0x900010, stage := 0, lt := 1, alu := 0, isStats := true } ∧
     t.err.log = []) ∧
    ((run (.teopOutputStatsAddr 1 0 0x900010) (withFields teopState [(.teopDelayCfg, [0, 0, 0], 0)])).err.log.map (·.info)) =
      [.teopDelay 0 1 0 0 11] ∧
    (Store.get ({} : TeopBus) (run (.teopOutputMeterAddr 0 2 5) teopState).act.io.buses [1]).valid = true := by
  decide +kernel

/-- V8: the consuming ALU executes the bus's address with the packet length of the I/O object. -/
theorem test_teop_consumes :
    let s := withFields (withLen 100 small) [(.busTeopStats, [0, 0, 0], 1), (.statsFormat, [0, 0, 0], 0b01001)]
    let s := s.setIo { s.act.io with buses := [([0], { valid := true, addr := 0x900010, isStats := true })] }
    let t := run .teopConsume s
    t.mem.read (statsAddr 0 0 0 2) = 100 ∧ (Store.get ({} : TeopBus) t.act.io.buses [0]).valid = false := by
  decide +kernel

/-! ### Sweeper (vectors S8, V9) -/

/-- The table of the sweeper tests. -/
def table : TableId := { lt := 1 }

theorem test_sweeper_controls :
    let ctl := fun (s : State) => let c := s.ctl table .stats; (c.lockCount, c.epoch, c.running)
    let one := run (.swpIncLock table .stats) small
    let two := run (.swpIncLock table .stats) one
    let free := run (.swpDecLock table .stats) (run (.swpDecLock table .stats) two)
    let wrap := small.putCtl table .stats { lastEpoch := 255 }
    ctl one = (1, 1, 0) ∧ ctl two = (2, 1, 0) ∧ ctl free = (0, 0, 0) ∧
    ctl (run (.swpIncLock table .stats) free) = (1, 2, 0) ∧ ctl (run (.swpIncLock table .stats) wrap) = (1, 1, 0) ∧
    answer (.swpIsLockedElseOpStart table .stats) one = .bool true ∧
    answer (.swpIsLockedElseOpStart table .stats) free = .bool false ∧
    ctl (run (.swpOpStartStop table .stats true) free) = (0, 0, 1) ∧
    answer (.swpLockWait table .stats) (run (.swpOpStartStop table .stats true) free) = .blocked ∧
    (run (.swpDecLock table .stats) small).err.faulted.map (·.code) = some 11 := by
  decide +kernel

/-- The timer of V9: interval 3, active. -/
theorem test_sweeper_timer :
    let s := run (.intervalSet { atype := .stats, lt := 1, arg := 0x103 }) small
    s.swp.maskGlobal = 8 ∧ Store.get 0 s.swp.maskStage [0] = 8 ∧
    (run .swpTimerTick (s.setSwp { s.swp with tick := 6 })).swp.opsLo = [] ∧
    (run .swpTimerTick (s.setSwp { s.swp with tick := 7 })).swp.opsLo = [{ table := table, atype := .stats, opcode := .sweep }] := by
  decide +kernel

/-- P4: lock, dump under the lock, unlock; and the operations that read or clear the RAM. -/
theorem test_sweeper_operations :
    let s := withStats 2 0x0000000300000428_0000000000000000
      (withFields small [(.ltStatsAlu, [0, 0, 1], 1), (.statsFormat, [0, 0, 0], 0b11010)])
    let o : OpFields := { atype := .stats, lt := 1, arg := 0x11 }
    let twice := fun (i : Instr) => run i (run i s)
    let locked := twice (.lock { atype := .stats, lt := 1 })
    locked.swp.hostOut = [.lockAck table .stats 1] ∧ locked.ctl table .stats = { lockCount := 1, epoch := 1, lastEpoch := 1 } ∧
    (run (.unlock { atype := .stats, lt := 1 }) locked).swp.hostOut = [.lockAck table .stats 1, .unlockAck table .stats] ∧
    (twice (.dumpWord o)).swp.hostOut = [.dumpRec table 0x11 0x0000000000000003_0000000000000428] ∧
    (twice (.evictWord o)).mem.read (statsAddr 0 0 0 2) = 0 ∧
    (twice (.dump { o with arg := 0 })).swp.hostOut.length = 8 ∧
    (twice (.sweep o)).mem = s.mem ∧
    (run (.barrier { arg := 0xBEEF }) s).swp.hostOut = [.barrierAck 0xBEEF] ∧
    (run (.opCreate 5 .stats table 0x11 .lo) s).swp.opsLo = [{ table := table, atype := .stats, opcode := .dumpWord, arg := 0x11 }] ∧
    (run (.dumpWord o) locked).swp.inFlight = [] := by
  decide +kernel

/-! ### Coordinator (vectors S10, S12, V10) -/

/-- A packet with this identity. -/
def packet (n : Nat) : Packet := { bytes := [0x2D, 1, 2, 3, 4], port := 320, id := n }

/-- A pipe with two received and two generated packets. -/
def queued (rr : Bool) : State := small.putPipe 0 { qRx := [packet 1, packet 2], qPgen := [packet 3], qTm := [packet 4], rr := rr }

theorem test_coordinator_claims :
    let a := run (.coordSelectInput 0) (queued false)
    let b := run (.coordSelectInput 0) a
    let held := run (.coordDequeue 0) (queued false)
    a.result = .packet (some (packet 1)) ∧ b.result = .packet (some (packet 3)) ∧
    answer (.coordSelectInput 0) b = .packet (some (packet 2)) ∧
    held.result = .claimed (some { pipe := 0, inPkt := some (packet 1), tmPkt := some (packet 4) }) ∧
    answer (.coordDequeue 0) held = .claimed none ∧
    ((run (.coordWorkerScan 1) ((queued false).putWorker 1 { wstate := .scanning, lastPipe := 0 })).worker 1).wstate = .stopped ∧
    ((run (.coordWorkerScan 1) (run .start (queued false))).worker 1).wstate = .processing ∧
    ((run (.coordWorkerScan 1) (run .start small)).worker 1).wstate = .waiting ∧
    ((run (.coordRelease 1 0 0) held).pipe 0).active = false := by
  decide +kernel

theorem test_coordinator_packets :
    ((run (.enqueue 5 [1, 2]) small).pipe 0).qRx = [{ bytes := [1, 2], port := 5, kind := .rx }] ∧
    ((run (.enqueuePkt 5 (packet 7) true) small).pipe 0).qPgen = [{ packet 7 with port := 5, kind := .pgen }] ∧
    ((run (.enqueueFromTm (packet 7) 0) small).pipe 0).qTm = [{ packet 7 with kind := .fromTm }] ∧
    (run (.enqueueResubmit (packet 7)) small).err.faulted.map (·.info) = some (.pipeRange 320 2) ∧
    refusalOf (exec (.enqueuePkt 5 (packet 7) false) (run (.enqueuePkt 5 (packet 7) true) small)) = some .packetNotOwned ∧
    (run .coordPacketArrived small).coord.pending = 1 ∧
    (run (.coordTransmit (packet 1)) small).coord.txOut = [.druRx 0 [0x2D] 1 5] ∧
    (run (.coordTransmit { bytes := [7, 1, 2], port := 320 }) small).coord.txOut = [.druRx 0 [] 0 7] ∧
    (run (.coordTransmit { bytes := [7, 1, 2], port := 5 }) small).coord.txOut = [.tx 0 5 [7, 1, 2] 3] := by
  decide +kernel

theorem test_coordinator_stops :
    let waiting := (small.putWorker 0 { wstate := .waiting }).putWorker 1 { wstate := .waiting }
    let waiting := waiting.setCoord { waiting.coord with threadsWaiting := 2, run := true }
    let stopping := run .stop waiting
    let zero := run (.coordWaitForPackets 0) stopping
    answer .waitForIdle waiting = .none ∧ answer .waitForIdle small = .blocked ∧
    stopping.result = .blocked ∧ (stopping.worker 1).notified = true ∧ answer .stop small = .none ∧
    zero.coord.threadsWaiting = 1 ∧ ((run (.coordWorkerScan 0) zero).worker 0).wstate = .stopped := by
  decide +kernel

/-! ### Host commands, errors (vector V11) -/

theorem test_host_config :
    let s := run (.setField .emKeyMask [0, 0, 0, 3] 1 0xFFFF) small
    s.result = .ok ∧ answer (.getField .emKeyMask [0, 0, 0, 3] 1) s = .field 0xFFFF ∧
    answer (.getField .emKeyMask [0, 0, 0, 3] 0) s = .field 0 ∧
    answer (.setField .emKeyMask [0, 0, 0, 12] 0 1) small = .commFail .emKeyMask ∧
    answer (.setField .colMode [0, 0, 0, 0] 1 1) small = .commFail .colMode ∧
    answer (.setConfig "NoSuchKey" "1") small = .hostError (.unknownConfigKey "NoSuchKey") ∧
    answer (.setConfig "RelaxBusOverrideCheck" "maybe") small =
      .hostError (.badConfigValue "RelaxBusOverrideCheck" "maybe") ∧
    (run (.setConfig "RelaxBusOverrideCheck" "true") small).strict = { busOverride := true } := by
  decide +kernel

theorem test_host_ram :
    let s := run (.ramWrite { space := .sel, index := 3 } (.word 9)) small
    answer (.ramRead { space := .sel, index := 3 }) s = .ram (.word 9) ∧
    (run (.ramRead { space := .salu, index := 4 }) small).err.faulted.map (·.code) = some 1 ∧
    answer (.ramRead { space := .salu, index := 4 }) (small.setStrict { sramVpn := true }) = .ram (.word 0) ∧
    answer (.ramRead { space := .tcam, index := 1 }) (run (.ramWrite { space := .tcam, index := 1 } (.tcam { w0 := 3, w1 := 2 })) small)
      = .ram (.tcam { w0 := 3, w1 := 2 }) ∧
    (run (.irqAck (.statsEvict 0 0 0)) small).err.irq = [] ∧ answer (.drainEvict 0 0 0) small = .evicted none ∧
    (run (.fault { code := 3 }) small).err.faulted = some { code := 3 } ∧
    faultOf (step (withLine { body := .instr .start } (run (.fault {}) small))) = some .machineFaulted := by
  decide +kernel

/-! ### Stage cycle and activations (program P6) -/

/-- The launch of P6 on the small block: one stage, the address distribution of the program, an action that
changes nothing, a parser that yields one container, a traffic manager that drops. -/
def cycleParams : Params :=
  let call : StageCall := { pipe := 0, stage := 0, phv := [3], lookup := emptyLookup tiny }
  let outs : AluOuts := { sel := [.none], salu := [.salu 0 true true, .none], stats := [.none] }
  { tiny with supplied :=
      { parse := [(([1, 2], 5), [3])]
        deparse := [(([3], [1, 2]), [1, 2])]
        tmFn := [({ bytes := [1, 2], port := 5 }, [])]
        xbarPhv := [({ pipe := 0, stage := 0, unit := 0, phv := [3] }, 0xCAFE)]
        addrFn := [(call, { ma := [0x81000000], ctrOp := [.push], sa := [0x900018], saLt := [1] })]
        actionFn := [({ call with outs := outs }, [3])] } }

/-- The configuration of P6. -/
def cycleState : State :=
  let s := withFields { State.reset with params := cycleParams } [(.ctrShift, [0, 0, 0], 7),
    (.saluInstr, [0, 0, 0, 0], 0x7A0A00000000), (.statsFormat, [0, 0, 0], 0b01001), (.ltStatsAlu, [0, 0, 1], 1),
    (.busHdrStats, [0, 0, 1], 1), (.busTeopStats, [0, 0, 1], 1), (.teopDelayCfg, [0, 0, 1], 11),
    (.aluDataPhvEn, [0, 0, 0], 1)]
  withLen 100 ((withStats 3 0x10 s).setAct { s.act with phv := [3] })

/-- P6: the counter push gives word 0, the stateful ALU stores 0xCAFE there, and the stats ALU counts at tEOP
time. -/
theorem test_stage_cycle :
    let t := run (.stageCycle 0 0) cycleState
    t.mem.read (saluAddr 0 0 0 0) = 0xCAFE ∧ t.mem.read (statsAddr 0 0 0 3) = 0x74 ∧
    t.counter 0 0 0 = { value := 0x80, fill := 1 } ∧
    t.saluLast 0 0 0 = { valid := true, outputWord := 0xCAFE } ∧ t.act.phv = [3] ∧ t.err.log = [] := by
  decide +kernel

/-! ### Checks, drops and rights -/

/-- R165: a merge that adds no bit and no priority leaves the hit address; R192: the error holds the 24 bits. -/
theorem test_row_and_stats_records :
    let bus := fun (s : State) => (s.bus .matchBus [0, 0, 0, 0]).hit
    let a := run (.rowSetMatchOutputBus 0 0x11 3) small
    bus a = 0x300000 ∧ bus (run (.rowSetMatchOutputBus 0 0x10 1) a) = 0x300000 ∧
    bus (run (.rowSetMatchOutputBus 0 0x02 1) a) = 0x100000 ∧ bus (run (.rowSetMatchOutputBus 0 0x10 4) a) = 0x400000 ∧
    (run (.cfgRd { word := 1, subword := 2 }) statsState).err.log.map (·.info) = [.statsBadSubword 0xA0000A] := by
  decide +kernel

/-- R227, R234: the modulus of the word 0b1010 is 4 under the other reading, with two live members. -/
theorem test_selector_count_mismatch :
    let s : State := { small with params := { tiny with selModDef := .msbPlus1 } }
    let relaxed := s.setStrict { selectorCount := true }
    (run (.selFair 0b1010 7) s).err.faulted.map (·.info) = some (.selCountMismatch 2 4) ∧
    answer (.selFair 0b1010 7) relaxed = .nat 3 ∧
    (run (.selFair 0b1010 7) relaxed).err.log.map (·.info) = [.selCountMismatch 2 4] ∧
    (run (.selFair 0b11 7) s).err.log = [] := by
  decide +kernel

/-- R387: a logged delay mismatch stands, and is a fault only under `STRICT_TEOP_CHECK`; R389: a relaxed
collision keeps the bus. -/
theorem test_teop_checks :
    let late := withFields teopState [(.teopDelayCfg, [0, 0, 0], 3)]
    let bus : TeopBus := { valid := true, lt := 1, alu := 2, isStats := true }
    let busy := (teopState.setIo { teopState.act.io with buses := [([0], bus)] }).setStrict { teopCollision := true }
    let out := run (.teopOutputStatsAddr 1 0 5)
    (Store.get ({} : TeopBus) (out late).act.io.buses [0]).addr = 5 ∧ (out late).err.faulted = none ∧
    (out (late.setStrict { teopCheck := true })).err.faulted.map (·.info) = some (.teopDelay 0 1 0 3 11) ∧
    (out busy).err.log.map (·.info) = [.teopCollision 0 1 0] ∧
    Store.get ({} : TeopBus) (out busy).act.io.buses [0] = bus := by
  decide +kernel

/-- R347 and R349 near the upper bound: four units are left; one step a period, or all at once. -/
theorem test_counter_sweep :
    let s := fun (n : Nat) => { withSalu 5 9 (withFields (ctrState { flags := 2, clearPtr := 0x1FE00, tClearNext := 5 })
      [(.syncClear, [0, 0], n)]) with params := { tiny with saluRamWords := 1024 } }
    (run (.ctrContinueClearTill 0 6) (s 0)).counter 0 0 0 = { flags := 2, clearPtr := 0x1FF00, tClearNext := 7 } ∧
    (run (.ctrContinueClearTill 0 99) (s 0)).counter 0 0 0 = { clearPtr := 0x1FF80, tClearNext := 9 } ∧
    (run (.ctrMaybeSynchronousClear 0) (s 1)).counter 0 0 0 = { clearPtr := 0x1FF80, tClearNext := 5 } ∧
    (run (.ctrMaybeSynchronousClear 0) (s 1)).mem.read (saluAddr 0 0 0 5) = 9 := by
  decide +kernel

/-- R411: the sweep evicts the entries over the threshold; R479: a stale one does nothing; R415: a barrier of
`ops_hi` does not wait for `ops_lo`. -/
theorem test_sweeper_evicts :
    let op : Op := { table := table, atype := .stats, opcode := .sweep }
    let s := withStats 3 0x00000007_00000003_00000000_00000009 (withFields statsState [(.ltStatsAlu, [0, 0, 1], 1),
      (.lrtEnable, [0, 0, 0], 1), (.lrtMultiplier, [0, 0, 0], 1), (.lrtThreshold, [0, 0, 0], 3)])
    let fly := fun e => run (.sweep { atype := .stats, lt := 1, epoch := e })
      (s.setSwp { s.swp with inFlight := [{ op with epoch := e }] })
    (fly 0).stash 0 0 0 = [{ addr := 24, word := 9 }] ∧
    (fly 0).mem.read (statsAddr 0 0 0 3) = 0x00000007_00000003_00000000_00000000 ∧
    (fly 4).stash 0 0 0 = [] ∧ (fly 4).mem = s.mem ∧ (fly 4).swp.inFlight = [] ∧
    (nextOf (step (withLine { body := .auto .sweeperBegin } (small.setSwp
      { small.swp with opsHi := [{ opcode := .barrier, arg := 6 }], opsLo := [op] })))).swp.hostOut = [.barrierAck 6] := by
  decide +kernel

/-- R473: an error of a worker holds the time only inside a stage cycle. -/
theorem test_error_times :
    let by' := fun (a : Agent) (c : Bool) => (run (.ctrPushFifo 9) ((withLen 1 small).setAct
      { small.act with agent := a, inCycle := c, io := { t := 7 } })).err.log.map (·.t)
    by' (.worker 0) false = [none] ∧ by' (.worker 0) true = [some 7] ∧ by' (.unit 0 0) false = [some 7] ∧
    by' .sweeper false = [none] ∧ by' .host false = [none] := by
  decide +kernel

/-! ### Witnesses: for each statement with hypotheses, a state and operands that meet them -/

theorem witness_DecodingUndoesEncoding :
    encode (.stats { word := 0x1FFFF, subword := 7 }) = some { format := .sa, word := 0x9FFFFF } ∧
    decode { format := .sa, word := 0x9FFFFF } = .ok (.stats { word := 0x1FFFF, subword := 7 }) := by
  and_intros <;> rfl

/-- One word for each clause, at the ends of the ranges. -/
theorem witness_ReservedEncodingsAreRefused :
    (0xFFFFFF < 2 ^ 24 ∧ wordBit 0xFFFFFF 23 = true ∧ wordBit 0xFFFFFF 22 = true) ∧
    (0xA0000000 < 2 ^ 32 ∧ wordBit 0xA0000000 31 = true ∧ wordBit 0xA0000000 29 = true) ∧
    (wordBit 0xC0000000 31 = true ∧ wordBit 0xC0000000 30 = true) ∧ wordBit 0x8000 15 = true ∧
    (wordBit 0x0100 8 = true ∧ wordBit 0x8000 15 = true) ∧ (wordBit 0x4000 14 = true ∧ wordBit 0x8000 15 = true) ∧
    (wordBit 0x40 6 = true ∧ wordBit 0x80 7 = true) ∧ (wordBit 0x20 5 = true ∧ wordBit 0x40 6 = true ∧ wordBit 0x80 7 = true) ∧
    (wordBit 0x7FF3 15 = false ∧ 0x7FF3 % 16 = 3) ∧ (wordBit 0x7FFE 15 = false ∧ 30 ≤ 0x7FFE % 32 ∧ 30 ≤ 0x1F % 32) ∧
    (0xFD < 2 ^ 8 ∧ 13 ≤ 0xFD % 16 ∧ 13 ≤ 0x0F % 16) ∧ (0x3FFF < 2 ^ 14 ∧ 0x3FFF % 4 = 3) ∧
    (0x3801 < 2 ^ 14 ∧ 0x3801 % 4 = 1 ∧ 0x3801 / 2 ^ 11 % 8 = 7) ∧
    (wordBit 0x84000000 31 = true ∧ wordBit 0x84000000 29 = false ∧ wordBit 0x84000000 30 = false ∧
      4 ≤ 0x84000000 / 2 ^ 24 % 8 ∧ 4 ≤ 0x87000000 / 2 ^ 24 % 8) ∧
    (0x8 / 2 ^ 5 % 8 = 0 ∧ 8 ≤ 0x8 % 16 ∧ 0x1F / 2 ^ 5 % 8 = 0 ∧ 8 ≤ 0x1F % 16) ∧
    (0x3FEF < 2 ^ 14 ∧ wordBit 0x3FEF 4 = false) ∧
    (∀ code ∈ [0, 8, 0xF, 0x15, 0x1F, 0x25], ¬ (1 ≤ code ∧ code ≤ 7) ∧ ¬ (0x10 ≤ code ∧ code ≤ 0x14) ∧
      ¬ (0x20 ≤ code ∧ code ≤ 0x24)) := by
  decide +kernel

/-- A line of the agent with the right and one of another agent; a bare word; a word of each right; nothing laid
down. -/
theorem witness_StepRunsTheDecodedOperation :
    (let l : Line := { agent := .unit 0 0, body := .coded { format := .sa, word := 0x900010 }, time := some 4 }
     (withLine l small).agenda = [l] ∧ decode { format := .sa, word := 0x900010 } = .ok (.stats { word := 2 }) ∧
      (Instr.stats { word := 2 }).wellFormed = true ∧ Running (withLine l small) ∧
      mayTake (enterLine l [] (withLine l small)) (.stats { word := 2 }) = true ∧
      mayTake (enterLine { l with agent := .host } [] (withLine l small)) (.stats { word := 2 }) = false) ∧
    encode .start = some { format := .hc, word := 7 } ∧ encode (.lock {}) = some { format := .op, word := 1 } ∧
    encode (.stats {}) = some { format := .sa, word := 0x900000 } ∧ small.agenda = [] ∧
    0x900010 < 2 ^ 24 ∧ decodeTableWord 24 0x900010 = some (.stats { word := 2 }) := by
  refine ⟨⟨rfl, rfl, rfl, rfl, rfl, rfl⟩, rfl, rfl, rfl, rfl, by decide, rfl⟩

/-- A faulted machine, with each kind of line. -/
theorem witness_FaultedMachineOnlyReads :
    (run (.fault {}) small).err.faulted.isSome = true ∧ (run (.fault {}) small).agenda = [] ∧
    (withLine { body := .auto .timerTick } (run (.fault {}) small)).err.faulted.isSome = true ∧
    (Instr.getField .errorLog [] 0).wellFormed = true ∧ Instr.start.wellFormed = true ∧
    (∀ n x k, Instr.start ≠ .getField n x k) ∧ (∀ a, Instr.start ≠ .ramRead a) ∧
    decode { format := .hc, word := 7 } = .ok .start := by
  refine ⟨rfl, rfl, rfl, rfl, rfl, ?_, ?_, rfl⟩ <;> intros <;> exact fun h => nomatch h

theorem witness_FaultEntryRecordsAndStops :
    Running small ∧ TableExists small table ∧ (small.ctl table .stats).lockCount = 0 ∧ small.strict.lockCount = false ∧
    Running (small.setStrict { lockCount := true }) ∧ TableExists (small.setStrict { lockCount := true }) table ∧
    ((small.setStrict { lockCount := true }).ctl table .stats).lockCount = 0 ∧
    (small.setStrict { lockCount := true }).strict.lockCount = true := by
  decide +kernel

theorem witness_EveryStepKeepsMemoryCanonical :
    let s := withLine { body := .instr (.ramWrite { space := .sel, index := 3 } (.word 9)) } (withStats 1 5 small)
    MemCanonical s ∧ ∃ t, step s = .next t :=
  ⟨rfl, _, rfl⟩

/-- The value at a key of a store with one entry. -/
theorem get_single {α : Type} (d v : α) (k k' : List Nat) : Store.get d [(k, v)] k' = if k = k' then v else d := by
  rfl

/-- Worker 1 processes packet 0 of pipe 0. -/
def busyState : State :=
  let s := (small.putPipe 0 { active := true }).putWorker 1
    { wstate := .processing, held := some { pipe := 0, tmPkt := some {} } }
  s.setCoord { s.coord with pending := 1, taken := [0], nextId := 1 }

theorem busy_books : CoordBooks (withLine { body := .instr (.enqueue 5 [1]) } busyState) := by
  have worker : ∀ w, busyState.worker w = if ([1] : List Nat) = [w] then
      { wstate := .processing, held := some { pipe := 0, tmPkt := some {} } } else small.worker w := fun w => rfl
  have held : ∀ w h, (busyState.worker w).held = some h → w = 1 ∧ h.pipe = 0 := by
    intro w h e
    rw [worker] at e
    split at e
    case isTrue k => cases e; exact ⟨by simpa using k.symm, rfl⟩
    case isFalse => exact nomatch (show (none : Option Held) = some h from e)
  refine ⟨⟨fun p => ?_, fun w w' h h' e e' _ => (held w h e).1.trans (held w' h' e').1.symm, fun w => ?_⟩,
    ⟨fun _ => by decide +kernel, by decide +kernel, by decide +kernel⟩, ?_⟩
  · show (Store.get {} [([0], ({ active := true } : PipeState))] [p]).active = true ↔ _
    rw [get_single]
    refine ⟨fun e => ⟨1, _, rfl, ?_⟩, fun ⟨w, h, e, hp⟩ => ?_⟩
    · split at e
      case isTrue k => simpa using k
      case isFalse => exact nomatch e
    · rw [if_pos (by rw [← hp, (held w h e).2])]
  · show (busyState.worker w).held ≠ none ↔ (busyState.worker w).wstate = .processing
    rw [worker]
    split
    · exact ⟨fun _ => rfl, fun _ h => nomatch h⟩
    · exact ⟨fun h => absurd rfl h, fun h => nomatch (show WState.stopped = .processing from h)⟩
  · show busyState.coord.pending = busyState.livePackets.length
    decide +kernel

/-- A locked table, unlocked by the step. -/
theorem witness_EveryStepKeepsTheEpochRule :
    let s := withLine { agent := .sweeper, body := .instr (.swpDecLock table .stats) } (run (.swpIncLock table .stats) small)
    EpochRule s ∧ ∃ t, step s = .next t := by
  refine ⟨fun t a => ?_, _, rfl⟩
  show (Store.get {} [([0, 0, 1, 1], ({ lockCount := 1, epoch := 1, lastEpoch := 1 } : TableOpCtl))] (ctlKey t a)).epoch = 0 ↔
    (Store.get {} [([0, 0, 1, 1], ({ lockCount := 1, epoch := 1, lastEpoch := 1 } : TableOpCtl))] (ctlKey t a)).lockCount = 0
  rw [get_single]
  split <;> simp

/-- Some address type has a property. -/
theorem exists_atype (P : AType → Prop) : (∃ a, P a) ↔ P .idle ∨ P .stats :=
  ⟨fun ⟨a, h⟩ => by cases a <;> simp [h], fun h => h.elim (⟨_, ·⟩) (⟨_, ·⟩)⟩

/-- A table swept every eight ticks. -/
def sweptState : State := run (.intervalSet { atype := .stats, lt := 1, arg := 0x103 }) small

theorem swept_masks : MasksHold sweptState := by
  have h : (∀ st < sweptState.params.numStages, ∀ i < 32,
      (Store.get 0 sweptState.swp.maskStage [st]).getLsbD i = true ↔ ∃ p < sweptState.params.numPipes,
        ∃ lt < sweptState.params.numLt, sweepsAt sweptState p st lt .idle i = true ∨ sweepsAt sweptState p st lt .stats i = true) ∧
      ∀ i < 32, sweptState.swp.maskGlobal.getLsbD i = true ↔
        ∃ st < sweptState.params.numStages, (Store.get 0 sweptState.swp.maskStage [st]).getLsbD i = true := by decide +kernel
  refine ⟨fun st hst i hi => ?_, h.2⟩
  simpa only [exists_atype] using h.1 st hst i hi

theorem witness_EveryStepKeepsTheIntervalMasks :
    let s := withLine { agent := .sweeper, body := .instr .swpTimerTick } sweptState
    MasksHold s ∧ ∃ t, step s = .next t :=
  ⟨swept_masks, _, rfl⟩

theorem witness_EveryStepKeepsFlagBytesLegal :
    let s := withLine { agent := .unit 0 0, body := .instr (.ctrPopFifo 0) } (small.putCounter 0 0 0 { flags := 0x0F })
    FlagBytesLegal s ∧ ∃ t, step s = .next t := by
  refine ⟨fun p st c => ?_, _, rfl⟩
  show (Store.get {} [([0, 0, 0], ({ flags := 0x0F } : Counter))] [p, st, c]).flags &&& 0xF0#8 = 0#8
  rw [get_single]
  split <;> decide

/-- A read on a faulted machine; and, on a machine whose worker 1 holds packet 0 of pipe 0, one more packet, and the
release of the pipe. -/
theorem witness_EveryStepKeepsLaunchAndLog :
    (let s := withLine { body := .instr (.getField .errorLog [] 0) } (run (.fault { code := 3 }) small)
     s.err.faulted = some { code := 3 } ∧ ∃ t, step s = .next t) ∧
    (let s := withLine { body := .instr (.enqueue 5 [1]) } busyState
     CoordBooks s ∧ opensBooks (.enqueue 5 [1]) = false ∧ ∃ t, step s = .next t) ∧
    (let s := withLine { agent := .worker 1, body := .instr (.coordRelease 1 0 1) } busyState
     ClaimsExclusive s ∧ (∀ p, Instr.coordRelease 1 0 1 ≠ .coordDequeue p) ∧ ∃ t, step s = .next t) :=
  ⟨⟨rfl, _, rfl⟩, ⟨busy_books, rfl, _, rfl⟩, busy_books.1, fun _ h => (nomatch h), _, rfl⟩

theorem witness_BitFieldsReadAndWrite :
    isBits 1 1 = true ∧ isBits 8 0xA5 = true ∧ (64 : Nat) ≤ 64 ∧ (64 : Nat) < 65 ∧ 4 + 4 ≤ 8 ∧ isBits 4 15 = true := by
  decide

theorem witness_BitComparesDecidePerBit : isBits 2 0 = true ∧ isBits 2 1 = true ∧ isBits 2 2 = true ∧ isBits 2 3 = true := by
  decide

theorem witness_BitVectorsBuildCountAndShift : isBits 1 0 = true ∧ isBits 65 (2 ^ 65 - 1) = true := by
  decide

theorem witness_RowIndexDataAndReset : AtRow rowState 0 0 0 ∧ (0 : Nat) < rowState.params.numMatchBuses := by
  decide +kernel

/-- The row of V2 with column 5 in exact mode, where the hash is not valid. -/
def missState : State := withFields rowState [(.colMode, [0, 0, 0, 5], 1), (.colMode, [0, 0, 0, 11], 2)]

/-- A hit in column 4, a miss in column 5, other modes in columns 0 and 11. -/
theorem witness_ExactLookupDrivesItsBus :
    let s := missState
    let word := s.mem.read (sramAddr 0 0 0 4 1)
    AtRow s 0 0 0 ∧ 4 < numCols ∧ 11 < numCols ∧ 0 < s.params.sramDepth ∧
    s.field .colMode [0, 0, 0, 4] = 1 ∧ hashValidFn s.params 0 0 0 4 s.act.phv = true ∧
    hashFn s.params 0 0 0 4 s.act.phv % s.params.sramDepth = 1 ∧
    (∀ i < 128, (s.field .emKeyMask [0, 0, 0, 4]).testBit i = true →
      word.getLsbD i = (matchKey s.params 0 0 0 4 s.act.phv).getLsbD i) ∧ s.flag .emValidEn [0, 0, 0, 4] = false ∧
    s.field .colLt [0, 0, 0, 4] < s.params.numLt ∧ s.field .colMatchBus [0, 0, 0, 4] < s.params.numMatchBuses ∧
    s.params.matchBusW ≤ 64 ∧ s.field .emOutOff [0, 0, 0, 4] < 128 ∧ (s.bus .matchBus [0, 0, 0, 0]).inUse = false ∧
    s.field .colMode [0, 0, 0, 5] = 1 ∧ hashValidFn s.params 0 0 0 5 s.act.phv = false ∧
    s.field .colMode [0, 0, 0, 0] = 0 ∧ s.field .colMode [0, 0, 0, 11] = 2 := by
  decide +kernel

/-- The winner of table 1 is entry 1; no entry accepts for table 0. -/
theorem witness_TernaryLookupAnswersTheHighest :
    let s := missState
    AtRow s 0 0 0 ∧ TcamTablesLegal s 0 0 ∧ TernaryWinner s 0 0 1 1 ∧ (∀ e < s.params.numTcam, ¬ TcamAccepts s 0 0 0 e) ∧
    6 < numCols ∧ 0 < s.params.sramDepth ∧ s.field .colMode [0, 0, 0, 6] = 2 ∧ s.field .colLt [0, 0, 0, 6] = 1 ∧
    1 < s.params.numLt ∧ s.field .colTindBus [0, 0, 0, 6] < s.params.numTindBuses ∧ s.params.tindBusW ≤ 64 ∧
    s.field .tindOutOff [0, 0, 0, 6] < 128 ∧ (s.bus .tindBus [0, 0, 0, 0]).inUse = false ∧
    (11 < numCols ∧ s.field .colMode [0, 0, 0, 11] = 2 ∧ s.field .colLt [0, 0, 0, 11] = 0) ∧
    s.field .colMode [0, 0, 0, 0] = 0 ∧ s.field .colMode [0, 0, 0, 4] = 1 := by
  simp only [TcamTablesLegal, TernaryWinner, TcamAccepts]
  decide +kernel

/-- The row with no gateway entry that is valid. -/
def noGateway : State := rowState.setGw []

/-- The answer is the last entry, there is none, and the gateway is off. -/
theorem witness_GatewayAnswersTheLowest :
    (AtRow rowState 0 0 0 ∧ 1 < rowState.params.gwEntries ∧ rowState.flag .gwEnable [0, 0, 0] = true ∧
      rowState.field .gwLt [0, 0, 0] < rowState.params.numLt) ∧
    GatewayAccepts rowState 0 0 0 1 ∧ (∀ e < 1, ¬ GatewayAccepts rowState 0 0 0 e) ∧
    (AtRow noGateway 0 0 0 ∧ noGateway.flag .gwEnable [0, 0, 0] = true) ∧
    (∀ e < noGateway.params.gwEntries, ¬ GatewayAccepts noGateway 0 0 0 e) ∧
    (AtRow small 0 0 0 ∧ small.flag .gwEnable [0, 0, 0] = false) := by
  simp only [GatewayAccepts]
  and_intros <;> decide +kernel

/-- S3: the clauses at a2 (same group), a4 (strict and relaxed), b2 (lower group), and the equal priority. -/
theorem witness_OutputBusArbitration :
    let bus := fun (prio group : Nat) => small.putBus .matchBus [0, 0, 0, 1] { inUse := true, prio := prio, group := group }
    let at' := fun (s : State) => AtRow s 0 0 0 ∧ 1 < busCount s.params .matchBus
    let b := fun (s : State) => s.bus .matchBus [0, 0, 0, 1]
    at' small ∧ (b small).inUse = false ∧
    (at' (bus 1 0) ∧ (b (bus 1 0)).inUse = true ∧ tiny.prigroup.getD 3 0 = (b (bus 1 0)).group) ∧
    (at' (bus 4 0) ∧ tiny.prigroup.getD 3 0 = (b (bus 4 0)).group ∧ (b (bus 4 0)).value ||| 0 = (b (bus 4 0)).value ∧
      tiny.priority.getD 3 0 ≤ (b (bus 4 0)).prio) ∧
    (at' (bus 4 0) ∧ tiny.prigroup.getD 8 0 ≠ (b (bus 4 0)).group ∧ (b (bus 4 0)).prio < tiny.priority.getD 8 0 ∧
      (bus 4 0).strict.busOverride = false ∧ ((bus 4 0).setStrict { busOverride := true }).strict.busOverride = true) ∧
    (at' (bus 8 1) ∧ tiny.prigroup.getD 2 0 ≠ (b (bus 8 1)).group ∧ tiny.priority.getD 2 0 ≤ (b (bus 8 1)).prio) ∧
    (at' (bus 5 1) ∧ tiny.prigroup.getD 5 0 ≠ (b (bus 5 1)).group ∧ tiny.priority.getD 5 0 ≤ (b (bus 5 1)).prio) := by
  decide +kernel

theorem witness_StatsCountsOrEvicts :
    let f := lrtState.statsFmt 0 0 0
    let s := withStats 3 0x00000005_000003A8 lrtState
    AtStats s 0 0 0 ∧ FormatHas f 1 ∧ FormatHas f 0 ∧ 3 < s.params.statsRamWords ∧
    ¬ Reserved f 0 (s.mem.read (statsAddr 0 0 0 3)) ∧ ¬ lrtOver s 0 0 0 f 6 1000 ∧ lrtOver s 0 0 0 f 6 1001 ∧
    ¬ lrtOver statsState 0 0 0 f 6 1001 ∧ (6 : Nat) < 2 ^ 64 ∧ (1001 : Nat) < 2 ^ 64 := by
  simp only [lrtOver]
  decide +kernel

theorem witness_ReservedValueIsSticky :
    let s := withStats 3 0xFFFFFFFFFFFFFFFF_0000000700000003 statsState
    let f := s.statsFmt 0 0 0
    AtStats s 0 0 0 ∧ FormatHas f 1 ∧ 3 < s.params.statsRamWords ∧ Reserved f 1 (s.mem.read (statsAddr 0 0 0 3)) := by
  decide +kernel

theorem witness_ReadsReturnAndClear :
    let s := withStats 3 7 statsState
    let f := s.statsFmt 0 0 0
    AtStats s 0 0 0 ∧ FormatHas f 0 ∧ 3 < s.params.statsRamWords ∧ ¬ Reserved f 0 (s.mem.read (statsAddr 0 0 0 3)) ∧
    AtSalu { s with act := { s.act with site := { alu := 1 } } } 0 0 1 ∧ 3 < s.params.saluRamWords := by
  decide +kernel

/-- The reset format, the subword just past the entries and the last one, and the index just past the counters. -/
theorem witness_FailedChecksRaiseFirst :
    AtStats small 0 0 0 ∧ (small.statsFmt 0 0 0).nEntries = 0 ∧
    AtStats statsState 0 0 0 ∧ (statsState.statsFmt 0 0 0).nEntries = 2 ∧
    (Instr.cfgRd { subword := 7 }, 2) ∈ [(Instr.stats { subword := 7 }, 1), (.cfgRd { subword := 7 }, 2), (.cfgRdclr { subword := 7 }, 3)] ∧
    AtStage small 0 0 ∧ small.params.numCtrs ≤ 2 := by
  decide +kernel

/-- The other reading of the modulus, and a word of four members of which two are live. -/
def topState : State :=
  { small.setMem (Memory.write [] (selAddr 0 0 0 3) 0b1010) with params := { tiny with selModDef := .msbPlus1 } }

theorem witness_SelectionAnswersLiveMembers :
    let three := withFields small [(.fairBucketSel, [0, 0, 0], 3)]
    AtSel small 0 0 0 ∧ small.params.selModDef = .liveCount ∧ small.field .fairBucketSel [0, 0, 0] < 3 ∧
    (withFields small [(.fairBucketSel, [0, 0, 0], 2)]).field .fairBucketSel [0, 0, 0] < 3 ∧
    (AtSel three 0 0 0 ∧ three.selModulus 0b1010 = liveCount 0b1010 ∧ 3 ≤ three.field .fairBucketSel [0, 0, 0]) ∧
    (AtSel topState 0 0 0 ∧ topState.selModulus 0b1010 ≠ liveCount 0b1010 ∧ topState.selModulus 0b11 = liveCount 0b11 ∧
      topState.strict.selectorCount = false) ∧
    (AtSel (topState.setStrict { selectorCount := true }) 0 0 0 ∧
      (topState.setStrict { selectorCount := true }).strict.selectorCount = true) := by
  decide +kernel

theorem witness_SelectorExecutionForwards :
    let s := withFields (small.putSelLast 0 0 0 { valid := true, addr := 3, t := 4, inputWord := 5 }) [(.selMode, [0, 0, 0], 1)]
    AtSel s 0 0 0 ∧ s.flag .selMode [0, 0, 0] = true ∧ 3 < s.params.selRamWords ∧
    (AtSel small 0 0 0 ∧ small.flag .selMode [0, 0, 0] = false ∧ small.field .fairBucketSel [0, 0, 0] < 3) ∧
    (AtSel topState 0 0 0 ∧ topState.flag .selMode [0, 0, 0] = false ∧
      topState.mem.read (selAddr 0 0 0 3) = 0b1010 ∧ topState.selModulus 0b1010 ≠ liveCount 0b1010 ∧
      topState.strict.selectorCount = false ∧ (topState.setStrict { selectorCount := true }).strict.selectorCount = true) := by
  decide +kernel

/-- Both sources of an execution of width 8. -/
def aluState : State := withRun (operands 8 0xF0 0x20 0x5A) small

theorem witness_ComparesTestTheExactSum :
    AtSalu aluState 0 0 0 ∧ Sources (aluState.saluRun 0 0 0) 0 2 0xF0 0x20 ∧
    Sources (aluState.saluRun 0 0 0) 1 4 0 0x5A := by
  decide +kernel

theorem witness_ArithmeticWritesItsHalf :
    AtSalu aluState 0 0 0 ∧ PredHolds (aluState.saluRun 0 0 0) 8 ∧ Sources (aluState.saluRun 0 0 0) 0 2 0xF0 0x20 ∧
    0 < (aluState.saluRun 0 0 0).width := by
  decide +kernel

/-- Paired with an add, with a subtract, with neither, in either half, and on Tofino. -/
theorem witness_CarryChainNeedsItsPartner :
    let s := fun (l : LoAddRan) => withRun { operands 8 0xF0 0x20 0 with loAddRan := l } small
    let r := fun l => (s l).saluRun 0 0 0
    (∀ l ∈ [LoAddRan.none, .add, .sub], AtSalu (s l) 0 0 0 ∧ PredHolds (r l) 8 ∧ Sources (r l) 1 3 0 0 ∧
      (s l).params.chip = .jbay ∧ (r l).loAddRan = l) ∧
    ({ half := .hi, srcA := 1, srcB := 3, pred := 8 } : AuFields).half = .hi ∧
    ({ srcA := 1, srcB := 3, pred := 8 } : AuFields).half = .lo ∧
    AtSalu { aluState with params := { tiny with chip := .tofino } } 0 0 0 := by
  decide +kernel

theorem witness_LogicFollowsItsTruthTable :
    AtSalu aluState 0 0 0 ∧ PredHolds (aluState.saluRun 0 0 0) 15 ∧ Sources (aluState.saluRun 0 0 0) 4 0 0x5A 0xF0 := by
  decide +kernel

theorem witness_IdleUnitsKeepTheirHalf :
    AtSalu aluState 0 0 0 ∧ ¬ PredHolds (aluState.saluRun 0 0 0) 7 ∧ ¬ PredHolds (aluState.saluRun 0 0 0) 0 ∧
    PredHolds (aluState.saluRun 0 0 0) 8 ∧ 5 ≤ (5 : BitVec 3).toNat ∧ 5 ≤ (7 : BitVec 3).toNat := by
  decide +kernel

theorem witness_OutputSelectsItsSource :
    let div := withRun { operands 32 5 7 0 with base := 64, divRan := true } small
    AtSalu aluState 0 0 0 ∧ (aluState.saluRun 0 0 0).base + (aluState.saluRun 0 0 0).width < 128 ∧
    PredHolds (aluState.saluRun 0 0 0) 8 ∧ ¬ PredHolds (aluState.saluRun 0 0 0) 7 ∧
    (aluState.saluRun 0 0 0).divRan = false ∧ AtSalu div 0 0 0 ∧ (div.saluRun 0 0 0).divRan = true ∧
    (div.saluRun 0 0 0).base + (div.saluRun 0 0 0).width < 128 ∧ PredHolds (div.saluRun 0 0 0) 8 := by
  decide +kernel

theorem witness_OneBitOperationsTouchOneBit :
    AtSalu aluState 0 0 0 ∧ widthOf 0 = some 32 ∧ widthOf 2 = some 8 ∧
    Sources (widened (aluState.saluRun 0 0 0) 8) 0 2 0xF0 0x20 := by
  decide +kernel

/-- Two units that run; a carry chain in the lo unit, and an unpaired one in the hi unit, which fault; a reserved
source in either. Then the paired chain. -/
theorem witness_DualCarryChainAddsDoubleWidth :
    (let s := fun (e : Nat × Nat) =>
       withRun { operands 32 0xF0 0x20 0 with instr := BitVec.ofNat 128 ((e.2 * 2 ^ 16 + e.1) * 2 ^ 32) } small
     let r := fun e => widened ((s e).saluRun 0 0 0) 32
     let s0 := fun e => (s e).putSaluRun 0 0 0 { r e with output := (r e).input, loAddRan := .none, carry := false }
     let row := fun (half : Half) (w : Nat) => ((decodeAu half w).toOption).getD .start
     let lo := fun (e : Nat × Nat) => exec (row .lo e.1) (s0 e)
     let hi := fun (e : Nat × Nat) => exec (row .hi e.2) (nextOf (lo e))
     (∀ e ∈ [(0x7A11, 0x7A31), (0x7A1C, 0x7A31), (0x7A11, 0x7B3D), (0x7AB1, 0x7A31), (0x7A11, 0x7AB1)],
       AtSalu (s e) 0 0 0 ∧ Running (s e) ∧ siAluLo (r e).instr = e.1 ∧ siAluHi (r e).instr = e.2 ∧
       (decodeAu .lo e.1).isOk = true ∧ (decodeAu .hi e.2).isOk = true ∧ Sources (r e) 0 2 0xF0 0x20) ∧
     auWordRuns 0x7A11 = true ∧ auWordRuns 0x7A31 = true ∧
     Running (nextOf (lo (0x7A11, 0x7A31))) ∧ Running (nextOf (hi (0x7A11, 0x7A31))) ∧
     ¬ Running (nextOf (lo (0x7A1C, 0x7A31))) ∧ ¬ Running (nextOf (hi (0x7A11, 0x7B3D))) ∧
     refusalOf (lo (0x7AB1, 0x7A31)) = some .reservedCode ∧ refusalOf (hi (0x7A11, 0x7AB1)) = some .reservedCode) ∧
    let s := withRun { operands 32 0xF0 0x20 0 with instr := 0x7B3C_7A11 <<< 32 } small
    let r := widened (s.saluRun 0 0 0) 32
    AtSalu s 0 0 0 ∧ s.params.chip = .jbay ∧ widthOf 0 = some 32 ∧ r.sub < 128 ∧
    siAluLo r.instr % 32 = 17 ∧ siAluHi r.instr % 32 = 28 ∧ PredHolds r (auFields .lo (siAluLo r.instr)).pred ∧
    PredHolds r (auFields .hi (siAluHi r.instr)).pred ∧
    Sources r (auFields .lo (siAluLo r.instr)).srcA (auFields .lo (siAluLo r.instr)).srcB 0xF0 0x20 ∧
    Sources r (auFields .hi (siAluHi r.instr)).srcA (auFields .hi (siAluHi r.instr)).srcB 0 0 := by
  decide +kernel

theorem witness_MinMaxPicksTheBest :
    let s := withFields aluState [(.mmCfg, [0, 0, 0], 0x002E042B)]
    AtSalu s 0 0 0 ∧ ({ post := 2 } : MmFields).post ≠ 3 ∧ widthOf 1 = some 16 ∧
    Sources (widened (s.saluRun 0 0 0) 16) 0 2 0xF0 0x20 ∧ s.field .mmCfg [0, 0, 0] / 2 ^ 6 % 4 = 0 ∧
    (mmFields (s.field .mmCfg [0, 0, 0])).post ≠ 3 := by
  decide +kernel

theorem witness_DivideAndModulo :
    AtSalu aluState 0 0 0 ∧ widthOf 1 = some 16 ∧ Sources (widened (aluState.saluRun 0 0 0) 16) 0 2 0xF0 0x20 ∧
    Sources (widened (aluState.saluRun 0 0 0) 16) 0 1 0xF0 0 := by
  decide +kernel

/-- The instructions of V5 with both units predicated, and in mode `MINMAX` with its history. -/
theorem witness_StatefulExecutionWritesOneWord :
    let s := withFields small [(.saluInstr, [0, 0, 0, 0], 0x5A000800F76426521406100506),
      (.saluInstr, [0, 0, 0, 3], 0x000200FA0000000000000000), (.mmCfg, [0, 0, 0], 0x002E042B)]
    let s := s.setSalu { s.salu with last := [([0, 0, 0], { valid := true, addr := 3, t := 4, inputWord := 9 })] }
    AtSalu s 0 0 0 ∧ 3 < s.params.saluRamWords ∧ ¬ 4 < s.params.saluRamWords ∧
    s.strict.sramVpn = false ∧ (s.setStrict { sramVpn := true }).strict.sramVpn = true ∧
    (∀ k ∈ [0, 3], (widthOf (miscFields (siMisc (BitVec.ofNat 128 (s.field .saluInstr [0, 0, 0, k])))).width).isSome) ∧
    siRuns (BitVec.ofNat 128 (s.field .saluInstr [0, 0, 0, 0])) (s.field .mmCfg [0, 0, 0]) = true ∧
    siRuns (BitVec.ofNat 128 (s.field .saluInstr [0, 0, 0, 3])) (s.field .mmCfg [0, 0, 0]) = true ∧
    siMisc (BitVec.ofNat 128 (s.field .saluInstr [0, 0, 0, 3])) % 4 = 2 ∧ (s.saluLast 0 0 0).addr = 3 := by
  decide +kernel

/-- Full, not full, empty and not empty. -/
theorem witness_PushAndPopMoveThePointers :
    let full := ctrState { fill := 1024 }
    CounterReady (ctrState {}) 0 0 0 ∧ ((ctrState {}).counter 0 0 0).fill = 0 ∧
    ((ctrState {}).counter 0 0 0).fill ≠ (ctrState {}).counterCapacity 0 0 0 ∧
    CounterReady full 0 0 0 ∧ (full.counter 0 0 0).fill = full.counterCapacity 0 0 0 ∧ (full.counter 0 0 0).fill ≠ 0 := by
  decide +kernel

/-- At the upper bound of the pointer. -/
theorem witness_CountersStayInBounds :
    let s := ctrState { value := 0x1FF80, popValue := 0, fill := 1023 }
    CounterReady s 0 0 0 ∧ CounterInBounds s 0 0 0 ∧ (s.counter 0 0 0).fill ≠ s.counterCapacity 0 0 0 := by
  simp only [CounterInBounds]
  decide +kernel

theorem witness_ClearsStartAndRest :
    let big := fun (n : Nat) (v : Counter) =>
      { withFields (ctrState v) [(.syncClear, [0, 0], n)] with params := { tiny with saluRamWords := 1024 } }
    let due := big 0 { flags := 2, clearPtr := 0x1FF80, tClearNext := 5 }
    let started := big 1 { flags := 13, fill := 3 }
    AtStage small 0 0 ∧ 1 < small.params.numCtrs ∧ small.flag .syncClear [0, 0] = false ∧
    ctrActive (small.counter 0 0 1).flags = false ∧ Store.get false small.ctr.spin [0, 0] = false ∧
    (CounterReady due 0 0 0 ∧ RegionInRam due 0 0 0 ∧ ctrActive (due.counter 0 0 0).flags = true ∧
      (due.counter 0 0 0).tClearNext ≤ 5 ∧ (due.counter 0 0 0).clearPtr < due.params.saluRamWords * 2 ^ 7) ∧
    (CounterReady started 0 0 0 ∧ RegionInRam started 0 0 0 ∧ started.flag .syncClear [0, 0] = true ∧
      (started.counter 0 0 0).flags.getLsbD 0 = true ∧
      (started.counter 0 0 0).clearPtr < started.params.saluRamWords * 2 ^ 7) := by
  decide +kernel

/-- The first step of a clear, a later one, and the last one. -/
theorem witness_ClearStepZeroesOneUnit :
    let one := ctrState { flags := 1, clearPtr := 0x1FF80 }
    let last := ctrState { flags := 2, clearPtr := 0x1FF80 }
    let wide := { last with params := { tiny with saluRamWords := 1024 } }
    CounterReady one 0 0 0 ∧ 0 < one.params.numSalu ∧ (one.counter 0 0 0).flags.getLsbD 0 = true ∧
    one.minValue 0 0 0 / 128 < one.params.saluRamWords ∧ CounterReady wide 0 0 0 ∧
    (wide.counter 0 0 0).flags.getLsbD 0 = false ∧ (wide.counter 0 0 0).clearPtr / 128 < wide.params.saluRamWords ∧
    wide.maxValue 0 0 0 ≤ (wide.counter 0 0 0).clearPtr := by
  decide +kernel

/-- The thread bits, the four states, and the unit's trigger: the match word accepts every bit, or none. -/
theorem witness_SnapshotStepFollowsTheTable :
    let s := fun st flag => snapState { state := st } flag
    let none := withFields (s .armed true) [(.snapMatch, [0, 0, 0, 0], 0)]
    AtStage (s .armed true) 0 0 ∧ (s .armed true).act.io.threadActive.getLsbD 0 = true ∧
    small.act.io.threadActive.getLsbD 0 = false ∧ AtStage small 0 0 ∧
    (∀ st ∈ [SnapState.passive, .full, .armed, .triggerHappy], ((s st false).snapUnit 0 0 .ingress).state = st ∧
      (s st false).act.io.snapTriggered = false ∧ (s st true).act.io.snapTriggered = true) ∧
    (∀ i < tiny.phvN32 + tiny.phvN8 + tiny.phvN16, i ∉ tiny.phvDark →
      (snapMatchAt (s .armed true) 0 0 .ingress i).1 ≠ 0 ∧ ∀ k < phvWidth tiny i,
        ((snapMatchAt (s .armed true) 0 0 .ingress i).1.testBit k = true ∧
          (snapMatchAt (s .armed true) 0 0 .ingress i).2.testBit k = true)) ∧
    (snapMatchAt none 0 0 .ingress 0).1 = 0 ∧ (snapMatchAt none 0 0 .ingress 0).2 = 0 ∧
    0 < tiny.phvN32 + tiny.phvN8 + tiny.phvN16 ∧ none.flag .snapTimeEnable [0, 0, 0] = false := by
  decide +kernel

theorem witness_SnapshotCapturesInTwoPasses :
    AtStage (snapState {} false) 0 0 ∧ ((snapState {} false).snapUnit 0 0 .ingress).pending = false ∧
    AtStage (snapState { pending := true } false) 0 0 ∧
    ((snapState { pending := true } false).snapUnit 0 0 .ingress).pending = true := by
  decide +kernel

/-- Two stages: stage 0 uses bus 0 at header time, table 1 of stage 1 is match dependent. -/
def teopStages : State :=
  let s := { withFields teopState [(.ltMatchDependent, [0, 1, 1], 1)] with params := { tiny with numStages := 2 } }
  s.setAct { s.act with site := { stage := 1 } }

/-- The three cases of the delay. -/
theorem witness_TeopMasksAndDelay :
    AtStage teopState 0 0 ∧ AtStage teopStages 0 1 ∧ teopStages.flag .ltMatchDependent [0, 1, 1] = true ∧
    teopStages.optField .ltStatsAlu [0, 0, 1] = some 0 ∧ teopStages.inSet .busHdrStats [0, 0, 0] 0 = true ∧
    teopState.flag .ltMatchDependent [0, 0, 1] = false ∧ teopState.optField .ltStatsAlu [0, 0, 1] = some 0 ∧
    teopState.inSet .busHdrStats [0, 0, 0] 0 = true ∧ 1 < teopState.params.numTeopBuses := by
  decide +kernel

/-- Every driven bus is free with the required delay; the one driven bus collides; its delay is not the required
one. -/
theorem witness_TeopOutputsDriveTheirBuses :
    let late := withFields teopState [(.teopDelayCfg, [0, 0, 0], 3)]
    let busy := teopState.setIo { teopState.act.io with
      buses := [([0], { valid := true, stage := 0, lt := 1, alu := 2, isStats := true })] }
    AtStage teopState 0 0 ∧ (∀ b < teopState.params.numTeopBuses, teopState.inSet .busHdrStats [0, 0, b] 0 = true →
      (Store.get ({} : TeopBus) teopState.act.io.buses [b]).valid = false ∧
        teopState.field .teopDelayCfg [0, 0, b] = delayRequired teopState 0 0 1 b) ∧
    teopState.inSet .busHdrStats [0, 0, 0] 0 = true ∧
    AtStage busy 0 0 ∧ (Store.get ({} : TeopBus) busy.act.io.buses [0]).valid = true ∧
    (Store.get ({} : TeopBus) busy.act.io.buses [0]).stage = 0 ∧ (Store.get ({} : TeopBus) busy.act.io.buses [0]).lt = 1 ∧
    (Store.get ({} : TeopBus) busy.act.io.buses [0]).alu ≠ 0 ∧ busy.inSet .busHdrStats [0, 0, 0] 0 = true ∧
    busy.strict.teopCollision = false ∧ (busy.setStrict { teopCollision := true }).strict.teopCollision = true ∧
    (∀ b' < busy.params.numTeopBuses, busy.inSet .busHdrStats [0, 0, b'] 0 = true → b' = 0) ∧
    (AtStage late 0 0 ∧ late.inSet .busHdrStats [0, 0, 0] 0 = true ∧
      (∀ b' < late.params.numTeopBuses, late.inSet .busHdrStats [0, 0, b'] 0 = true → b' = 0) ∧
      (Store.get ({} : TeopBus) late.act.io.buses [0]).valid = false ∧
      late.field .teopDelayCfg [0, 0, 0] ≠ delayRequired late 0 0 1 0) := by
  decide +kernel

theorem witness_TeopConsumptionExecutesTheAddress :
    let s := withFields statsState [(.busTeopStats, [0, 0, 1], 1)]
    let u : TeopBus := { valid := true, addr := 0x900018, isStats := true }
    let s := s.setIo { s.act.io with buses := [([1], u)] }
    AtStats s 0 0 0 ∧ 1 < s.params.numTeopBuses ∧
    (∀ b' < s.params.numTeopBuses, Store.get ({} : TeopBus) s.act.io.buses [b'] =
      if b' = 1 then u else { Store.get ({} : TeopBus) s.act.io.buses [b'] with valid := false }) ∧
    (∀ a' < s.params.numStatsAlu, s.inSet .busTeopStats [0, 0, 1] a' = decide (a' = 0)) ∧
    (decodeSa (u.addr.toNat % 2 ^ 24)).toOption = some (.stats { word := 3 }) ∧
    FormatHas (s.statsFmt 0 0 0) 0 ∧ 3 < s.params.statsRamWords := by
  decide +kernel

/-- A table at each lock count of a clause. -/
theorem witness_TableControlsLockAndCount :
    let at' := fun n => small.putCtl table .stats { lockCount := n, epoch := 3, running := 1 }
    ∀ n ∈ [0, 1, 2], TableExists (at' n) table ∧ ((at' n).ctl table .stats).lockCount = n := by
  decide +kernel

/-- No operation waits or is in flight; one is in flight; the table runs an operation or none; the sweeper's own
steps with an operation at the head of a queue, with none, and with a `LOCK` that waits. -/
theorem witness_ControlOperationsRun :
    let busy := small.setSwp { small.swp with inFlight := [{ opcode := .sweep }] }
    let held := small.putCtl {} .idle { lockCount := 1, running := 1 }
    TableExists small {} ∧ small.swp.lockWaiting = [] ∧ small.swp.inFlight = [] ∧
    (small.ctl {} .idle).running = 0 ∧ TableExists held {} ∧ (held.ctl {} .idle).running ≠ 0 ∧
    (held.ctl {} .idle).lockCount ≠ 0 ∧ held.swp.lockWaiting = [] ∧ ({ opcode := .unlock } : Op) ∉ held.swp.inFlight ∧
    TableExists busy {} ∧ busy.swp.lockWaiting = [] ∧ busy.swp.inFlight ≠ [] ∧ ({ opcode := .barrier } : Op) ∉ busy.swp.inFlight ∧
    (∀ i < 64, 5 ≤ i → i ≠ 8 → (0x11F : BitVec 64).getLsbD i = false) ∧
    (let begins := withLine { body := .auto .sweeperBegin }
     let queue := fun (op : Op) (s : State) => begins (s.setSwp { s.swp with opsLo := [op] })
     let waits := small.setSwp { small.swp with lockWaiting := [{ opcode := .lock }] }
     (∀ k ∈ [OpCode.intervalSet, .lock, .unlock, .barrier], let s := queue { opcode := k } small
       (s.swp.opsHi ++ s.swp.opsLo).head? = some { opcode := k } ∧ s.swp.lockWaiting = [] ∧ s.swp.inFlight = [] ∧ Running s) ∧
     ((begins small).swp.opsHi ++ (begins small).swp.opsLo).head? = none ∧ (begins waits).swp.lockWaiting ≠ [] ∧
     ((queue { opcode := .barrier } busy).swp.inFlight ≠ [] ∧ Running (queue { opcode := .barrier } busy)) ∧
     (let s := withLine { body := .auto (.lockComplete 0) } waits
      s.agenda = [{ body := .auto (.lockComplete 0) }] ∧ Running s ∧ TableExists s {} ∧
      s.swp.lockWaiting[0]? = some { opcode := .lock } ∧ ({ opcode := .lock } : Op) ∉ s.swp.inFlight)) := by
  decide +kernel

/-- A begun and a stale operation; each operation in flight, on a plain and on a reserved entry, with and without
the threshold; address type `IDLE`; the sweeper's own two steps. -/
theorem witness_WorkOperationsBeginAndFinish :
    let op := fun k => ({ table := table, atype := .stats, opcode := k, arg := 0x19 } : Op)
    let idle := fun k => ({ table := table, atype := .idle, opcode := k, arg := 0x19 } : Op)
    let s := withStats 3 0xFFFFFFFFFFFFFFFF_0000000700000003 (withFields statsState [(.ltStatsAlu, [0, 0, 1], 1)])
    let fly := s.setSwp { s.swp with inFlight := [op .sweep, op .dump, op .dumpWord, op .evictWord, idle .sweep] }
    let f := fly.statsFmt 0 0 0
    TableExists s table ∧ op .sweep ∉ s.swp.inFlight ∧ s.swp.lockWaiting = [] ∧ (0 : BitVec 8) = (s.ctl table .stats).epoch ∧
    (1 : BitVec 8) ≠ (s.ctl table .stats).epoch ∧ TableExists fly table ∧
    fly.optField .ltStatsAlu [0, 0, 1] = some 0 ∧ 0 < fly.params.numStatsAlu ∧ FormatHas f 0 ∧ f.nEntries ≤ 8 ∧
    (∀ k ∈ [OpCode.sweep, .dump, .dumpWord, .evictWord], op k ∈ fly.swp.inFlight) ∧
    fly.flag .lrtEnable [0, 0, 0] = false ∧ 0x19 < 2 ^ 20 ∧ 0x19 / 8 < fly.params.statsRamWords ∧ 0x19 % 8 < f.nEntries ∧
    Reserved f 1 (fly.mem.read (statsAddr 0 0 0 3)) ∧ ¬ Reserved f 0 (fly.mem.read (statsAddr 0 0 0 3)) ∧
    idle .sweep ∈ fly.swp.inFlight ∧
    (let swept := withFields fly [(.lrtEnable, [0, 0, 0], 1), (.lrtMultiplier, [0, 0, 0], 1)]
     swept.optField .ltStatsAlu [0, 0, 1] = some 0 ∧ op .sweep ∈ swept.swp.inFlight ∧
     (0 : BitVec 8) = (swept.ctl table .stats).epoch ∧ lrtOver swept 0 0 0 f (pktField f 0 (swept.mem.read (statsAddr 0 0 0 3)))
       (byteField f 0 (swept.mem.read (statsAddr 0 0 0 3)))) ∧
    (let begins := withLine { body := .auto .sweeperBegin } (s.setSwp { s.swp with opsHi := [op .dump] })
     Running begins ∧ begins.agenda = [{ body := .auto .sweeperBegin }] ∧ TableExists begins table ∧
     (begins.swp.opsHi ++ begins.swp.opsLo).head? = some (op .dump) ∧ begins.swp.lockWaiting = []) ∧
    (let ends := withLine { body := .auto (.sweeperFinish 1) } fly
     Running ends ∧ ends.agenda = [{ body := .auto (.sweeperFinish 1) }] ∧ ends.swp.inFlight[1]? = some (op .dump)) := by
  simp only [lrtOver]
  decide +kernel

theorem witness_OperationsAreCreated :
    opCodeOf 7 = some .barrier ∧ TableExists small table ∧ 8 ≤ (8 : BitVec 4).toNat ∧ (7 : BitVec 4).toNat < 8 ∧
    ¬ TableExists small { lt := 2 } ∧ small.strict.sramVpn = false ∧
    (¬ TableExists (small.setStrict { sramVpn := true }) { lt := 2 } ∧
      (small.setStrict { sramVpn := true }).strict.sramVpn = true) ∧ MasksHold sweptState :=
  ⟨rfl, by decide, by decide, by decide, by decide, rfl, by decide, swept_masks⟩

theorem witness_PacketsEnterTheirQueues :
    pipeOfPort small.params 127 < small.params.numPipes ∧ pipeOfPort small.params (0 : Nat) < small.params.numPipes ∧
    (packet 7).id ∉ small.coord.taken ∧ ¬ (packet 7).id ∉ (run (.enqueuePkt 5 (packet 7) true) small).coord.taken ∧
    small.params.numPipes ≤ 1 ∧ small.params.numPipes ≤ pipeOfPort small.params 128 ∧
    small.params.numPipes ≤ pipeOfPort small.params (packet 7).port ∧ small.strict.sramVpn = false ∧
    (small.setStrict { sramVpn := true }).strict.sramVpn = true := by
  decide +kernel

/-- Each preference of the input rail with both queues, and with one; no work; an active pipe. -/
theorem witness_ClaimsTakeOnePacketPerRail :
    let with' := fun q => small.putPipe 0 q
    0 < small.params.numPipes ∧ ((queued false).pipe 0).rr = false ∧ ((queued false).pipe 0).qRx = [packet 1, packet 2] ∧
    ((queued true).pipe 0).rr = true ∧ ((queued true).pipe 0).qPgen = [packet 3] ∧ ((queued false).pipe 0).active = false ∧
    ((with' { qPgen := [packet 3] }).pipe 0).qRx = [] ∧ ((with' { qRx := [packet 1], rr := true }).pipe 0).qPgen = [] ∧
    (small.pipe 0).qRx = [] ∧ (small.pipe 0).qPgen = [] ∧ (small.pipe 0).qTm = [] ∧
    ((with' { active := true, qRx := [packet 1] }).pipe 0).active = true := by
  decide +kernel

/-- A scanning worker: stopped coordinator, work on the pipe, no work. -/
theorem witness_ScansClaimTheNextPipe :
    let scan := fun s : State => s.putWorker 1 { wstate := .scanning, lastPipe := 0 }
    let free := fun (s : State) p => (s.pipe p).active = false ∧ ¬ ((s.pipe p).qRx = [] ∧ (s.pipe p).qPgen = [] ∧ (s.pipe p).qTm = [])
    let go := scan (run .start (queued false))
    let none := scan (run .start small)
    1 < small.params.numWorkers ∧ ((scan small).worker 1).wstate = .scanning ∧ (scan small).coord.run = false ∧
    (go.worker 1).wstate = .scanning ∧ go.coord.run = true ∧ 1 ≤ go.params.numPipes ∧
    free go (((go.worker 1).lastPipe + 1) % go.params.numPipes) ∧
    (none.worker 1).wstate = .scanning ∧ none.coord.run = true ∧
    (∀ j, 1 ≤ j → j ≤ none.params.numPipes → ¬ free none (((none.worker 1).lastPipe + j) % none.params.numPipes)) := by
  refine ⟨by decide, by decide, by decide, by decide, by decide, by decide, by decide +kernel, by decide, by decide, ?_⟩
  intro j h1 h2
  obtain rfl : j = 1 := Nat.le_antisymm h2 h1
  decide +kernel

/-- Workers that wait and that do not, with each reason to wake. -/
theorem witness_WorkersReleaseWakeAndTransmit :
    let wait := fun n w => (small.putWorker w { wstate := .waiting, notified := n })
    1 < small.params.numWorkers ∧ 0 < small.params.numPipes ∧
    (∀ w < small.params.numWorkers, (small.worker w).wstate ≠ .waiting) ∧
    ((wait false 1).worker 1).wstate = .waiting ∧ ((wait false 1).worker 1).notified = false ∧ (wait false 1).coord.run = false ∧
    ((wait true 1).worker 1).notified = true ∧ ((wait false 0).worker 0).wstate = .waiting ∧
    (let s := run .start (wait false 1)
     s.coord.run = true ∧ (s.worker 1).wstate = .waiting ∧ (s.worker 1).notified = false ∧ 1 < s.params.numWorkers) := by
  decide +kernel

theorem witness_StartStopAndIdle :
    let two := (small.putWorker 0 { wstate := .waiting }).putWorker 1 { wstate := .waiting }
    let idle := two.setCoord { two.coord with threadsWaiting := 2 }
    (∀ w < small.params.numWorkers, (small.worker w).wstate = .stopped) ∧
    (1 < two.params.numWorkers ∧ (two.worker 1).wstate ≠ .stopped) ∧
    (idle.coord.threadsWaiting = idle.params.numWorkers ∧ idle.coord.pending = 0 ∧ idle.params.preFifoEmpty = true) ∧
    small.coord.threadsWaiting ≠ small.params.numWorkers ∧
    (let poll := fun (n : Nat) (s : State) => withLine { body := .auto (.waitPoll 0) }
      (s.setCoord { s.coord with idleWaits := [n] })
     (∀ n ∈ [0, tiny.waitIdleBound], (poll n small).coord.idleWaits[0]? = some n ∧ Running (poll n small) ∧
       (poll n small).agenda = [{ body := .auto (.waitPoll 0) }] ∧ (poll n idle).coord.idleWaits[0]? = some n) ∧
     0 < tiny.waitIdleBound ∧ small.strict.waitIdle = false ∧ (small.setStrict { waitIdle := true }).strict.waitIdle = true) ∧
    (let s := withLine { body := .auto .stopPoll } (run .stop two)
     s.agenda = [{ body := .auto .stopPoll }] ∧ Running s ∧ s.coord.stopping = true ∧ s.coord.run = false) := by
  decide +kernel

/-- The launch of a quiet pipe: no address enabled, an action that changes nothing, a parser and a deparser for two
packets, a traffic manager that returns three packets for a received one, one for a resubmitted one, or none. -/
def quietParams : Params :=
  let call : StageCall := { pipe := 0, stage := 0, phv := [3], lookup := emptyLookup tiny }
  let out : TmOut := { pipe := 0, port := 5, bytes := [1, 2] }
  { tiny with supplied :=
      { parse := [(([1, 2], 5), [3]), (([9], 6), [3])]
        deparse := [(([3], [1, 2]), [1, 2]), (([3], [9]), [9])]
        tmFn := [({ bytes := [1, 2], port := 5 }, [out, { out with same := true }, { out with same := true }]),
                 ({ bytes := [1, 2], port := 5, kind := .resubmit, id := 8 }, [{ out with same := true }]),
                 ({ bytes := [9], port := 6 }, [])]
        addrFn := [(call, {})]
        actionFn := [({ call with outs := noOuts tiny }, [3])] } }

/-- The reset state of that launch with the PHV in place. -/
def quietState : State :=
  let s := { State.reset with params := quietParams }
  s.setAct { s.act with phv := [3] }

theorem quiet_config : QuietConfig quietState 0 0 := by
  refine ⟨by decide +kernel, by decide +kernel, fun g => ?_⟩
  cases g <;> decide +kernel

theorem cycle_config : QuietConfig cycleState 0 0 := by
  refine ⟨by decide +kernel, by decide +kernel, fun g => ?_⟩
  cases g <;> decide +kernel

/-- The quiet launch; and P6, whose turns are a push, a stateful address and a stats address of the tEOP buses. -/
theorem witness_QuietStageIsTransparent :
    (0 < quietState.params.numPipes ∧ 0 < quietState.params.numStages ∧ QuietConfig quietState 0 0 ∧
      (∀ b, (Store.get ({} : TeopBus) quietState.act.io.buses [b]).valid = false) ∧
      quietAddr (addrFn quietState.params 0 0 quietState.act.phv (emptyLookup quietState.params)) = true) ∧
    (QuietConfig cycleState 0 0 ∧
      let s := cycleState
      let A := addrFn s.params 0 0 s.act.phv (emptyLookup s.params)
      let s1 := run (.ctrPushFifo 0) (s.inTurn 0 0 0 0)
      let s2 := run (.maDisabled 0) (s1.inTurn 0 0 0 (aluInput s 0 0 .sel 0))
      let s3 := run (.saluExec {}) (s2.inTurn 0 0 0 (aluInput s 0 0 .salu 0))
      let s4 := run (.teopOutputStatsAddr 1 0 0x900018) (s3.inTurn 0 0 0 0)
      let s5 := run .teopConsume (s4.inTurn 0 0 0 0)
      A = { ma := [0x81000000], ctrOp := [.push], sa := [0x900018], saLt := [1] } ∧
      0 < s.params.numCtrs ∧ 0 < s.params.numSalu ∧ 0 < s.params.numSelAlu ∧ 0 < s.params.numStatsAlu ∧
      CounterTurn s s1 0 0 0 .push 0x81000000 0x81000000 ∧
      AluTurn s1 s2 0 0 0 (aluInput s 0 0 .sel 0) (decodeMa 0) .none ∧
      AluTurn s2 s3 0 0 0 (aluInput s 0 0 .salu 0) (decodeMa 0x81000000) (.salu 0 true true) ∧
      StatsTurn s3 s4 0 0 0 1 0x900018 .none ∧ exec .teopConsume (s4.inTurn 0 0 0 0) = .next s5 ∧ Running s5 ∧
      SameStores s5 (run (.stageCycle 0 0) s)) := by
  refine ⟨⟨by decide, by decide, quiet_config, fun _ => rfl, by decide +kernel⟩, cycle_config, by decide +kernel, by decide,
    by decide, by decide, by decide, ⟨rfl, some 0, by decide +kernel, by decide +kernel⟩,
    ⟨.maDisabled 0, by decide +kernel, rfl, by decide +kernel, by decide +kernel⟩,
    ⟨.saluExec {}, by decide +kernel, rfl, by decide +kernel, by decide +kernel⟩,
    ⟨fun _ => ⟨rfl, rfl, by decide +kernel⟩, fun h => absurd ⟨by decide, 1, by decide, by decide +kernel⟩ h⟩,
    rfl, by decide +kernel, by decide +kernel⟩

/-- Packets that are dropped and replicated, and a worker that holds both rails. -/
theorem witness_ActivationsDeliverTheirPackets :
    let pkt : Packet := { bytes := [1, 2], port := 5 }
    let drop : Packet := { bytes := [9], port := 6 }
    let tm : Packet := { pkt with kind := .resubmit, id := 8 }
    let h : Held := { pipe := 0, inPkt := some pkt, tmPkt := some tm }
    let s := quietState.putWorker 1 { wstate := .processing, held := some h }
    QuietPipe quietState 0 pkt ∧ QuietPipe quietState 0 drop ∧ (∀ x ∈ heldPackets (some h), QuietPipe s 0 x) ∧
    tmFn quietState.params (quietOut quietState drop) = [] ∧
    (∀ x ∈ [pkt, tm], tmFn quietState.params (quietOut quietState x) ≠ [] ∧
      ∀ o ∈ tmFn quietState.params (quietOut quietState x), o.pipe < quietState.params.numPipes) ∧
    ingressRail h = [pkt, tm] ∧ 1 < s.params.numWorkers ∧ (s.worker 1).wstate = .processing ∧ (s.worker 1).held = some h := by
  have all : ∀ st < quietState.params.numStages, QuietConfig quietState 0 st := fun st h => by
    obtain rfl : st = 0 := Nat.lt_one_iff.mp h
    exact quiet_config
  have quiet : ∀ pkt ∈ [({ bytes := [1, 2], port := 5 } : Packet), { bytes := [9], port := 6 }],
      quietAddr (addrFn quietParams 0 0 (phvNormal quietParams (parseFn quietParams pkt.bytes pkt.port))
        (emptyLookup quietParams)) = true := by decide +kernel
  refine ⟨⟨by decide, all, quiet _ (by simp), trivial⟩, ⟨by decide, all, quiet _ (by simp), trivial⟩, fun x hx => ?_,
    by decide +kernel, by decide +kernel, by decide +kernel, by decide, by decide, by decide⟩
  rcases List.mem_cons.1 hx with rfl | hx
  · exact ⟨by decide, all, quiet { bytes := [1, 2], port := 5 } (by simp), trivial⟩
  · rcases List.mem_singleton.1 hx with rfl
    exact ⟨by decide, all, quiet { bytes := [1, 2], port := 5 } (by simp), trivial⟩

theorem witness_ConfigurationReadsBack :
    fieldParts small.params .emKeyMask [0, 0, 0, 11] = some [64, 64] ∧ ([64, 64] : List Nat)[1]? = some 64 ∧
    fieldParts small.params .colMode [0, 0, 0, 12] = none ∧
    (writeState small .colMode [0, 0, 0, 12] 1).isNone = true ∧
    (setStrict small.strict "STRICT_TEOP_CHECK" true).isSome = true ∧ parseBool "1" = some true ∧
    setStrict small.strict "NoSuchKey" true = none ∧ parseBool "maybe" = none ∧
    ([64, 64] : List Nat).length ≤ 2 ∧ (fieldParts small.params .ltMeterAlu [0, 0, 1]).isSome = true ∧
    (fieldParts small.params .sweepActive [0, 0, 1, 1]).isSome = true ∧
    (fieldParts small.params .ctrFill [0, 0, 1]).isNone = true ∧ (readState small .colMode [0, 0, 0, 12] 0).isNone = true ∧
    FieldName.colMode ≠ .irqPending ∧ FieldName.colMode ≠ .errorLog ∧
    (fieldParts small.params (.unknown "no_such_field") []).isNone = true ∧
    0 < small.params.numPipes ∧ 0 < small.params.numStages ∧ 0 < small.params.numCtrs ∧ 0 < small.params.numStatsAlu ∧
    0 < small.params.statsRamWords ∧ 0 < small.params.numRows ∧ 0 < small.params.numMatchBuses ∧ 0 < small.params.numLt ∧
    0 < phvCount small.params := by
  decide +kernel

/-- The last word of each space, and the first past it. -/
theorem witness_RamAccessesReadBack :
    ramInRange small.params { space := .salu, unit := 1, index := 3 } = true ∧
    ramInRange small.params { space := .sram, col := 11, index := 3 } = true ∧
    ramInRange small.params { space := .tcam, index := 1 } = true ∧ ramInRange small.params { space := .gw, index := 1 } = true ∧
    ramInRange small.params { space := .sel, index := 4 } = false ∧ ramInRange small.params { space := .salu, unit := 2 } = false ∧
    ramInRange small.params { space := .tcam, index := 2 } = false ∧ ramInRange small.params { space := .gw, index := 2 } = false ∧
    3 < 2 ^ small.params.tcamW ∧ 3 < 2 ^ small.params.gwW ∧
    small.strict.sramVpn = false ∧ (small.setStrict { sramVpn := true }).strict.sramVpn = true := by
  decide +kernel

theorem witness_EvictionsDrainAndInterruptsClear :
    0 < small.params.numPipes ∧ 0 < small.params.numStages ∧ 0 < small.params.numStatsAlu ∧ small.stash 0 0 0 = [] ∧
    (small.putStash 0 0 0 [{ addr := 8, word := 1 }]).stash 0 0 0 = [{ addr := 8, word := 1 }] := by
  decide +kernel

end Sys2Proof.Tests
end

section
/-! SUPPORT. Pre- and postconditions of a sequence of statements. `Moves` of `Laws/Ops` relates the states before and
after alone; the coordinator's proofs also need what a sequence answers, and that a fault stops the machine. -/

namespace Sys2Proof.Machine

/-! ### What a sequence of statements guarantees -/

/-- Begun where `P` holds, the sequence answers `a` where `Q a` holds, or takes the fault entry where `F` holds, or
is refused. -/
def Triple {α : Type} (P : State → Prop) (m : M α) (Q : α → State → Prop) (F : State → Prop) : Prop :=
  ∀ s, P s → match m s with
    | .ok a t => Q a t
    | .error .faulted t => F t
    | .error (.refuse _) _ => True

section
variable {α β : Type} {P : State → Prop} {Q : α → State → Prop} {F : State → Prop}

theorem Triple.ok {m : M α} (h : Triple P m Q F) {s t : State} {a : α} (hs : P s) (e : m s = .ok a t) : Q a t := by
  have := h s hs
  rwa [e] at this

theorem Triple.faulted {m : M α} (h : Triple P m Q F) {s t : State} (hs : P s) (e : m s = .error .faulted t) : F t := by
  have := h s hs
  rwa [e] at this

theorem triple_of_cases {m : M α} (ok : ∀ s a t, P s → m s = .ok a t → Q a t)
    (faulted : ∀ s t, P s → m s = .error .faulted t → F t) : Triple P m Q F := by
  intro s hs
  match e : m s with
  | .ok a t => exact ok s a t hs e
  | .error .faulted t => exact faulted s t hs e
  | .error (.refuse _) _ => trivial

theorem triple_pure {a : α} (h : ∀ s, P s → Q a s) : Triple P (pure a) Q F := h

theorem triple_change {f : State → State} {Q : Unit → State → Prop} (h : ∀ s, P s → Q () (f s)) :
    Triple P (change f) Q F := h

theorem triple_refuse (r : Refusal) : Triple P (refuse r) Q F := fun _ _ => trivial

theorem Triple.bind {m : M α} {k : α → M β} {Q' : β → State → Prop} (h : Triple P m Q F)
    (hk : ∀ a, Triple (Q a) (k a) Q' F) : Triple P (m >>= k) Q' F := by
  refine triple_of_cases (fun s b u hs e => ?_) fun s u hs e => ?_
  · obtain ⟨a, t, ha, hb⟩ := (bind_eq_ok s).1 e
    exact (hk a).ok (h.ok hs ha) hb
  · rw [bind_apply] at e
    split at e
    · rename_i a t ha
      exact (hk a).faulted (h.ok hs ha) e
    · rename_i x t hx
      cases e
      exact h.faulted hs hx

/-- What is known of the state that is read is known of the value. -/
theorem triple_look_bind {f : State → α} {k : α → M β} {Q' : β → State → Prop}
    (h : ∀ s, P s → Triple (fun t => t = s) (k (f s)) Q' F) : Triple P (look f >>= k) Q' F :=
  fun s hs => h s hs s rfl

theorem Triple.ite {c : Prop} [Decidable c] {m n : M α} (h : Triple P m Q F) (h' : Triple P n Q F) :
    Triple P (if c then m else n) Q F := by
  split <;> assumption

/-- In one state where the precondition holds. -/
theorem Triple.at_state {m : M α} (h : Triple P m Q F) {s : State} (hs : P s) : Triple (fun t => t = s) m Q F := by
  rintro s rfl
  exact h s hs

theorem Triple.weaken {m : M α} {P' : State → Prop} {Q' : α → State → Prop} {F' : State → Prop}
    (h : Triple P m Q F) (hP : ∀ s, P' s → P s) (hQ : ∀ a s, Q a s → Q' a s) (hF : ∀ s, F s → F' s) :
    Triple P' m Q' F' :=
  triple_of_cases (fun _ a _ hs e => hQ a _ (h.ok (hP _ hs) e)) fun _ _ hs e => hF _ (h.faulted (hP _ hs) e)

end

/-! ### What a sequence of statements keeps -/

/-- Wherever the sequence ends short of a refusal, the state is related to every state to which the one it began in is
related; where a fault ends it, the machine has stopped (R490). -/
def Acts {α : Type} (R : State → State → Prop) (m : M α) : Prop :=
  ∀ s₀, Triple (R s₀) m (fun _ => R s₀) (fun t => R s₀ t ∧ ¬ Running t)

section
variable {α β : Type} {R : State → State → Prop}

theorem acts_pure (a : α) : Acts R (pure a) := fun _ => triple_pure fun _ h => h

theorem acts_look (f : State → α) : Acts R (look f) := fun _ _ h => h

theorem acts_refuse (r : Refusal) : Acts R (refuse r : M α) := fun _ => triple_refuse r

theorem acts_change {f : State → State} (h : ∀ a s, R a s → R a (f s)) : Acts R (change f) :=
  fun a => triple_change (h a)

theorem Acts.bind {m : M α} {k : α → M β} (h : Acts R m) (hk : ∀ a, Acts R (k a)) : Acts R (m >>= k) :=
  fun s₀ => (h s₀).bind fun a => hk a s₀

theorem acts_look_bind {f : State → α} {k : α → M β} (hk : ∀ a, Acts R (k a)) : Acts R (look f >>= k) :=
  (acts_look f).bind hk

theorem Acts.ite {c : Prop} [Decidable c] {m n : M α} (h : Acts R m) (h' : Acts R n) :
    Acts R (if c then m else n) := by
  split <;> assumption

theorem acts_forEach {f : α → M Unit} (h : ∀ a, Acts R (f a)) : ∀ l, Acts R (forEach l f)
  | [] => acts_pure ()
  | a :: as => (h a).bind fun _ => acts_forEach h as

theorem acts_collect {f : α → M β} (h : ∀ a, Acts R (f a)) : ∀ l, Acts R (collect l f)
  | [] => acts_pure []
  | a :: as => (h a).bind fun _ => (acts_collect h as).bind fun _ => acts_pure _

/-- From a finer relation to a coarser one. -/
theorem Acts.mono {R' : State → State → Prop} {m : M α} (h : Acts R m) (refl : ∀ s, R s s)
    (comp : ∀ a s t, R' a s → R s t → R' a t) : Acts R' m :=
  fun a => triple_of_cases (fun s _ _ hs e => comp a s _ hs ((h s).ok (refl s) e))
    fun s _ hs e => ((h s).faulted (refl s) e).imp_left (comp a s _ hs)

end
end Sys2Proof.Machine
end

section
/-! SUPPORT. What keeps the launch record, the log and the fault, and leaves the coordinator alone: the shared
operations, the stats ALU, the stateful ALU, the selector ALU. -/

namespace Sys2Proof.Machine

/-! ### The launch record, the log and the fault (R9, R473, R490) -/

/-- The launch record is the same, the log has only grown, and a fault that was taken stands. -/
structure Kept (s t : State) : Prop where
  params : t.params = s.params
  log : ∃ l, t.err.log = s.err.log ++ l
  fault : ∀ r, s.err.faulted = some r → t.err.faulted = some r

theorem Kept.refl (s : State) : Kept s s := ⟨rfl, ⟨[], (List.append_nil _).symm⟩, fun _ h => h⟩

theorem Kept.trans {a s t : State} (h : Kept a s) (h' : Kept s t) : Kept a t := by
  obtain ⟨l, hl⟩ := h.log
  obtain ⟨l', hl'⟩ := h'.log
  exact ⟨h'.params.trans h.params, ⟨l ++ l', by rw [hl', hl, List.append_assoc]⟩,
    fun r hr => h'.fault r (h.fault r hr)⟩

/-- A machine that still runs has been running. -/
theorem Kept.running {s t : State} (h : Kept s t) (ht : Running t) : Running s := by
  by_contra hs
  obtain ⟨r, hr⟩ := Option.ne_none_iff_exists'.1 hs
  rw [Running, h.fault r hr] at ht
  cases ht

/-- The update writes none of the launch record, the coordinator, the log and the fault. -/
abbrev Untouched (s t : State) : Prop :=
  t.params = s.params ∧ t.coord = s.coord ∧ t.err.log = s.err.log ∧ t.err.faulted = s.err.faulted

theorem Kept.of_eq {s t : State} (hp : t.params = s.params) (hl : t.err.log = s.err.log)
    (hf : t.err.faulted = s.err.faulted) : Kept s t :=
  ⟨hp, ⟨[], by rw [hl, List.append_nil]⟩, fun _ h => hf.trans h⟩

theorem kept_logError (s : State) (r : ErrRec) : Kept s (s.logError r) := ⟨rfl, ⟨[r], rfl⟩, fun _ h => h⟩

theorem enterFault_log (s : State) (r : ErrRec) : (s.enterFault r).err.log = s.err.log := by
  unfold State.enterFault
  split <;> rfl

theorem kept_enterFault (s : State) (r : ErrRec) : Kept s (s.enterFault r) := by
  refine ⟨by rw [State.enterFault_eq]; rfl, ⟨[], by rw [enterFault_log, List.append_nil]⟩, fun r' h => ?_⟩
  rw [State.enterFault_of_some r h, h]

/-- The fault entry stops the machine (R490). -/
theorem not_running_enterFault (s : State) (r : ErrRec) : ¬ Running (s.enterFault r) := by
  rw [Running]
  unfold State.enterFault
  split <;> simp_all

/-! ### Steps that leave the coordinator alone -/

/-- The state of the coordinator is the same, and the launch record, the log and the fault are kept. -/
structure Frame (s t : State) : Prop extends Kept s t where
  coord : t.coord = s.coord

theorem Frame.refl (s : State) : Frame s s := ⟨.refl s, rfl⟩

theorem Frame.trans {a s t : State} (h : Frame a s) (h' : Frame s t) : Frame a t :=
  ⟨h.toKept.trans h'.toKept, h'.coord.trans h.coord⟩

theorem Untouched.frame {s t : State} (h : Untouched s t) : Frame s t := by
  obtain ⟨hp, hc, hl, hf⟩ := h
  exact ⟨.of_eq hp hl hf, hc⟩

theorem frame_logError (s : State) (r : ErrRec) : Frame s (s.logError r) := ⟨kept_logError s r, rfl⟩

theorem frame_enterFault (s : State) (r : ErrRec) : Frame s (s.enterFault r) :=
  ⟨kept_enterFault s r, by rw [State.enterFault_eq]; rfl⟩

/-- However the sequence ends short of a refusal, it leaves the coordinator alone. -/
abbrev Framed {α : Type} (m : M α) : Prop := Acts Frame m

theorem framed_change {f : State → State} (h : ∀ s, Untouched s (f s)) : Framed (change f) :=
  acts_change fun _ s hs => hs.trans (h s).frame

theorem framed_takeFault {α : Type} (r : ErrRec) : Framed (takeFault r : M α) := fun _ s hs =>
  ⟨hs.trans (frame_enterFault s r), not_running_enterFault s r⟩

theorem framed_raise (place : Option (Nat × Nat)) (e : Err) : Framed (raise place e) := by
  intro s₀ s hs
  have hl := hs.trans (frame_logError s (errRecord s place e))
  cases hf : fatal s.strict e
  · rw [raise_of_relaxed place hf]
    exact hl
  · rw [raise_of_fatal place hf]
    exact ⟨hl.trans (frame_enterFault _ _), not_running_enterFault _ _⟩

theorem framed_raise_bind {α : Type} {k : Unit → M α} (place : Option (Nat × Nat)) (e : Err)
    (hk : ∀ u, Framed (k u)) : Framed (raise place e >>= k) :=
  (framed_raise place e).bind hk

theorem framed_change_bind {α : Type} {f : State → State} {k : Unit → M α} (h : ∀ s, Untouched s (f s))
    (hk : ∀ u, Framed (k u)) : Framed (change f >>= k) :=
  (framed_change h).bind hk

/-- An operation that computes its answer from the state and writes nothing. -/
theorem framed_need {α : Type} (v : Option α) : Framed (need v) := by
  cases v
  · exact acts_refuse _
  · exact acts_pure _

theorem framed_drawIndex : Framed drawIndex := fun _ _ hs => hs.trans (Untouched.frame ⟨rfl, rfl, rfl, rfl⟩)

/-! ### The RAM spaces -/

theorem framed_memRead (a : RamAddr) : Framed (memRead a) :=
  acts_look_bind fun _ => .ite (acts_pure _) (framed_raise_bind _ _ fun _ => acts_pure _)

theorem framed_memWrite (a : RamAddr) (w : Word) : Framed (memWrite a w) :=
  acts_look_bind fun _ => .ite (framed_change fun _ => ⟨rfl, rfl, rfl, rfl⟩) (framed_raise _ _)

/-! ### Where an operation is addressed -/

theorem framed_atStats {α : Type} {f : Nat → Nat → Nat → M α} (h : ∀ p st a, Framed (f p st a)) :
    Framed (atStats f) :=
  acts_look_bind fun _ => .ite (h _ _ _) (acts_refuse _)

theorem framed_atSalu {α : Type} {f : Nat → Nat → Nat → M α} (h : ∀ p st a, Framed (f p st a)) :
    Framed (atSalu f) :=
  acts_look_bind fun _ => .ite (h _ _ _) (acts_refuse _)

theorem framed_atSel {α : Type} {f : Nat → Nat → Nat → M α} (h : ∀ p st a, Framed (f p st a)) :
    Framed (atSel f) :=
  acts_look_bind fun _ => .ite (h _ _ _) (acts_refuse _)

theorem framed_atRow {α : Type} {f : Nat → Nat → Nat → M α} (h : ∀ p st r, Framed (f p st r)) :
    Framed (atRow f) :=
  acts_look_bind fun _ => .ite (h _ _ _) (acts_refuse _)

theorem framed_atStage {α : Type} {f : Nat → Nat → M α} (h : ∀ p st, Framed (f p st)) : Framed (atStage f) :=
  acts_look_bind fun _ => .ite (h _ _) (acts_refuse _)

theorem framed_onTable {m : M Ret} (t : TableId) (h : Framed m) : Framed (onTable t m) :=
  acts_look_bind fun _ => .ite h (acts_refuse _)

theorem framed_withCounter {m : M Ret} (p st c : Nat) (h : Framed m) : Framed (withCounter p st c m) :=
  acts_look_bind fun _ => .ite h (framed_raise_bind _ _ fun _ => acts_pure _)

/-! ### The stats ALU -/

theorem framed_statsValidate (p st a sub : Nat) (sa : BitVec 24) : Framed (statsValidate p st a sub sa) :=
  acts_look_bind fun _ => .ite (framed_raise_bind _ _ fun _ => acts_pure _)
    (.ite (framed_raise_bind _ _ fun _ => acts_pure _) (acts_pure _))

theorem framed_lrt (p st a : Nat) (f : StatsFormat) (entry : BitVec 20) (pkt byt : Nat) :
    Framed (lrt p st a f entry pkt byt) :=
  acts_look_bind fun _ => .ite (framed_change_bind (fun _ => ⟨rfl, rfl, rfl, rfl⟩) fun _ => acts_pure _) (acts_pure _)

theorem framed_statsCount (p st a : Nat) (f : StatsFormat) (sa : SaFields) (word : Word) (pktlen : Nat) :
    Framed (statsCount p st a f sa word pktlen) := by
  refine acts_look_bind fun s => ?_
  have shadow : Framed (if s.flag .fullResEnable [p, st, a] then
      change (shadowUpdate p st a sa.word.toNat sa.subword.toNat
        (byteIncrement (s.field .byteAdjust [p, st, a]) pktlen)) else pure ()) :=
    .ite (framed_change fun _ => ⟨rfl, rfl, rfl, rfl⟩) (acts_pure _)
  exact .ite ((framed_lrt _ _ _ _ _ _ _).bind fun _ => (framed_memWrite _ _).bind fun _ => shadow) shadow

theorem framed_readData (p st : Nat) (kind : AluKind) (a : Nat) (w : Word) : Framed (readData p st kind a w) :=
  framed_change_bind (fun _ => ⟨rfl, rfl, rfl, rfl⟩) fun _ => acts_pure _

theorem framed_statsClear (p st a : Nat) (f : StatsFormat) (sa : SaFields) (word : Word) :
    Framed (statsClear p st a f sa word) :=
  .ite (framed_memWrite _ _) (acts_pure _)

theorem framed_statsRun (p st a : Nat) (op : StatsOp) (sa : SaFields) (pktlen : Nat) :
    Framed (statsRun p st a op sa pktlen) := by
  cases op
  case nop => exact acts_pure _
  all_goals
    refine (framed_statsValidate _ _ _ _ _).bind fun fmt => ?_
    cases fmt
    case none => exact acts_pure _
    refine (framed_memRead _).bind fun word => ?_
  case stats => exact (framed_statsCount _ _ _ _ _ _ _).bind fun _ => acts_pure _
  case cfgRd => exact framed_readData _ _ _ _ _
  case cfgRdclr => exact (framed_statsClear _ _ _ _ _ _).bind fun _ => framed_readData _ _ _ _ _

theorem framed_statsAddress (p st a : Nat) (raw : BitVec 24) (pktlen : Nat) :
    Framed (statsAddress p st a raw pktlen) := by
  unfold statsAddress
  split
  · exact acts_refuse _
  · exact framed_statsRun _ _ _ _ _ _

theorem framed_entryRead (p st a word k : Nat) : Framed (entryRead p st a word k) := by
  refine (framed_statsValidate _ _ _ _ _).bind fun fmt => ?_
  cases fmt
  · exact acts_pure _
  · exact (framed_memRead _).bind fun _ => acts_pure _

theorem framed_dumpEntry (p st a word k : Nat) : Framed (dumpEntry p st a word k) := by
  refine (framed_entryRead _ _ _ _ _).bind fun r => ?_
  rcases r with _ | ⟨f, w⟩ <;> exact acts_pure _

theorem framed_evictEntry (p st a word k : Nat) : Framed (evictEntry p st a word k) := by
  refine (framed_entryRead _ _ _ _ _).bind fun r => ?_
  rcases r with _ | ⟨f, w⟩
  · exact acts_pure _
  · exact .ite ((framed_memWrite _ _).bind fun _ => acts_pure _) (acts_pure _)

theorem framed_sweepEntry (p st a word k : Nat) : Framed (sweepEntry p st a word k) := by
  refine (framed_entryRead _ _ _ _ _).bind fun r => ?_
  rcases r with _ | ⟨f, w⟩
  · exact acts_pure _
  · exact acts_look_bind fun _ => .ite
      (framed_change_bind (fun _ => ⟨rfl, rfl, rfl, rfl⟩) fun _ => framed_memWrite _ _) (acts_pure _)

theorem framed_statsOp (op : StatsOp) (sa : SaFields) : Framed (statsOp op sa) :=
  framed_atStats fun _ _ _ => acts_look_bind fun _ => (framed_statsRun _ _ _ _ _ _).bind fun _ => acts_pure _

/-! ### The stateful ALU -/

theorem framed_putRun (p st a : Nat) (r : SaluRun) : Framed (putRun p st a r) :=
  framed_change fun _ => ⟨rfl, rfl, rfl, rfl⟩

/-- Many units end by replacing the execution in progress and answering. -/
theorem framed_putRun_pure {α : Type} (p st a : Nat) (r : SaluRun) (x : α) :
    Framed (putRun p st a r >>= fun _ => pure x) :=
  (framed_putRun p st a r).bind fun _ => acts_pure x

theorem framed_compareUnit (p st a : Nat) (op : CmpOp) (c : CmpFields) : Framed (compareUnit p st a op c) :=
  acts_look_bind fun _ => (framed_need _).bind fun _ => framed_putRun_pure _ _ _ _ _

theorem framed_pairedCarry (p st a : Nat) (op : ArithOp) (half : Half) (r : SaluRun) :
    Framed (pairedCarry p st a op half r) :=
  .ite (acts_pure _) (framed_raise_bind _ _ fun _ => acts_pure _)

theorem framed_arithUnit (p st a : Nat) (op : ArithOp) (half : Half) (r : SaluRun) (x y : Nat) :
    Framed (arithUnit p st a op half r x y) := by
  cases op
  case addc | subc =>
    exact acts_look_bind fun _ => .ite (acts_refuse _)
      ((framed_pairedCarry _ _ _ _ _ _).bind fun _ => framed_putRun_pure _ _ _ _ _)
  all_goals exact framed_putRun_pure _ _ _ _ _

theorem framed_idleUnit (p st a : Nat) (half : Half) (r : SaluRun) : Framed (idleUnit p st a half r) :=
  framed_putRun_pure _ _ _ _ _

theorem framed_arithHalf (p st a : Nat) (op : ArithOp) (u : AuFields) : Framed (arithHalf p st a op u) :=
  acts_look_bind fun _ => .ite
    ((framed_need _).bind fun _ => (framed_need _).bind fun _ => framed_arithUnit _ _ _ _ _ _ _ _)
    (framed_idleUnit _ _ _ _ _)

theorem framed_logicHalf (p st a tt : Nat) (u : AuFields) : Framed (logicHalf p st a tt u) :=
  acts_look_bind fun _ => .ite
    ((framed_need _).bind fun _ => (framed_need _).bind fun _ => framed_putRun_pure _ _ _ _ _)
    (framed_idleUnit _ _ _ _ _)

theorem framed_unitOfWord (p st a : Nat) (half : Half) (w : Nat) : Framed (unitOfWord p st a half w) := by
  refine .ite ?_ (framed_logicHalf _ _ _ _ _)
  split
  · exact framed_arithHalf _ _ _ _ _
  · exact acts_look_bind fun _ => .ite (acts_refuse _) (framed_idleUnit _ _ _ _ _)

theorem framed_oneBit (p st a : Nat) (op : BitOp) : Framed (oneBit p st a op) :=
  acts_look_bind fun _ => framed_putRun_pure _ _ _ _ _

theorem framed_divide (p st a : Nat) (srcA srcB : BitVec 3) : Framed (divide p st a srcA srcB) :=
  acts_look_bind fun _ => (framed_need _).bind fun _ => (framed_need _).bind fun _ =>
    framed_putRun_pure _ _ _ _ _

theorem framed_minMax (p st a : Nat) (isMax : Bool) (c : MmFields) : Framed (minMax p st a isMax c) := by
  refine acts_look_bind fun r => ?_
  split
  · exact framed_putRun_pure _ _ _ _ _
  · exact (framed_need _).bind fun _ => framed_putRun_pure _ _ _ _ _

theorem framed_minMaxConfigured (p st a : Nat) : Framed (minMaxConfigured p st a) :=
  acts_look_bind fun _ => .ite (acts_refuse _) (framed_minMax _ _ _ _ _)

theorem framed_outputSelect (p st a : Nat) (sel : OutSel) (o : OutFields) : Framed (outputSelect p st a sel o) := by
  refine acts_look_bind fun r => .bind (.ite ?_ (acts_pure _)) fun _ => framed_putRun_pure _ _ _ _ _
  split
  · exact acts_pure _
  · exact framed_raise_bind _ _ fun _ => acts_pure _

theorem framed_setWidth (p st a : Nat) (m : MiscFields) : Framed (setWidth p st a m) :=
  (framed_need _).bind fun _ => acts_look_bind fun _ => framed_putRun _ _ _ _

theorem framed_divideIfEnabled (p st a : Nat) (m : MiscFields) : Framed (divideIfEnabled p st a m) :=
  .ite ((framed_divide _ _ _ _ _).bind fun _ => acts_pure _) (acts_pure _)

theorem framed_dualUnits (p st a : Nat) : Framed (dualUnits p st a) :=
  acts_look_bind fun _ => (framed_putRun _ _ _ _).bind fun _ => (framed_unitOfWord _ _ _ _ _).bind fun _ =>
    (framed_unitOfWord _ _ _ _ _).bind fun _ => acts_pure _

theorem framed_miscDual (p st a : Nat) (m : MiscFields) : Framed (miscDual p st a m) :=
  (framed_setWidth _ _ _ _).bind fun _ => (framed_dualUnits _ _ _).bind fun _ => framed_divideIfEnabled _ _ _ _

theorem framed_miscOneBit (p st a : Nat) (m : MiscFields) (op : BitOp) : Framed (miscOneBit p st a m op) :=
  (framed_setWidth _ _ _ _).bind fun _ => (framed_oneBit _ _ _ _).bind fun _ =>
    (framed_divideIfEnabled _ _ _ _).bind fun _ => acts_pure _

theorem framed_miscMinMax (p st a : Nat) (m : MiscFields) : Framed (miscMinMax p st a m) :=
  (framed_setWidth _ _ _ _).bind fun _ => (framed_minMaxConfigured _ _ _).bind fun _ =>
    (framed_divideIfEnabled _ _ _ _).bind fun _ => acts_pure _

theorem framed_miscOfWord (p st a w : Nat) : Framed (miscOfWord p st a w) := by
  refine (framed_need _).bind fun mode => ?_
  cases mode
  case dual => exact framed_miscDual _ _ _ _
  case onebit => exact (framed_need _).bind fun _ => (framed_miscOneBit _ _ _ _ _).bind fun _ => acts_pure _
  case minmax => exact (framed_miscMinMax _ _ _ _).bind fun _ => acts_pure _

theorem framed_compareOfWord (p st a : Nat) (unit : CmpUnit) (w : Nat) : Framed (compareOfWord p st a unit w) :=
  (framed_need _).bind fun _ => (framed_compareUnit _ _ _ _ _).bind fun _ => acts_pure _

theorem framed_outputOfWord (p st a w : Nat) : Framed (outputOfWord p st a w) := by
  refine acts_look_bind fun r => ?_
  split
  · exact framed_outputSelect _ _ _ _ _
  · exact .ite (acts_refuse _) (framed_outputSelect _ _ _ _ _)

theorem framed_saluExecute (p st a : Nat) (ma : MaFields) (data : Word) (t : Nat) (s0 s1 : Bool) :
    Framed (saluExecute p st a ma data t s0 s1) :=
  acts_look_bind fun _ => .ite (acts_refuse _) <|
    (framed_need _).bind fun _ =>
    framed_change_bind (fun _ => ⟨rfl, rfl, rfl, rfl⟩) fun _ =>
    (framed_memRead _).bind fun _ =>
    (framed_putRun _ _ _ _).bind fun _ =>
    (framed_compareOfWord _ _ _ _ _).bind fun _ =>
    (framed_compareOfWord _ _ _ _ _).bind fun _ =>
    (framed_miscOfWord _ _ _ _).bind fun _ =>
    (framed_outputOfWord _ _ _ _).bind fun _ =>
    acts_look_bind fun _ =>
    (framed_memWrite _ _).bind fun _ =>
    framed_change_bind (fun _ => ⟨rfl, rfl, rfl, rfl⟩) fun _ => acts_pure _

theorem framed_maRead (p st : Nat) (kind : AluKind) (a : Nat) (ma : MaFields) : Framed (maRead p st kind a ma) :=
  (framed_memRead _).bind fun _ => framed_readData _ _ _ _ _

/-! ### The selector ALU -/

theorem framed_fairIndex (p st a pv hash52 : Nat) : Framed (fairIndex p st a pv hash52) := by
  have answer (n : Nat) (sel : Nat) (m : M Nat) (h : Framed m) :
      Framed (if n = 0 then pure noMember else if sel < 3 then m else refuse (.illegalConfig .fairBucketSel)) :=
    .ite (acts_pure _) (.ite h (acts_refuse _))
  exact acts_look_bind fun _ => .ite (framed_raise_bind _ _ fun _ => answer _ _ _ (acts_pure _))
    (answer _ _ _ (acts_pure _))

theorem framed_selectMember (p st a pv hash52 : Nat) : Framed (selectMember p st a pv hash52) :=
  acts_look_bind fun _ => .ite (.ite (acts_pure _) (acts_pure _)) (framed_fairIndex _ _ _ _ _)

theorem framed_selRun (p st a : Nat) (ma : MaFields) (data : Word) (t : Nat) : Framed (selRun p st a ma data t) :=
  (framed_memRead _).bind fun _ => acts_look_bind fun _ =>
    framed_change_bind (fun _ => ⟨rfl, rfl, rfl, rfl⟩) fun _ =>
    (framed_selectMember _ _ _ _ _).bind fun _ => acts_pure _

end Sys2Proof.Machine
end

section
/-! SUPPORT. The same for the counters, the rows, the snapshot unit, the tEOP buses, the stage cycle, the sweeper and
the host's interface. -/

namespace Sys2Proof.Machine

/-! ### The counters -/

theorem framed_readBounds (p st c : Nat) : Framed (readBounds p st c) :=
  acts_look_bind fun _ => .ite (acts_pure _) (acts_refuse _)

theorem framed_putCtr (p st c : Nat) (v : Counter) : Framed (putCtr p st c v) :=
  framed_change fun _ => ⟨rfl, rfl, rfl, rfl⟩

theorem framed_putCtr_pure {α : Type} (p st c : Nat) (v : Counter) (x : α) :
    Framed (putCtr p st c v >>= fun _ => pure x) :=
  (framed_putCtr p st c v).bind fun _ => acts_pure x

theorem framed_pushCtr (p st c : Nat) : Framed (pushCtr p st c) :=
  (framed_readBounds _ _ _).bind fun _ => acts_look_bind fun _ =>
    .ite (framed_putCtr_pure _ _ _ _ _) (acts_look_bind fun _ => framed_putCtr_pure _ _ _ _ _)

theorem framed_popFifo (p st c : Nat) : Framed (popFifo p st c) :=
  acts_look_bind fun _ => .ite (framed_putCtr_pure _ _ _ _ _) <|
    (framed_readBounds _ _ _).bind fun _ => acts_look_bind fun _ => framed_putCtr_pure _ _ _ _ _

theorem framed_popStack (p st c : Nat) : Framed (popStack p st c) :=
  acts_look_bind fun _ => .ite (framed_putCtr_pure _ _ _ _ _) <|
    (framed_readBounds _ _ _).bind fun _ => acts_look_bind fun _ => framed_putCtr_pure _ _ _ _ _

theorem framed_clearStep (p st c : Nat) : Framed (clearStep p st c) :=
  (framed_readBounds _ _ _).bind fun _ => acts_look_bind fun _ => (framed_putCtr _ _ _ _).bind fun _ =>
    (framed_memRead _).bind fun _ => (framed_memWrite _ _).bind fun _ =>
    .ite (framed_putCtr _ _ _ _) (framed_putCtr _ _ _ _)

theorem framed_clearTillLoop (p st c tStop : Nat) : ∀ n, Framed (clearTillLoop p st c tStop n)
  | 0 => acts_pure _
  | n + 1 => acts_look_bind fun _ => .ite
    ((framed_clearStep _ _ _).bind fun _ => acts_look_bind fun _ => acts_look_bind fun _ =>
      (framed_putCtr _ _ _ _).bind fun _ => framed_clearTillLoop p st c tStop n)
    (acts_pure _)

theorem framed_clearAllLoop (p st c : Nat) : ∀ n, Framed (clearAllLoop p st c n)
  | 0 => acts_pure _
  | n + 1 => acts_look_bind fun _ =>
    .ite ((framed_clearStep _ _ _).bind fun _ => framed_clearAllLoop p st c n) (acts_pure _)

theorem framed_continueClearTill (p st c tStop : Nat) : Framed (continueClearTill p st c tStop) :=
  framed_change_bind (fun _ => ⟨rfl, rfl, rfl, rfl⟩) fun _ => acts_look_bind fun _ =>
    (framed_clearTillLoop _ _ _ _ _).bind fun _ => framed_change fun _ => ⟨rfl, rfl, rfl, rfl⟩

theorem framed_maybeSynchronousClear (p st c : Nat) : Framed (maybeSynchronousClear p st c) :=
  acts_look_bind fun _ => .ite
    (framed_change_bind (fun _ => ⟨rfl, rfl, rfl, rfl⟩) fun _ =>
      (framed_clearAllLoop _ _ _ _).bind fun _ => framed_change fun _ => ⟨rfl, rfl, rfl, rfl⟩)
    (acts_pure _)

theorem framed_startClearAt (p st c t : Nat) : Framed (startClearAt p st c t) :=
  framed_change_bind (fun _ => ⟨rfl, rfl, rfl, rfl⟩) fun _ => acts_look_bind fun _ =>
    (framed_putCtr _ _ _ _).bind fun _ => framed_change_bind (fun _ => ⟨rfl, rfl, rfl, rfl⟩) fun _ =>
    framed_maybeSynchronousClear _ _ _

theorem framed_ctrRequest (p st c : Nat) (pop : Bool) : Framed (ctrRequest p st c pop) :=
  acts_look_bind fun _ => .ite (framed_pushCtr _ _ _) (.ite (framed_popStack _ _ _) (framed_popFifo _ _ _))

theorem framed_pointerOp (c : Nat) {f : Nat → Nat → M (Option Nat)} (h : ∀ p st, Framed (f p st)) :
    Framed (pointerOp c f) :=
  framed_atStage fun _ _ => framed_withCounter _ _ _ <| (h _ _).bind fun _ => acts_pure _

theorem framed_counterOp (c : Nat) {f : Nat → Nat → M Unit} (h : ∀ p st, Framed (f p st)) :
    Framed (counterOp c f) :=
  framed_atStage fun _ _ => framed_withCounter _ _ _ <| (h _ _).bind fun _ => acts_pure _

/-! ### The SRAM row -/

theorem untouched_putBus (s : State) (k : BusKind) (key : List Nat) (b : BusRec) : Untouched s (s.putBus k key b) := by
  cases k <;> exact ⟨rfl, rfl, rfl, rfl⟩

theorem framed_setOutputBus (k : BusKind) (p st r bus out col idx : Nat) :
    Framed (setOutputBus k p st r bus out col idx) := by
  refine acts_look_bind fun s => ?_
  dsimp only
  split
  · exact framed_change fun _ => untouched_putBus _ _ _ _
  · exact framed_raise_bind _ _ fun _ => framed_change fun _ => untouched_putBus _ _ _ _
  · exact acts_pure _

theorem framed_legalField (name : FieldName) (idx : List Nat) (bound : Nat) : Framed (legalField name idx bound) :=
  acts_look_bind fun _ => .ite (acts_pure _) (acts_refuse _)

theorem framed_getWordOp (N v off n : Nat) : Framed (getWordOp N v off n) := .ite (acts_pure _) (acts_refuse _)

theorem framed_exactLookup (p st r c : Nat) : Framed (exactLookup p st r c) := by
  refine acts_look_bind fun s => ?_
  split
  · exact acts_pure _
  · exact (framed_memRead _).bind fun _ => .ite
      ((framed_legalField _ _ _).bind fun _ => (framed_getWordOp _ _ _ _).bind fun _ =>
        (framed_legalField _ _ _).bind fun _ => (framed_setOutputBus _ _ _ _ _ _ _ _).bind fun _ =>
        framed_change_bind (fun _ => ⟨rfl, rfl, rfl, rfl⟩) fun _ => acts_pure _)
      (acts_pure _)

theorem framed_ternaryLookup (p st lt : Nat) : Framed (ternaryLookup p st lt) :=
  acts_look_bind fun _ => .ite (acts_refuse _) (acts_pure _)

theorem framed_tindLookup (p st r c : Nat) : Framed (tindLookup p st r c) := by
  refine acts_look_bind fun s => (framed_legalField _ _ _).bind fun lt =>
    (framed_ternaryLookup _ _ _).bind fun e => ?_
  cases e
  · exact acts_pure _
  · exact (framed_memRead _).bind fun _ => (framed_getWordOp _ _ _ _).bind fun _ =>
      (framed_legalField _ _ _).bind fun _ => (framed_setOutputBus _ _ _ _ _ _ _ _).bind fun _ =>
      framed_change_bind (fun _ => ⟨rfl, rfl, rfl, rfl⟩) fun _ => acts_pure _

theorem framed_gatewayLookup (p st r : Nat) : Framed (gatewayLookup p st r) := by
  refine acts_look_bind fun s => ?_
  split
  · exact framed_change_bind (fun _ => ⟨rfl, rfl, rfl, rfl⟩) fun _ => acts_pure _
  · exact (framed_legalField _ _ _).bind fun _ => framed_change_bind (fun _ => ⟨rfl, rfl, rfl, rfl⟩) fun _ =>
      framed_change_bind (fun _ => ⟨rfl, rfl, rfl, rfl⟩) fun _ => acts_pure _

theorem framed_runColumn (p st r c : Nat) : Framed (runColumn p st r c) := by
  refine acts_look_bind fun mode => ?_
  split
  · exact acts_pure _
  · exact (framed_exactLookup _ _ _ _).bind fun _ => acts_pure _
  · exact (framed_tindLookup _ _ _ _).bind fun _ => acts_pure _
  · exact acts_refuse _

theorem framed_runGateway (p st r : Nat) : Framed (runGateway p st r) :=
  acts_look_bind fun _ => .ite (framed_gatewayLookup _ _ _) (acts_pure _)

theorem framed_runRow (p st r : Nat) : Framed (runRow p st r) :=
  framed_change_bind (fun _ => ⟨rfl, rfl, rfl, rfl⟩) fun _ => (framed_runGateway _ _ _).bind fun _ =>
    acts_forEach (fun _ => (framed_runColumn _ _ _ _).bind fun _ => acts_pure _) _

theorem framed_busOp (k : BusKind) (bus output col : Nat) : Framed (busOp k bus output col) :=
  framed_atRow fun _ _ _ => acts_look_bind fun _ =>
    .ite ((framed_setOutputBus _ _ _ _ _ _ _ _).bind fun _ => acts_pure _) (acts_refuse _)

/-- A lookup row that runs only in its column mode. -/
theorem framed_lookupInMode (p st r c n : Nat) {m : M (Option Nat)} (h : Framed m) :
    Framed (look (fun s => s.field .colMode [p, st, r, c]) >>= fun mode =>
      if mode = n then m >>= fun x => pure (lookupRet (some x))
      else if mode = 3 then refuse (.illegalConfig .colMode) else pure .none) :=
  acts_look_bind fun _ => .ite (h.bind fun _ => acts_pure _) (.ite (acts_refuse _) (acts_pure _))

/-! ### The snapshot unit -/

theorem untouched_snapshotStep (p st : Nat) (s : State) : Untouched s (snapshotStep p st s) := by
  unfold snapshotStep
  simp only
  split <;> exact ⟨rfl, rfl, rfl, rfl⟩

theorem untouched_finalizeSnapshot (p st : Nat) (nextTable : BitVec 8) (s : State) :
    Untouched s (finalizeSnapshot p st nextTable s) := by
  unfold finalizeSnapshot
  simp only
  split <;> exact ⟨rfl, rfl, rfl, rfl⟩

/-! ### The tEOP buses -/

theorem framed_checkTeopDelay (p st lt b : Nat) : Framed (checkTeopDelay p st lt b) :=
  acts_look_bind fun _ => .ite (framed_raise _ _) (acts_pure _)

theorem framed_outputOnBus (p st lt alu : Nat) (addr : BitVec 32) (isStats : Bool) (b : Nat) :
    Framed (outputOnBus p st lt alu addr isStats b) :=
  acts_look_bind fun _ => .ite (framed_raise _ _)
    (framed_change_bind (fun _ => ⟨rfl, rfl, rfl, rfl⟩) fun _ => framed_checkTeopDelay _ _ _ _)

theorem framed_outputAddr (p st lt alu : Nat) (addr : BitVec 32) (isStats : Bool) :
    Framed (outputAddr p st lt alu addr isStats) :=
  acts_look_bind fun _ => acts_forEach (framed_outputOnBus _ _ _ _ _ _) _

theorem framed_consumeBus (p st b : Nat) : Framed (consumeBus p st b) :=
  acts_look_bind fun _ => .ite
    (.ite
      (.ite (acts_pure _) ((acts_forEach (fun _ => (framed_statsAddress _ _ _ _ _).bind fun _ => acts_pure _) _).bind
        fun _ => framed_change fun _ => ⟨rfl, rfl, rfl, rfl⟩))
      (.ite (acts_pure _) (acts_refuse _)))
    (acts_pure _)

theorem framed_consumeAll (p st : Nat) : Framed (consumeAll p st) :=
  acts_look_bind fun _ => acts_forEach (framed_consumeBus _ _) _

/-! ### The stage cycle -/

/-- What every round of a fold relates, the fold relates. -/
theorem foldl_related {α : Type} {R : State → State → Prop} (refl : ∀ s, R s s)
    (trans : ∀ {a s t}, R a s → R s t → R a t) {f : State → α → State} (h : ∀ s a, R s (f s a)) :
    ∀ (l : List α) (s : State), R s (l.foldl f s)
  | [], s => refl s
  | a :: l, s => trans (h s a) (foldl_related refl trans h l (f s a))

theorem Untouched.trans {a s t : State} (h : Untouched a s) (h' : Untouched s t) : Untouched a t := by
  obtain ⟨hp, hc, hl, hf⟩ := h
  obtain ⟨hp', hc', hl', hf'⟩ := h'
  exact ⟨hp'.trans hp, hc'.trans hc, hl'.trans hl, hf'.trans hf⟩

theorem untouched_cleanStage (p st : Nat) (s : State) : Untouched s (cleanStage p st s) :=
  foldl_related (R := Untouched) (f := fun s r => resetResources p st r s) (fun _ => ⟨rfl, rfl, rfl, rfl⟩)
    Untouched.trans (fun _ _ => ⟨rfl, rfl, rfl, rfl⟩) _ s

theorem framed_receive (raw : BitVec 32) : Framed (receive raw) := by
  intro s₀ s hs
  unfold receive
  cases maParse raw.toNat
  · trivial
  · exact hs

theorem framed_ctrDispatch (p st c : Nat) (req : CtrReq) (raw : BitVec 32) :
    Framed (ctrDispatch p st c req raw) := by
  cases req
  case none => exact acts_pure _
  all_goals exact (framed_ctrRequest _ _ _ _).bind fun _ => acts_pure _

theorem framed_runSelector (p st a : Nat) (raw : BitVec 32) : Framed (runSelector p st a raw) := by
  refine (framed_receive _).bind fun ma => ?_
  rcases ma with _ | ⟨op, f⟩
  · exact acts_pure _
  · exact .ite (acts_look_bind fun _ => framed_selRun _ _ _ _ _ _) (.ite (framed_maRead _ _ _ _ _) (acts_pure _))

theorem framed_runStateful (p st a : Nat) (raws : List (Bool × Bool)) (raw : BitVec 32) :
    Framed (runStateful p st a raws raw) := by
  refine (framed_receive _).bind fun ma => ?_
  rcases ma with _ | ⟨op, f⟩
  · exact acts_pure _
  · exact .ite (acts_look_bind fun _ => framed_saluExecute _ _ _ _ _ _ _ _)
      (.ite (framed_maRead _ _ _ _ _) (acts_pure _))

theorem framed_runStats (p st a lt : Nat) (raw : BitVec 24) : Framed (runStats p st a lt raw) :=
  acts_look_bind fun _ => .ite (acts_pure _)
    (.ite ((framed_outputAddr _ _ _ _ _ _).bind fun _ => acts_pure _) (framed_statsAddress _ _ _ _ _))

theorem framed_runAlus (p st : Nat) (A : AddrOut) : Framed (runAlus p st A) :=
  acts_look_bind fun _ =>
    (acts_collect (fun _ => .ite (framed_ctrDispatch _ _ _ _ _) (acts_pure _)) _).bind fun _ =>
    (acts_collect (fun _ => framed_runSelector _ _ _ _) _).bind fun _ =>
    acts_look_bind fun _ =>
    (acts_collect (fun _ => framed_runStateful _ _ _ _ _) _).bind fun _ =>
    (acts_collect (fun _ => framed_runStats _ _ _ _ _) _).bind fun _ =>
    .ite (acts_refuse _) (acts_pure _)

theorem framed_stageCycle (p st : Nat) : Framed (stageCycle p st) :=
  framed_change_bind (fun _ => ⟨rfl, rfl, rfl, rfl⟩) fun _ =>
  framed_change_bind (untouched_cleanStage p st) fun _ =>
  acts_look_bind fun _ =>
  (acts_forEach (fun _ => framed_continueClearTill _ _ _ _) _).bind fun _ =>
  framed_change_bind (untouched_snapshotStep p st) fun _ =>
  (acts_forEach (framed_runRow p st) _).bind fun _ =>
  acts_look_bind fun _ =>
  (framed_runAlus _ _ _).bind fun _ =>
  (framed_consumeAll _ _).bind fun _ =>
  framed_change_bind (untouched_finalizeSnapshot p st _) fun _ =>
  framed_change fun _ => ⟨rfl, rfl, rfl, rfl⟩

/-! ### The sweeper -/

theorem framed_decLock (t : TableId) (a : AType) : Framed (decLock t a) :=
  acts_look_bind fun _ => .ite (framed_raise _ _) (framed_change fun _ => ⟨rfl, rfl, rfl, rfl⟩)

theorem framed_tableStatsAlu (t : TableId) : Framed (tableStatsAlu t) := by
  refine acts_look_bind fun s => ?_
  split
  · exact acts_pure _
  · exact .ite (acts_pure _) (acts_refuse _)

/-- The work on the stats ALU of a table: nothing where the table has none. -/
theorem framed_onTableStatsAlu (t : TableId) {f : Nat → M Unit} (h : ∀ a, Framed (f a)) :
    Framed (tableStatsAlu t >>= fun a => match a with
      | none => pure ()
      | some a => f a) := by
  refine (framed_tableStatsAlu t).bind fun a => ?_
  cases a
  · exact acts_pure _
  · exact h _

theorem framed_overEntries (t : TableId) {f : Nat → Nat → Nat → M Unit} (h : ∀ a w k, Framed (f a w k)) :
    Framed (overEntries t f) :=
  framed_onTableStatsAlu t fun _ => acts_look_bind fun _ =>
    .ite (framed_raise _ _) (acts_forEach (fun _ => h _ _ _) _)

theorem framed_entryArg (op : Op) : Framed (entryArg op) := .ite (acts_pure _) (acts_refuse _)

/-- The record of an entry goes to the host where the entry could be read. -/
theorem framed_emitEntry {m : M (Option Word)} (h : Framed m) (r : Word → HostRec) :
    Framed (m >>= fun e => match e with
      | none => pure ()
      | some ew => change (fun s => s.emit (r ew))) := by
  refine h.bind fun e => ?_
  cases e
  · exact acts_pure _
  · exact framed_change fun _ => ⟨rfl, rfl, rfl, rfl⟩

theorem framed_work (op : Op) : Framed (work op) := by
  unfold work
  cases op.atype
  case idle => exact acts_refuse _
  cases op.opcode
  case sweep => exact framed_overEntries _ fun _ _ _ => framed_sweepEntry _ _ _ _ _
  case dump => exact framed_overEntries _ fun _ _ _ => framed_emitEntry (framed_dumpEntry _ _ _ _ _) _
  case dumpWord =>
    exact (framed_entryArg op).bind fun _ => framed_onTableStatsAlu _ fun _ =>
      framed_emitEntry (framed_dumpEntry _ _ _ _ _) _
  case evictWord =>
    exact (framed_entryArg op).bind fun _ => framed_onTableStatsAlu _ fun _ =>
      framed_emitEntry (framed_evictEntry _ _ _ _ _) _
  all_goals exact acts_pure _

theorem framed_intervalSet (op : Op) : Framed (intervalSet op) :=
  .ite (framed_change fun _ => ⟨rfl, rfl, rfl, rfl⟩) (acts_refuse _)

theorem framed_beginOp (op : Op) : Framed (beginOp op) := by
  unfold beginOp
  cases op.opcode
  case intervalSet => exact framed_intervalSet op
  case lock | barrier => exact framed_change fun _ => ⟨rfl, rfl, rfl, rfl⟩
  case unlock => exact (framed_decLock _ _).bind fun _ => framed_change fun _ => ⟨rfl, rfl, rfl, rfl⟩
  all_goals exact acts_look_bind fun _ => .ite (acts_pure _) (framed_change fun _ => ⟨rfl, rfl, rfl, rfl⟩)

theorem framed_finishWork (op : Op) : Framed (finishWork op) := by
  have leave : Framed (change fun s => opStop op.table op.atype
      (s.setSwp { s.swp with inFlight := s.swp.inFlight.erase op })) :=
    framed_change fun _ => ⟨rfl, rfl, rfl, rfl⟩
  exact acts_look_bind fun _ => .ite leave ((framed_work op).bind fun _ => leave)

theorem untouched_completeLock (op : Op) (s : State) : Untouched s (completeLock op s) := by
  unfold completeLock
  split <;> exact ⟨rfl, rfl, rfl, rfl⟩

theorem framed_sweeperBegin : Framed sweeperBegin := by
  refine acts_look_bind fun s => ?_
  split
  · exact .ite (framed_change_bind (fun _ => ⟨rfl, rfl, rfl, rfl⟩) fun _ => framed_beginOp _) (acts_pure _)
  · exact .ite (framed_change_bind (fun _ => ⟨rfl, rfl, rfl, rfl⟩) fun _ => framed_beginOp _) (acts_pure _)
  · exact acts_pure _

theorem framed_sweeperFinish (k : Nat) : Framed (sweeperFinish k) := by
  refine acts_look_bind fun s => ?_
  split
  · exact framed_finishWork _
  · exact acts_pure _

theorem framed_lockComplete (k : Nat) : Framed (lockComplete k) := by
  refine acts_look_bind fun s => ?_
  split
  · exact framed_change (untouched_completeLock _)
  · exact acts_pure _

theorem framed_opStep (op : Op) : Framed (opStep op) :=
  acts_look_bind fun _ => .ite (framed_raise _ _) <| .ite (framed_finishWork op) <|
    .ite (framed_change (untouched_completeLock op)) <| .ite (framed_beginOp op)
      (framed_change fun _ => ⟨rfl, rfl, rfl, rfl⟩)

theorem framed_opRow (opcode : OpCode) (o : OpFields) : Framed (opRow opcode o) :=
  (framed_opStep _).bind fun _ => acts_pure _

/-! ### The host's interface -/

theorem untouched_writeState {s t : State} {name : FieldName} {idx : List Nat} {v : BitVec 64}
    (h : writeState s name idx v = some t) : Untouched s t := by
  unfold writeState at h
  split at h
  · obtain ⟨c, -, rfl⟩ := Option.map_eq_some_iff.1 h
    exact ⟨rfl, rfl, rfl, rfl⟩
  · obtain ⟨x, -, rfl⟩ := Option.map_eq_some_iff.1 h
    exact ⟨rfl, rfl, rfl, rfl⟩
  · cases h

theorem untouched_writeField (name : FieldName) (idx : List Nat) (part width : Nat) (v : BitVec 64) (s : State) :
    Untouched s (writeField name idx part width v s) := by
  unfold writeField observers
  split
  · exact ⟨rfl, rfl, rfl, rfl⟩
  · split <;> exact ⟨rfl, rfl, rfl, rfl⟩

theorem untouched_setFieldOp {s t : State} {name : FieldName} {idx : List Nat} {part : Nat} {v : BitVec 64}
    (h : setFieldOp s name idx part v = some t) : Untouched s t := by
  unfold setFieldOp at h
  split at h
  · split at h
    · cases h
      exact untouched_writeField _ _ _ _ _ _
    · cases h
  · split at h
    · exact untouched_writeState h
    · cases h

theorem framed_entryInRange (a : RamAddr) : Framed (entryInRange a) :=
  acts_look_bind fun _ => .ite (acts_pure _) (framed_raise_bind _ _ fun _ => acts_pure _)

end Sys2Proof.Machine
end

section
/-! SUPPORT. The claims and the packets of the coordinator, and the steps that change neither. -/

namespace Sys2Proof.Machine

/-! ### Claims (R450) -/

/-- The same pipes are active, and the same workers hold and process. -/
structure SameClaims (s t : State) : Prop where
  active : ∀ p, (t.pipe p).active = (s.pipe p).active
  held : ∀ w, (t.worker w).held = (s.worker w).held
  processing : ∀ w, (t.worker w).wstate = .processing ↔ (s.worker w).wstate = .processing

theorem SameClaims.refl (s : State) : SameClaims s s := ⟨fun _ => rfl, fun _ => rfl, fun _ => .rfl⟩

theorem SameClaims.trans {a s t : State} (h : SameClaims a s) (h' : SameClaims s t) : SameClaims a t :=
  ⟨fun p => (h'.active p).trans (h.active p), fun w => (h'.held w).trans (h.held w),
    fun w => (h'.processing w).trans (h.processing w)⟩

theorem SameClaims.exclusive {s t : State} (h : SameClaims s t) (hs : ClaimsExclusive s) : ClaimsExclusive t := by
  obtain ⟨hactive, hone, hproc⟩ := hs
  refine ⟨fun p => ?_, fun w w' k k' => ?_, fun w => ?_⟩
  · simp only [h.active, h.held]
    exact hactive p
  · simp only [h.held]
    exact hone w w' k k'
  · rw [h.held, h.processing]
    exact hproc w

/-- A worker that does not process holds nothing. -/
theorem ClaimsExclusive.held_eq_none {s : State} (h : ClaimsExclusive s) {w : Nat}
    (hw : (s.worker w).wstate ≠ .processing) : (s.worker w).held = none := by
  obtain ⟨-, -, hproc⟩ := h
  by_contra hne
  exact hw ((hproc w).1 hne)

/-! ### The packets inside the block (R448, R449) -/

/-- The packets queued at a pipe. -/
def queues (q : PipeState) : List Packet := q.qRx ++ q.qPgen ++ q.qTm

theorem livePackets_eq (s : State) : s.livePackets =
    (List.range s.params.numPipes).flatMap (fun p => queues (s.pipe p))
      ++ (List.range s.params.numWorkers).flatMap (fun w => heldPackets (s.worker w).held) := rfl

theorem livePackets_congr {s t : State} (hp : t.params = s.params) (hq : ∀ p, queues (t.pipe p) = queues (s.pipe p))
    (hw : ∀ w, (t.worker w).held = (s.worker w).held) : t.livePackets = s.livePackets := by
  simp only [livePackets_eq, hp, hq, hw]

/-- Of a list made of parts, one part is exchanged. -/
theorem flatMap_range_exchange {α : Type} {n k : Nat} (hk : k < n) {f g : Nat → List α} (h : ∀ i, i ≠ k → f i = g i) :
    ((List.range n).flatMap f ++ g k).Perm ((List.range n).flatMap g ++ f k) := by
  classical
  have split (e : Nat → List α) :
      ((List.range n).flatMap e).Perm (e k ++ ((List.range n).erase k).flatMap e) :=
    (List.perm_cons_erase (List.mem_range.2 hk)).flatMap_right e
  have rest : ((List.range n).erase k).flatMap f = ((List.range n).erase k).flatMap g :=
    List.flatMap_congr fun i hi => h i (List.nodup_range.mem_erase_iff.1 hi).1
  rw [List.perm_iff_count]
  intro a
  have hf := (split f).count_eq a
  have hg := (split g).count_eq a
  rw [rest] at hf
  simp only [List.count_append] at hf hg ⊢
  omega

@[simp] theorem State.pipe_putPipe_same (s : State) (p : Nat) (v : PipeState) : (s.putPipe p v).pipe p = v := by
  rw [State.pipe_putPipe, if_pos rfl]

@[simp] theorem State.worker_putWorker_same (s : State) (w : Nat) (v : Worker) : (s.putWorker w v).worker w = v := by
  rw [State.worker_putWorker, if_pos rfl]

/-- Only the queues and flags of one pipe differ. -/
structure Repiped (p : Nat) (s t : State) : Prop where
  only : ∃ P, t = s.setCoord { s.coord with pipes := P }
  other : ∀ p', p' ≠ p → t.pipe p' = s.pipe p'

theorem Repiped.refl (p : Nat) (s : State) : Repiped p s s := ⟨⟨s.coord.pipes, rfl⟩, fun _ _ => rfl⟩

theorem Repiped.trans {p : Nat} {a s t : State} (h : Repiped p a s) (h' : Repiped p s t) : Repiped p a t := by
  obtain ⟨⟨P, rfl⟩, ho⟩ := h
  obtain ⟨⟨P', rfl⟩, ho'⟩ := h'
  exact ⟨⟨P', rfl⟩, fun p' hp => (ho' p' hp).trans (ho p' hp)⟩

theorem repiped_putPipe (p : Nat) (s : State) (v : PipeState) : Repiped p s (s.putPipe p v) :=
  ⟨⟨_, rfl⟩, fun p' hp => by rw [State.pipe_putPipe, if_neg hp]⟩

theorem Repiped.worker {p : Nat} {s t : State} (h : Repiped p s t) (w : Nat) : t.worker w = s.worker w := by
  obtain ⟨⟨P, rfl⟩, -⟩ := h
  rfl

theorem Repiped.kept {p : Nat} {s t : State} (h : Repiped p s t) : Kept s t := by
  obtain ⟨⟨P, rfl⟩, -⟩ := h
  exact .of_eq rfl rfl rfl

theorem Repiped.live {p : Nat} {s t : State} (h : Repiped p s t) (hp : p < s.params.numPipes) :
    (t.livePackets ++ queues (s.pipe p)).Perm (s.livePackets ++ queues (t.pipe p)) := by
  have exchange := flatMap_range_exchange hp (f := fun i => queues (t.pipe i)) (g := fun i => queues (s.pipe i))
    fun i hi => congrArg queues (h.other i hi)
  simp only [livePackets_eq, h.kept.params, h.worker]
  rw [List.perm_iff_count] at exchange ⊢
  intro a
  have := exchange a
  simp only [List.count_append] at this ⊢
  omega

theorem putWorker_live {s : State} {w : Nat} (v : Worker) (hw : w < s.params.numWorkers) :
    ((s.putWorker w v).livePackets ++ heldPackets (s.worker w).held).Perm (s.livePackets ++ heldPackets v.held) := by
  have exchange := flatMap_range_exchange hw (f := fun i => heldPackets ((s.putWorker w v).worker i).held)
    (g := fun i => heldPackets (s.worker i).held) fun i hi => by rw [State.worker_putWorker, if_neg hi]
  rw [State.worker_putWorker_same] at exchange
  rw [livePackets_eq s, livePackets_eq (s.putWorker w v)]
  simp only [List.append_assoc]
  exact exchange.append_left _

/-- The packets `l` have come into the block, and are counted; identities may have been taken from the host. -/
structure Gains (l : List Packet) (s t : State) : Prop where
  live : t.livePackets.Perm (l ++ s.livePackets)
  pending : t.coord.pending = s.coord.pending + l.length
  taken : s.coord.taken ⊆ t.coord.taken
  bound : (∀ id ∈ s.coord.taken, id < s.coord.nextId) → ∀ id ∈ t.coord.taken, id < t.coord.nextId
  running : Running t → Running s

theorem Gains.refl (s : State) : Gains [] s s := ⟨.rfl, rfl, fun _ h => h, fun h => h, fun h => h⟩

theorem Gains.trans {l l' : List Packet} {a s t : State} (h : Gains l a s) (h' : Gains l' s t) :
    Gains (l' ++ l) a t :=
  ⟨by rw [List.append_assoc]; exact h'.live.trans (h.live.append_left l'),
    by rw [h'.pending, h.pending, List.length_append]; omega,
    fun _ hi => h'.taken (h.taken hi), fun hb => h'.bound (h.bound hb), fun hr => h.running (h'.running hr)⟩

/-! ### Steps that leave the books as they are -/

/-- Neither claims nor packets change, and the launch record, the log and the fault are kept. -/
structure Neutral (s t : State) : Prop extends Kept s t, SameClaims s t where
  gains : Gains [] s t

/-- No claim changes; packets may come and go. -/
structure Calm (s t : State) : Prop extends Kept s t, SameClaims s t

theorem Neutral.refl (s : State) : Neutral s s := ⟨.refl s, .refl s, .refl s⟩

theorem Neutral.trans {a s t : State} (h : Neutral a s) (h' : Neutral s t) : Neutral a t :=
  ⟨h.toKept.trans h'.toKept, h.toSameClaims.trans h'.toSameClaims, h.gains.trans h'.gains⟩

theorem Calm.refl (s : State) : Calm s s := ⟨.refl s, .refl s⟩

theorem Calm.trans {a s t : State} (h : Calm a s) (h' : Calm s t) : Calm a t :=
  ⟨h.toKept.trans h'.toKept, h.toSameClaims.trans h'.toSameClaims⟩

theorem Neutral.calm {s t : State} (h : Neutral s t) : Calm s t := ⟨h.toKept, h.toSameClaims⟩

/-- Nothing of the claims, the packets, the identities and the count is written. -/
theorem neutral_of_same {s t : State} (hk : Kept s t) (hc : SameClaims s t)
    (hq : ∀ p, queues (t.pipe p) = queues (s.pipe p)) (hpend : t.coord.pending = s.coord.pending)
    (htaken : t.coord.taken = s.coord.taken) (hnext : t.coord.nextId = s.coord.nextId) : Neutral s t :=
  ⟨hk, hc, ⟨by rw [livePackets_congr hk.params hq hc.held]; exact .rfl, hpend,
    by rw [htaken]; exact fun _ h => h, by rw [htaken, hnext]; exact fun h => h, hk.running⟩⟩

theorem Frame.neutral {s t : State} (h : Frame s t) : Neutral s t := by
  have hp (p : Nat) : t.pipe p = s.pipe p := by rw [State.pipe, State.pipe, h.coord]
  have hw (w : Nat) : t.worker w = s.worker w := by rw [State.worker, State.worker, h.coord, h.params]
  refine neutral_of_same h.toKept ⟨fun p => by rw [hp], fun w => by rw [hw], fun w => by rw [hw]⟩
    (fun p => by rw [hp]) ?_ ?_ ?_ <;> rw [h.coord]

theorem Repiped.sameClaims {p : Nat} {s t : State} (h : Repiped p s t)
    (ha : (t.pipe p).active = (s.pipe p).active) : SameClaims s t := by
  refine ⟨fun p' => ?_, fun w => by rw [h.worker], fun w => by rw [h.worker]⟩
  by_cases hp : p' = p
  · rw [hp, ha]
  · rw [h.other p' hp]

theorem Repiped.calm {p : Nat} {s t : State} (h : Repiped p s t) (ha : (t.pipe p).active = (s.pipe p).active) :
    Calm s t :=
  ⟨h.kept, h.sameClaims ha⟩

theorem calm_putPipe {s : State} {p : Nat} {v : PipeState} (ha : v.active = (s.pipe p).active) :
    Calm s (s.putPipe p v) :=
  (repiped_putPipe p s v).calm (by rw [State.pipe_putPipe_same, ha])

theorem neutral_putPipe {s : State} {p : Nat} {v : PipeState} (hq : queues v = queues (s.pipe p))
    (ha : v.active = (s.pipe p).active) : Neutral s (s.putPipe p v) := by
  refine neutral_of_same (repiped_putPipe p s v).kept (calm_putPipe ha).toSameClaims (fun p' => ?_) rfl rfl rfl
  by_cases hp : p' = p
  · rw [hp, State.pipe_putPipe_same, hq]
  · rw [(repiped_putPipe p s v).other p' hp]

theorem neutral_putWorker {s : State} {w : Nat} {v : Worker} (hh : v.held = (s.worker w).held)
    (hp : v.wstate = .processing ↔ (s.worker w).wstate = .processing) : Neutral s (s.putWorker w v) := by
  have other {w' : Nat} (hne : w' ≠ w) : (s.putWorker w v).worker w' = s.worker w' := by
    rw [State.worker_putWorker, if_neg hne]
  refine neutral_of_same (.of_eq rfl rfl rfl) ⟨fun _ => rfl, fun w' => ?_, fun w' => ?_⟩ (fun _ => rfl) rfl rfl rfl
  · by_cases hw : w' = w
    · rw [hw, State.worker_putWorker_same, hh]
    · rw [other hw]
  · by_cases hw : w' = w
    · rw [hw, State.worker_putWorker_same, hp]
    · rw [other hw]

/-- The flags of the coordinator, the transmitted records and the blocked commands are in no book. -/
theorem neutral_setCoord {s : State} {c : CoordState} (hp : c.pipes = s.coord.pipes) (hw : c.workers = s.coord.workers)
    (hpend : c.pending = s.coord.pending) (htaken : c.taken = s.coord.taken) (hnext : c.nextId = s.coord.nextId) :
    Neutral s (s.setCoord c) := by
  have pipe (p : Nat) : (s.setCoord c).pipe p = s.pipe p := by rw [State.pipe, State.pipe, State.setCoord_coord, hp]
  have worker (w : Nat) : (s.setCoord c).worker w = s.worker w := by
    rw [State.worker, State.worker, State.setCoord_coord, State.setCoord_params, hw]
  exact neutral_of_same (.of_eq rfl rfl rfl)
    ⟨fun p => by rw [pipe], fun w => by rw [worker], fun w => by rw [worker]⟩ (fun p => by rw [pipe]) hpend htaken hnext

theorem Framed.neutral {α : Type} {m : M α} (h : Framed m) : Acts Neutral m :=
  h.mono .refl fun _ _ _ ha hs => ha.trans hs.neutral

theorem Acts.calm {α : Type} {m : M α} (h : Acts Neutral m) : Acts Calm m :=
  h.mono .refl fun _ _ _ ha hs => ha.trans hs.calm

theorem acts_change_neutral {f : State → State} (h : ∀ s, Neutral s (f s)) : Acts Neutral (change f) :=
  acts_change fun _ s hs => hs.trans (h s)

theorem neutral_foldl {α : Type} {f : State → α → State} (h : ∀ s a, Neutral s (f s a)) (l : List α) (s : State) :
    Neutral s (l.foldl f s) :=
  foldl_related .refl .trans h l s

theorem neutral_notifyWorker (w : Nat) (s : State) : Neutral s (notifyWorker w s) := neutral_putWorker rfl .rfl

theorem neutral_transmit (pkt : Packet) (s : State) : Neutral s (transmit pkt s) := neutral_setCoord rfl rfl rfl rfl rfl

theorem neutral_startWorker (s : State) (w : Nat) : Neutral s (startWorker s w) := by
  unfold startWorker
  split
  · rename_i h
    exact neutral_putWorker rfl (by simp [h])
  · exact .refl s

theorem neutral_workerWake (w : Nat) (s : State) : Neutral s (workerWake w s) := by
  unfold workerWake
  split
  · rename_i h
    have hw : (s.worker w).wstate = .waiting := by simp_all [canWake]
    have woken : Neutral s (s.putWorker w { s.worker w with wstate := .scanning, notified := false }) :=
      neutral_putWorker rfl (by simp [hw])
    exact woken.trans (neutral_setCoord rfl rfl rfl rfl rfl)
  · exact .refl s

theorem acts_notifyOne : Acts Neutral notifyOne := by
  intro s₀ s hs
  rcases notifyOne_apply s with ⟨-, h⟩ | ⟨w, n, -, h⟩
  · rw [h]
    exact hs
  · rw [h]
    have drawn : Neutral s (s.setDraws n) := Frame.neutral (Untouched.frame ⟨rfl, rfl, rfl, rfl⟩)
    exact hs.trans (drawn.trans (neutral_notifyWorker w _))

theorem acts_waitPoll (k : Nat) : Acts Neutral (waitPoll k) := by
  have write (f : List Nat → List Nat) :
      Acts Neutral (change fun s => s.setCoord { s.coord with idleWaits := f s.coord.idleWaits }) :=
    acts_change_neutral fun _ => neutral_setCoord rfl rfl rfl rfl rfl
  refine acts_look_bind fun s => ?_
  split
  · exact acts_pure _
  · exact .ite (.bind (write (List.eraseIdx · k)) fun _ => acts_pure _) <|
      .ite (.bind (write (List.set · k _)) fun _ => acts_pure _) <|
      (framed_raise _ _).neutral.bind fun _ => .bind (write (List.eraseIdx · k)) fun _ => acts_pure _

theorem acts_stopPoll : Acts Neutral stopPoll :=
  acts_look_bind fun _ => .ite
    (.bind (acts_change_neutral fun _ => neutral_foldl (fun s w => neutral_notifyWorker w s) _ _) fun _ =>
      .ite (.bind (acts_change_neutral fun _ => neutral_setCoord rfl rfl rfl rfl rfl) fun _ => acts_pure _)
        (acts_pure _))
    (acts_pure _)

theorem acts_mauWalk (p : Nat) (gress : Gress) (phv : Phv) (pkt : Packet) : Acts Neutral (mauWalk p gress phv pkt) := by
  refine framed_drawIndex.neutral.bind fun n => .bind (acts_change_neutral fun s => ?_) fun _ =>
    acts_look_bind fun _ => .bind (acts_forEach (fun st => (framed_stageCycle p st).neutral) _) fun _ =>
    .bind (Framed.neutral (framed_change fun _ => ⟨rfl, rfl, rfl, rfl⟩)) fun _ => acts_look _
  have injected : Neutral s (s.setAct { s.act with
      io := injectedIo gress ((s.pipe p).cycle + Config.idleGap n) pkt.bytes.length, phv := phv }) :=
    Frame.neutral (Untouched.frame ⟨rfl, rfl, rfl, rfl⟩)
  exact injected.trans (neutral_putPipe rfl rfl)

theorem acts_walkPacket (p : Nat) (gress : Gress) (pkt : Packet) : Acts Neutral (walkPacket p gress pkt) :=
  acts_look_bind fun _ => (acts_mauWalk _ _ _ _).bind fun _ => acts_pure _

theorem acts_egressActivation (p : Nat) (pkt : Packet) : Acts Neutral (egressActivation p pkt) :=
  (acts_walkPacket _ _ _).bind fun _ => acts_change_neutral (neutral_transmit _)

end Sys2Proof.Machine
end

section
/-! SUPPORT. The packets that a worker has in its hands while it works on them, and where the activations place them. -/

namespace Sys2Proof.Machine

/-! ### Packets in the hands of a worker (R441 to R449) -/

/-- Every packet of the block is out of the host's hands and counted, and fresh identities are new (R448, R449). -/
structure Booked (s : State) : Prop where
  owned : ∀ pkt ∈ s.livePackets, pkt.id ∈ s.coord.taken
  bound : ∀ id ∈ s.coord.taken, id < s.coord.nextId
  counted : PendingCounted s

/-- Inside a step that works on the held packets `H`, the identities `todo` are still to be placed: neither of them is
that of a packet outside the worker's hands, and all the packets outside them are distinct while the machine runs. -/
structure InHand (H : List Packet) (todo : List Nat) (s : State) : Prop extends Booked s where
  taken : ∀ id ∈ todo, id ∈ s.coord.taken
  others : ∃ rest, s.livePackets.Perm (H ++ rest) ∧ (Running s → (todo ++ rest.map Packet.id).Nodup)

/-- A fault has ended the step: the packets are still owned and counted (R490). -/
def Stuck (s : State) : Prop := Booked s ∧ ¬ Running s

theorem coordBooks_iff (s : State) : CoordBooks s ↔ ClaimsExclusive s ∧ InHand [] [] s := by
  constructor
  · rintro ⟨hc, ⟨hn, ho, hb⟩, hp⟩
    exact ⟨hc, ⟨⟨ho, hb, hp⟩, by simp, s.livePackets, .rfl, hn⟩⟩
  · rintro ⟨hc, ⟨ho, hb, hp⟩, -, rest, hperm, hn⟩
    exact ⟨hc, ⟨fun hr => ((hperm.map Packet.id).nodup_iff).2 (hn hr), ho, hb⟩, hp⟩

theorem Stuck.books {s : State} (h : Stuck s) (hc : ClaimsExclusive s) : CoordBooks s := by
  obtain ⟨⟨ho, hb, hp⟩, hn⟩ := h
  exact ⟨hc, ⟨fun hr => absurd hr hn, ho, hb⟩, hp⟩

section
variable {H : List Packet} {todo : List Nat} {s t : State}

/-- Packets that come into the block take identities that were to be placed. -/
theorem InHand.gains {l : List Packet} (h : InHand H (l.map Packet.id ++ todo) s) (g : Gains l s t) :
    InHand H todo t := by
  obtain ⟨rest, hperm, hnodup⟩ := h.others
  refine ⟨⟨fun pkt hpkt => ?_, g.bound h.bound, ?_⟩, fun id hid => ?_, l ++ rest, ?_, fun hr => ?_⟩
  · rcases List.mem_append.1 (g.live.mem_iff.1 hpkt) with hnew | hold
    · exact g.taken (h.taken _ (List.mem_append_left _ (List.mem_map_of_mem hnew)))
    · exact g.taken (h.owned _ hold)
  · have hc := h.counted
    rw [PendingCounted] at hc ⊢
    rw [g.pending, g.live.length_eq, List.length_append, hc]
    omega
  · exact g.taken (h.taken id (List.mem_append_right _ hid))
  · calc t.livePackets
      _ |>.Perm (l ++ s.livePackets) := g.live
      _ |>.Perm (l ++ (H ++ rest)) := hperm.append_left l
      _ |>.Perm (H ++ (l ++ rest)) := by
        rw [← List.append_assoc, ← List.append_assoc]
        exact List.perm_append_comm.append_right rest
  · have := hnodup (g.running hr)
    rw [List.map_append, ← List.append_assoc]
    exact (List.perm_append_comm.append_right _).nodup_iff.1 this

theorem InHand.neutral (h : InHand H todo s) (g : Gains [] s t) : InHand H todo t := InHand.gains (l := []) h g

/-- An identity that the host still owned is no packet's of the block (R449). -/
theorem InHand.take {id : Nat} (h : InHand H todo s) (hid : id ∉ s.coord.taken) :
    InHand H (id :: todo) (takeId id s) := by
  have mem (i : Nat) : i ∈ (takeId id s).coord.taken ↔ i ∈ s.coord.taken ∨ i = id := by simp [takeId]
  have live : (takeId id s).livePackets = s.livePackets := rfl
  obtain ⟨rest, hperm, hnodup⟩ := h.others
  refine ⟨⟨fun pkt hpkt => (mem _).2 (.inl (h.owned pkt hpkt)), fun i hi => ?_, h.counted⟩, fun i hi => ?_,
    rest, hperm, fun hr => ?_⟩
  · have next : (takeId id s).coord.nextId = max s.coord.nextId (id + 1) := rfl
    rcases (mem i).1 hi with hi | rfl
    · have := h.bound i hi
      omega
    · omega
  · rcases List.mem_cons.1 hi with rfl | hi
    · exact (mem _).2 (.inr rfl)
    · exact (mem i).2 (.inl (h.taken i hi))
  · refine List.nodup_cons.2 ⟨fun hmem => ?_, hnodup hr⟩
    rcases List.mem_append.1 hmem with hmem | hmem
    · exact hid (h.taken id hmem)
    · obtain ⟨pkt, hpkt, rfl⟩ := List.mem_map.1 hmem
      exact hid (h.owned pkt (hperm.mem_iff.2 (List.mem_append_right _ hpkt)))

/-- A packet may be dropped. -/
theorem InHand.drop {id : Nat} (h : InHand H (id :: todo) s) : InHand H todo s := by
  obtain ⟨rest, hperm, hnodup⟩ := h.others
  exact ⟨h.toBooked, fun i hi => h.taken i (List.mem_cons_of_mem _ hi), rest, hperm,
    fun hr => (List.nodup_cons.1 (hnodup hr)).2⟩

/-- A worker begins its work on the packets it holds: all of them are to be placed. -/
theorem InHand.begin (h : InHand [] [] s) (hH : H.Sublist s.livePackets) : InHand H (H.map Packet.id) s := by
  obtain ⟨rest, hperm⟩ := hH.exists_perm_append
  obtain ⟨all, hall, hnodup⟩ := h.others
  refine ⟨h.toBooked, fun id hid => ?_, rest, hperm, fun hr => ?_⟩
  · obtain ⟨pkt, hpkt, rfl⟩ := List.mem_map.1 hid
    exact h.owned pkt (hH.subset hpkt)
  · rw [← List.map_append]
    exact ((hall.symm.trans hperm).map Packet.id).nodup_iff.1 (hnodup hr)

end

/-! ### Packets that come into the block (R433 to R436, R442) -/

section
variable {H : List Packet} {todo : List Nat}

/-- A sequence that leaves the books alone keeps the packets in hand. -/
theorem Acts.inHand {α : Type} {m : M α} (h : Acts Neutral m) :
    Triple (InHand H todo) m (fun _ => InHand H todo) Stuck :=
  triple_of_cases (fun s _ _ hs e => hs.neutral ((h s).ok (.refl s) e).gains) fun s t hs e => by
    obtain ⟨hn, hr⟩ := (h s).faulted (.refl s) e
    exact ⟨(hs.neutral hn.gains).toBooked, hr⟩

/-- The count of pending packets goes up by one. -/
def countOne (s : State) : State := s.setCoord { s.coord with pending := s.coord.pending + 1 }

/-- Putting a packet at the end of a queue, and counting it. -/
theorem gains_countOne_putPipe {s : State} {p : Nat} {v : PipeState} {x : Packet} (hp : p < s.params.numPipes)
    (hv : (queues v).Perm (x :: queues (s.pipe p))) : Gains [x] s (countOne (s.putPipe p v)) := by
  have exchange := (repiped_putPipe p s v).live hp
  rw [State.pipe_putPipe_same] at exchange
  refine ⟨?_, rfl, fun _ h => h, fun h => h, fun h => h⟩
  have live : (countOne (s.putPipe p v)).livePackets = (s.putPipe p v).livePackets := rfl
  rw [live]
  refine (List.perm_append_right_iff (queues (s.pipe p))).1 ?_
  calc (s.putPipe p v).livePackets ++ queues (s.pipe p)
    _ |>.Perm (s.livePackets ++ queues v) := exchange
    _ |>.Perm (s.livePackets ++ ([x] ++ queues (s.pipe p))) := hv.append_left _
    _ |>.Perm ([x] ++ s.livePackets ++ queues (s.pipe p)) := by
      rw [← List.append_assoc]
      exact List.perm_append_comm.append_right _

theorem gains_pushRx {s : State} {p : Nat} (x : Packet) (hp : p < s.params.numPipes) :
    Gains [x] s (countOne (pushRx p x s)) :=
  gains_countOne_putPipe hp (by simp [queues])

theorem gains_pushPgen {s : State} {p : Nat} (x : Packet) (hp : p < s.params.numPipes) :
    Gains [x] s (countOne (pushPgen p x s)) := by
  refine gains_countOne_putPipe hp ?_
  simpa [queues] using List.perm_middle (a := x) (l₁ := (s.pipe p).qRx ++ (s.pipe p).qPgen) (l₂ := (s.pipe p).qTm)

theorem gains_pushTm {s : State} {p : Nat} (x : Packet) (hp : p < s.params.numPipes) :
    Gains [x] s (countOne (pushTm p x s)) := by
  refine gains_countOne_putPipe hp ?_
  simpa [queues] using List.perm_append_singleton x (queues (s.pipe p))

/-- A packet whose identity was to be placed arrives at a pipe of the block. -/
theorem triple_arrive {push : State → State} {p : Nat} {x : Packet}
    (h : ∀ s, p < s.params.numPipes → Gains [x] s (countOne (push s))) :
    Triple (fun s => p < s.params.numPipes ∧ InHand H (x.id :: todo) s) (change push >>= fun _ => packetArrived)
      (fun _ => InHand H todo) Stuck := by
  rintro s ⟨hp, hs⟩
  have arrived : InHand H todo (countOne (push s)) := InHand.gains (l := [x]) hs (h s hp)
  exact acts_notifyOne.inHand _ arrived

theorem triple_enqueueTm (pipe : Nat) (pkt : Packet) :
    Triple (InHand H (pkt.id :: todo)) (enqueueTm pipe pkt) (fun _ => InHand H todo) Stuck := by
  refine triple_look_bind fun s hs => ?_
  split
  · rename_i hp
    exact (triple_arrive (x := { pkt with pipe := pipe, kind := .fromTm }) fun _ => gains_pushTm _).at_state ⟨hp, hs⟩
  · exact (framed_raise _ _).neutral.inHand.at_state hs.drop

theorem triple_freshId : Triple (InHand H todo) freshId (fun id => InHand H (id :: todo)) Stuck := fun _ hs =>
  hs.take fun h => Nat.lt_irrefl _ (hs.bound _ h)

/-! ### The activations (R441 to R443) -/

/-- What of the identity of `pkt` is still to be placed, once it has been `used` or not. -/
def toPlace (pkt : Packet) (used : Bool) (todo : List Nat) : List Nat := if used then todo else pkt.id :: todo

/-- The identity of a packet that `TmFn` returns: that of the packet itself, at most once, or a fresh one (R442). -/
theorem triple_dispatchId (pkt : Packet) (used same : Bool) :
    Triple (InHand H (toPlace pkt used todo)) (if same && !used then pure pkt.id else freshId)
      (fun id => InHand H (id :: toPlace pkt (used || same) todo)) Stuck := by
  cases used
  · cases same
    · exact triple_freshId
    · exact triple_pure fun _ h => h
  · cases same <;> exact triple_freshId

theorem triple_dispatchTm (pkt : Packet) : ∀ (l : List TmOut) (used : Bool),
    Triple (InHand H (toPlace pkt used todo)) (dispatchTm pkt used l) (fun _ => InHand H todo) Stuck
  | [], used => by
    refine triple_pure fun s hs => ?_
    cases used
    · exact hs.drop
    · exact hs
  | o :: l, used => (triple_dispatchId pkt used o.same).bind fun id =>
      (triple_enqueueTm o.pipe { pkt with bytes := o.bytes, port := o.port, id := id }).bind fun _ =>
        triple_dispatchTm pkt l (used || o.same)

/-- A walk keeps the identity of the packet. -/
theorem triple_walkPacket (p : Nat) (gress : Gress) (pkt : Packet) :
    Triple (InHand H todo) (walkPacket p gress pkt) (fun out s => out.id = pkt.id ∧ InHand H todo s) Stuck :=
  (acts_look _).inHand.bind fun _ => (acts_mauWalk _ _ _ _).inHand.bind fun _ => triple_pure fun _ h => ⟨rfl, h⟩

theorem triple_ingressActivation (p : Nat) (pkt : Packet) :
    Triple (InHand H (pkt.id :: todo)) (ingressActivation p pkt) (fun _ => InHand H todo) Stuck := by
  refine (acts_look _).inHand.bind fun params => (triple_walkPacket _ _ _).bind fun out => ?_
  rintro s ⟨hid, hs⟩
  exact triple_dispatchTm out _ false s (by rw [← hid] at hs; exact hs)

theorem triple_egressActivation (p : Nat) (pkt : Packet) :
    Triple (InHand H (pkt.id :: todo)) (egressActivation p pkt) (fun _ => InHand H todo) Stuck :=
  (acts_egressActivation p pkt).inHand.weaken (fun _ h => h) (fun _ _ h => h.drop) fun _ h => h

/-- Both rails of an activation place the packets that the worker holds, and count them (R441). -/
theorem triple_processHeld (p : Nat) (h : Held) :
    Triple (InHand H ((heldPackets (some h)).map Packet.id)) (processHeld p h)
      (fun n s => n = (heldPackets (some h)).length ∧ InHand H [] s) Stuck := by
  obtain ⟨pipe, inPkt, tmPkt⟩ := h
  have inputRail (l : List Nat) : Triple (InHand H (inPkt.toList.map Packet.id ++ l))
      (match inPkt with
        | none => pure 0
        | some pkt => do
          ingressActivation p pkt
          pure 1)
      (fun n s => n = inPkt.toList.length ∧ InHand H l s) Stuck := by
    cases inPkt with
    | none => exact triple_pure fun _ h => ⟨rfl, h⟩
    | some pkt => exact (triple_ingressActivation p pkt).bind fun _ => triple_pure fun _ h => ⟨rfl, h⟩
  simp only [heldPackets, List.map_append, List.length_append]
  refine (inputRail _).bind fun n => ?_
  rintro s ⟨rfl, hs⟩
  cases tmPkt with
  | none => exact ⟨rfl, hs⟩
  | some pkt =>
    have tmRail (n : Nat) : Triple (InHand H [pkt.id])
        (if pkt.kind = .resubmit then ingressActivation p pkt >>= fun _ => pure (n + 1)
          else egressActivation p pkt >>= fun _ => pure (n + 1))
        (fun k t => k = n + 1 ∧ InHand H [] t) Stuck :=
      .ite ((triple_ingressActivation p pkt).bind fun _ => triple_pure fun _ h => ⟨rfl, h⟩)
        ((triple_egressActivation p pkt).bind fun _ => triple_pure fun _ h => ⟨rfl, h⟩)
    exact tmRail _ s hs

end


end Sys2Proof.Machine
end

section
/-! SUPPORT. The claims through the activations, and the claim of a pipe. -/

namespace Sys2Proof.Machine

/-! ### Claims through the activations and the host's commands -/

theorem acts_change_calm {f : State → State} (h : ∀ s, Calm s (f s)) : Acts Calm (change f) :=
  acts_change fun _ s hs => hs.trans (h s)

theorem calm_takeId (id : Nat) (s : State) : Calm s (takeId id s) :=
  ⟨.of_eq rfl rfl rfl, ⟨fun _ => rfl, fun _ => rfl, fun _ => .rfl⟩⟩

theorem calm_countOne (s : State) : Calm s (countOne s) :=
  ⟨.of_eq rfl rfl rfl, ⟨fun _ => rfl, fun _ => rfl, fun _ => .rfl⟩⟩

theorem calm_pushRx (p : Nat) (x : Packet) (s : State) : Calm s (pushRx p x s) := calm_putPipe rfl
theorem calm_pushPgen (p : Nat) (x : Packet) (s : State) : Calm s (pushPgen p x s) := calm_putPipe rfl
theorem calm_pushTm (p : Nat) (x : Packet) (s : State) : Calm s (pushTm p x s) := calm_putPipe rfl

theorem acts_raise_calm (place : Option (Nat × Nat)) (e : Err) : Acts Calm (raise place e) :=
  (framed_raise place e).neutral.calm

theorem acts_packetArrived : Acts Calm packetArrived :=
  .bind (acts_change_calm calm_countOne) fun _ => acts_notifyOne.calm

theorem acts_freshId : Acts Calm freshId :=
  acts_look_bind fun id => .bind (acts_change_calm (calm_takeId id)) fun _ => acts_pure _

theorem acts_enqueueTm (pipe : Nat) (pkt : Packet) : Acts Calm (enqueueTm pipe pkt) :=
  acts_look_bind fun _ => .ite (.bind (acts_change_calm (calm_pushTm _ _)) fun _ => acts_packetArrived)
    (acts_raise_calm _ _)

theorem acts_dispatchTm (pkt : Packet) : ∀ (l : List TmOut) (used : Bool), Acts Calm (dispatchTm pkt used l)
  | [], _ => acts_pure _
  | _ :: l, _ => .bind (.ite (acts_pure _) acts_freshId) fun _ => (acts_enqueueTm _ _).bind fun _ =>
      acts_dispatchTm pkt l _

theorem acts_ingressActivation (p : Nat) (pkt : Packet) : Acts Calm (ingressActivation p pkt) :=
  acts_look_bind fun _ => (acts_walkPacket _ _ _).calm.bind fun _ => acts_dispatchTm _ _ _

theorem acts_processHeld (p : Nat) (h : Held) : Acts Calm (processHeld p h) := by
  obtain ⟨pipe, inPkt, tmPkt⟩ := h
  refine .bind ?_ fun n => ?_
  · cases inPkt
    · exact acts_pure _
    · exact (acts_ingressActivation _ _).bind fun _ => acts_pure _
  · cases tmPkt
    · exact acts_pure _
    · exact .ite ((acts_ingressActivation _ _).bind fun _ => acts_pure _)
        ((acts_egressActivation _ _).calm.bind fun _ => acts_pure _)

/-! ### Claiming a pipe (R438 to R440) -/

/-- The packets `l` have been taken out of the queues of pipe `p`, and nothing else has changed but which queue is
next. -/
structure Takes (p : Nat) (l : List Packet) (s t : State) : Prop extends Repiped p s t where
  active : (t.pipe p).active = (s.pipe p).active
  took : (queues (s.pipe p)).Perm (l ++ queues (t.pipe p))

theorem Takes.refl (p : Nat) (s : State) : Takes p [] s s := ⟨.refl p s, rfl, .rfl⟩

theorem Takes.one {p : Nat} {l : List Packet} {s₀ s : State} {x : Packet} {v : PipeState} (h : Takes p l s₀ s)
    (hq : (queues (s.pipe p)).Perm (x :: queues v)) (ha : v.active = (s.pipe p).active) :
    Takes p (l ++ [x]) s₀ (s.putPipe p v) := by
  refine ⟨h.toRepiped.trans (repiped_putPipe p s v), ?_, ?_⟩ <;> rw [State.pipe_putPipe_same]
  · exact ha.trans h.active
  · rw [List.append_assoc]
    exact h.took.trans (hq.append_left l)

theorem queues_of_qRx {q : PipeState} {x : Packet} {rest : List Packet} (h : q.qRx = x :: rest) :
    (queues q).Perm (x :: queues { q with qRx := rest }) := by
  simp only [queues, h]
  exact .rfl

theorem queues_of_qPgen {q : PipeState} {x : Packet} {rest : List Packet} (h : q.qPgen = x :: rest) :
    (queues q).Perm (x :: queues { q with qPgen := rest }) := by
  simp only [queues, h]
  exact List.perm_middle.append_right _

theorem queues_of_qTm {q : PipeState} {x : Packet} {rest : List Packet} (h : q.qTm = x :: rest) :
    (queues q).Perm (x :: queues { q with qTm := rest }) := by
  simp only [queues, h]
  exact List.perm_middle

section
variable {p : Nat} {l : List Packet} {s₀ : State}

theorem triple_selectInput :
    Triple (Takes p l s₀) (selectInput p) (fun o => Takes p (l ++ o.toList) s₀) (fun _ => False) := by
  have nothing : Triple (Takes p l s₀) (pure none : M (Option Packet)) (fun o => Takes p (l ++ o.toList) s₀)
      (fun _ => False) := triple_pure fun s hs => by simpa using hs
  refine triple_look_bind fun s hs => ?_
  split
  · split
    · rintro _ rfl
      exact hs.one (queues_of_qPgen ‹_›) rfl
    · rintro _ rfl
      exact hs.one (queues_of_qRx ‹_›) rfl
    · exact fun t ht => nothing t (ht ▸ hs)
  · split
    · rintro _ rfl
      exact hs.one (queues_of_qRx ‹_›) rfl
    · rintro _ rfl
      exact hs.one (queues_of_qPgen ‹_›) rfl
    · exact fun t ht => nothing t (ht ▸ hs)

theorem triple_takeTm :
    Triple (Takes p l s₀) (takeTm p) (fun o => Takes p (l ++ o.toList) s₀) (fun _ => False) := by
  refine triple_look_bind fun s hs => ?_
  split
  · rintro _ rfl
    simpa using hs
  · rintro _ rfl
    exact hs.one (queues_of_qTm ‹_›) rfl

end

/-- The pipe is claimed: it was free and is active, and the held packets are those taken out of its queues (R439). -/
structure Claimed (p : Nat) (h : Held) (s t : State) : Prop extends Repiped p s t where
  pipe : h.pipe = p
  free : (s.pipe p).active = false
  active : (t.pipe p).active = true
  took : (queues (s.pipe p)).Perm (heldPackets (some h) ++ queues (t.pipe p))

theorem triple_dequeue (p : Nat) (s : State) : Triple (fun u => u = s) (dequeue p)
    (fun o t => (o = none ∧ t = s) ∨ ∃ h, o = some h ∧ Claimed p h s t) (fun _ => False) := by
  refine triple_look_bind ?_
  rintro s rfl
  split
  · exact triple_pure fun t ht => .inl ⟨rfl, ht⟩
  · rename_i hfree
    have free : (s.pipe p).active = false := by
      rw [Bool.or_eq_true, not_or] at hfree
      simpa using hfree.1
    let marked := s.putPipe p { s.pipe p with active := true }
    have claimed {l : List Packet} {t : State} (h : Held) (hp : h.pipe = p) (hl : heldPackets (some h) = l)
        (ht : Takes p l marked t) : Claimed p h s t := by
      have hm : marked.pipe p = { s.pipe p with active := true } := State.pipe_putPipe_same s p _
      refine ⟨(repiped_putPipe p s _).trans ht.toRepiped, hp, free, ?_, ?_⟩
      · rw [ht.active, hm]
      · have := ht.took
        rw [hm] at this
        rw [hl]
        exact this
    have mark : Triple (fun u => u = s) (change fun s => s.putPipe p { s.pipe p with active := true })
        (fun _ => Takes p [] marked) (fun _ => False) := triple_change (by rintro _ rfl; exact .refl p _)
    refine mark.bind fun _ => triple_selectInput.bind fun o => triple_look_bind fun u hu => ?_
    split
    · rintro _ rfl
      exact .inr ⟨_, rfl, claimed _ rfl (by simp [heldPackets]) hu⟩
    · refine (triple_takeTm.bind fun tm => triple_pure fun t ht => ?_).at_state hu
      exact .inr ⟨_, rfl, claimed _ rfl (by simp [heldPackets]) ht⟩

end Sys2Proof.Machine
end

section
/-! SUPPORT. The steps of the workers: the scan, the release and the processing keep the books. -/

namespace Sys2Proof.Machine

/-! ### Steps that keep the books (R448 to R450) -/

/-- The launch record, the log and the fault are kept, and so are the claims and the books. -/
structure BookStep (s t : State) : Prop extends Kept s t where
  claims : ClaimsExclusive s → ClaimsExclusive t
  books : CoordBooks s → CoordBooks t

theorem BookStep.trans {a s t : State} (h : BookStep a s) (h' : BookStep s t) : BookStep a t :=
  ⟨h.toKept.trans h'.toKept, fun hc => h'.claims (h.claims hc), fun hb => h'.books (h.books hb)⟩

/-- No packet comes into the block or leaves it. -/
theorem bookStep_of_gains {s t : State} (hk : Kept s t) (hc : ClaimsExclusive s → ClaimsExclusive t)
    (hg : ClaimsExclusive s → Gains [] s t) : BookStep s t := by
  refine ⟨hk, hc, fun hb => ?_⟩
  obtain ⟨hs, hin⟩ := (coordBooks_iff s).1 hb
  exact (coordBooks_iff t).2 ⟨hc hs, hin.neutral (hg hs)⟩

theorem Neutral.bookStep {s t : State} (h : Neutral s t) : BookStep s t :=
  bookStep_of_gains h.toKept h.exclusive fun _ => h.gains

/-- However the sequence ends short of a refusal, the books are kept. -/
def KeepsBooks {α : Type} (m : M α) : Prop := ∀ s, Triple (fun u => u = s) m (fun _ => BookStep s) (BookStep s)

theorem Acts.keepsBooks {α : Type} {m : M α} (h : Acts Neutral m) : KeepsBooks m := fun s =>
  ((h s).at_state (.refl s)).weaken (fun _ h => h) (fun _ _ h => h.bookStep) fun _ h => h.1.bookStep

/-- A worker that scans claims a pipe (R438, R439). -/
theorem Claimed.exclusive {p w : Nat} {h : Held} {s t : State} (hcl : Claimed p h s t)
    (hw : (s.worker w).held = none) {v : Worker} (hv : v.held = some h) (hp : v.wstate = .processing)
    (hc : ClaimsExclusive s) : ClaimsExclusive (t.putWorker w v) := by
  obtain ⟨hactive, hone, hproc⟩ := hc
  have same : (t.putWorker w v).worker w = v := State.worker_putWorker_same t w v
  have other (w' : Nat) (hne : w' ≠ w) : (t.putWorker w v).worker w' = s.worker w' := by
    rw [State.worker_putWorker, if_neg hne, hcl.worker]
  have elsewhere (w' : Nat) (h' : Held) (hh : (s.worker w').held = some h') : h'.pipe ≠ p := fun e => by
    have := (hactive p).2 ⟨w', h', hh, e⟩
    rw [hcl.free] at this
    cases this
  refine ⟨fun p' => ?_, fun w₁ w₂ h₁ h₂ e₁ e₂ he => ?_, fun w' => ?_⟩
  · rw [State.pipe_putWorker]
    by_cases hpp : p' = p
    · rw [hpp]
      exact ⟨fun _ => ⟨w, h, by rw [same, hv], hcl.pipe⟩, fun _ => hcl.active⟩
    · rw [hcl.other p' hpp, hactive p']
      constructor
      · rintro ⟨w', h', hh, e⟩
        have hne : w' ≠ w := by
          rintro rfl
          rw [hw] at hh
          cases hh
        exact ⟨w', h', by rw [other w' hne, hh], e⟩
      · rintro ⟨w', h', hh, e⟩
        by_cases hne : w' = w
        · subst w'
          rw [same, hv] at hh
          cases hh
          exact absurd (e.symm.trans hcl.pipe) hpp
        · exact ⟨w', h', by rw [← other w' hne, hh], e⟩
  · by_cases n₁ : w₁ = w <;> by_cases n₂ : w₂ = w
    · rw [n₁, n₂]
    · rw [n₁, same, hv] at e₁
      rw [other w₂ n₂] at e₂
      cases e₁
      exact absurd (he.symm.trans hcl.pipe) (elsewhere w₂ h₂ e₂)
    · rw [n₂, same, hv] at e₂
      rw [other w₁ n₁] at e₁
      cases e₂
      exact absurd (he.trans hcl.pipe) (elsewhere w₁ h₁ e₁)
    · rw [other w₁ n₁] at e₁
      rw [other w₂ n₂] at e₂
      exact hone w₁ w₂ h₁ h₂ e₁ e₂ he
  · by_cases hne : w' = w
    · rw [hne, same, hv, hp]
      simp
    · rw [other w' hne]
      exact hproc w'

/-- The packets that leave the queues of a claimed pipe are in the hands of the worker. -/
theorem Claimed.gains {p w : Nat} {h : Held} {s t : State} (hcl : Claimed p h s t)
    (hp : p < s.params.numPipes) (hw : w < s.params.numWorkers) (hn : (s.worker w).held = none) {v : Worker}
    (hv : v.held = some h) : Gains [] s (t.putWorker w v) := by
  have params := hcl.kept.params
  have hand := putWorker_live (s := t) v (w := w) (by rw [params]; exact hw)
  rw [hcl.worker, hn, hv] at hand
  have pipes := hcl.live hp
  obtain ⟨⟨P, rfl⟩, -⟩ := hcl.toRepiped
  refine ⟨?_, rfl, fun _ h => h, fun h => h, fun h => h⟩
  have took := hcl.took
  rw [List.perm_iff_count] at hand pipes took ⊢
  intro x
  have h₁ := hand x
  have h₂ := pipes x
  have h₃ := took x
  simp only [List.count_append, heldPackets, List.count_nil] at h₁ h₂ h₃ ⊢
  omega

/-- A worker that scans and finds no pipe, or no `run`, does not process. -/
theorem neutral_leaveScan {s : State} {w : Nat} {v : Worker} (hs : (s.worker w).wstate = .scanning)
    (hh : v.held = (s.worker w).held) (hv : v.wstate ≠ .processing) : Neutral s (s.putWorker w v) :=
  neutral_putWorker hh (by simp [hs, hv])

theorem triple_scanPipes {s : State} {w : Nat} (hw : w < s.params.numWorkers)
    (hs : (s.worker w).wstate = .scanning) : ∀ ps, (∀ p ∈ ps, p < s.params.numPipes) →
    Triple (fun u => u = s) (scanPipes w ps) (fun _ => BookStep s) (fun _ => False)
  | [], _ => by
    have waits : Neutral s (s.putWorker w { s.worker w with wstate := .waiting, notified := false }) :=
      neutral_leaveScan hs rfl (by simp)
    refine triple_change ?_
    rintro s rfl
    refine (waits.trans ?_).bookStep
    exact neutral_setCoord rfl rfl rfl rfl rfl
  | p :: ps, hps => by
    refine (triple_dequeue p s).bind fun o => ?_
    rintro t (⟨rfl, rfl⟩ | ⟨h, rfl, hcl⟩)
    · exact triple_scanPipes hw hs ps (fun q hq => hps q (List.mem_cons_of_mem _ hq)) t rfl
    · have free (hc : ClaimsExclusive s) : (s.worker w).held = none := hc.held_eq_none (by simp [hs])
      refine bookStep_of_gains ?_ (fun hc => hcl.exclusive (free hc) rfl rfl hc)
        fun hc => hcl.gains (hps p List.mem_cons_self) hw (free hc) rfl
      exact hcl.kept.trans (.of_eq rfl rfl rfl)

/-- The scan visits pipes of the block. -/
theorem lt_of_mem_scanOrder {n last p : Nat} (h : p ∈ scanOrder n last) : p < n := by
  obtain ⟨k, hk, rfl⟩ := List.mem_map.1 h
  exact Nat.mod_lt _ (by have := List.mem_range.1 hk; omega)

/-- A step of worker `w` keeps the books, where the worker is one of the block's. -/
def WorkerKeeps (w : Nat) (m : M Unit) : Prop :=
  ∀ s, w < s.params.numWorkers → Triple (fun u => u = s) m (fun _ => BookStep s) (BookStep s)

theorem workerKeeps_scan (w : Nat) : WorkerKeeps w (workerScan w) := by
  intro s hw
  refine triple_look_bind ?_
  rintro s rfl
  split
  · rename_i hs
    split
    · exact (triple_scanPipes hw hs _ fun p => lt_of_mem_scanOrder).weaken (fun _ h => h) (fun _ _ h => h)
        fun _ h => h.elim
    · have stops : Neutral s (s.putWorker w { s.worker w with wstate := .stopped }) :=
        neutral_leaveScan hs rfl (by simp)
      refine triple_change ?_
      rintro s rfl
      exact stops.bookStep
  · refine triple_pure ?_
    rintro s rfl
    exact (Neutral.refl s).bookStep

/-! ### Release (R447) -/

/-- The worker that holds the pipe releases it. -/
theorem exclusive_release {s : State} {w p : Nat} (n : Nat) {h : Held} (hh : (s.worker w).held = some h)
    (hp : h.pipe = p) (hc : ClaimsExclusive s) : ClaimsExclusive (release w p n s) := by
  obtain ⟨hactive, hone, hproc⟩ := hc
  have worker (w' : Nat) : (release w p n s).worker w' =
      if w' = w then { s.worker w with held := none, wstate := .scanning } else s.worker w' :=
    State.worker_putWorker _ w w' _
  have pipe (p' : Nat) : (release w p n s).pipe p' =
      if p' = p then { s.pipe p with active := false } else s.pipe p' := State.pipe_putPipe _ p p' _
  refine ⟨fun p' => ?_, fun w₁ w₂ h₁ h₂ e₁ e₂ he => ?_, fun w' => ?_⟩
  · rw [pipe]
    constructor
    · intro ha
      have hpp : p' ≠ p := by
        rintro rfl
        simp at ha
      rw [if_neg hpp] at ha
      obtain ⟨w', h', hh', e⟩ := (hactive p').1 ha
      have hne : w' ≠ w := by
        rintro rfl
        rw [hh] at hh'
        cases hh'
        exact hpp (e.symm.trans hp)
      exact ⟨w', h', by rw [worker, if_neg hne, hh'], e⟩
    · rintro ⟨w', h', hh', e⟩
      rw [worker] at hh'
      split at hh'
      · cases hh'
      · rename_i hne
        have hpp : p' ≠ p := by
          rintro rfl
          exact hne (hone w' w h' h hh' hh (e.trans hp.symm))
        rw [if_neg hpp]
        exact (hactive p').2 ⟨w', h', hh', e⟩
  · rw [worker] at e₁ e₂
    split at e₁
    · cases e₁
    · split at e₂
      · cases e₂
      · exact hone w₁ w₂ h₁ h₂ e₁ e₂ he
  · rw [worker]
    split
    · simp
    · exact hproc w'

theorem kept_release (w p n : Nat) (s : State) : Kept s (release w p n s) := .of_eq rfl rfl rfl

/-- The packets that the worker held leave the block, and are counted off (R448). -/
theorem inHand_release {s : State} {w p : Nat} {h : Held} (hw : w < s.params.numWorkers)
    (hh : (s.worker w).held = some h) (hin : InHand (heldPackets (some h)) [] s) :
    InHand [] [] (release w p (heldPackets (some h)).length s) := by
  obtain ⟨rest, hperm, hnodup⟩ := hin.others
  let freed := packetsProcessed (heldPackets (some h)).length (s.putPipe p { s.pipe p with active := false })
  have freedLive : freed.livePackets = s.livePackets := by
    refine livePackets_congr rfl (fun p' => ?_) fun _ => rfl
    have pipe : freed.pipe p' = if p' = p then { s.pipe p with active := false } else s.pipe p' :=
      State.pipe_putPipe s p p' _
    rw [pipe]
    split
    · rename_i e
      rw [e]
      rfl
    · rfl
  have hand : ((release w p (heldPackets (some h)).length s).livePackets ++ heldPackets (some h)).Perm
      (freed.livePackets ++ []) := by
    rw [← hh]
    exact putWorker_live (s := freed) _ hw
  have live : (release w p (heldPackets (some h)).length s).livePackets.Perm rest := by
    rw [List.append_nil, freedLive] at hand
    refine (List.perm_append_left_iff (heldPackets (some h))).1 ?_
    exact List.perm_append_comm.trans (hand.trans hperm)
  refine ⟨⟨fun pkt hpkt => ?_, hin.bound, ?_⟩, by simp, rest, live, fun hr => hnodup hr⟩
  · exact hin.owned pkt (hperm.mem_iff.2 (List.mem_append_right _ (live.mem_iff.1 hpkt)))
  · have hc := hin.counted
    have pending : (release w p (heldPackets (some h)).length s).coord.pending
        = s.coord.pending - (heldPackets (some h)).length := rfl
    rw [PendingCounted] at hc ⊢
    rw [pending, live.length_eq, hc, hperm.length_eq, List.length_append]
    omega

/-- The packets that a worker of the block holds are among those of the block. -/
theorem heldPackets_sublist {s : State} {w : Nat} (hw : w < s.params.numWorkers) :
    (heldPackets (s.worker w).held).Sublist s.livePackets := by
  have mine := (List.singleton_sublist.2 (List.mem_range.2 hw)).flatMap fun w => heldPackets (s.worker w).held
  rw [List.flatMap_singleton] at mine
  exact mine.trans (List.sublist_append_right _ _)

theorem workerKeeps_process (w : Nat) : WorkerKeeps w (workerProcess w) := by
  intro s hw
  refine triple_look_bind ?_
  rintro s rfl
  split
  · rename_i h _ hh
    have start (hb : CoordBooks s) : InHand (heldPackets (some h)) ((heldPackets (some h)).map Packet.id) s := by
      refine ((coordBooks_iff s).1 hb).2.begin ?_
      rw [← hh]
      exact heldPackets_sublist hw
    refine triple_of_cases ?_ ?_
    · rintro u a t rfl e
      obtain ⟨n, u', hrun, hrel⟩ := (bind_eq_ok _).1 e
      cases hrel
      have calm : Calm u u' := (acts_processHeld _ _ u).ok (.refl u) hrun
      have held : (u'.worker w).held = some h := (calm.held w).trans hh
      have claims (hc : ClaimsExclusive u) : ClaimsExclusive (release w h.pipe n u') :=
        exclusive_release n held rfl (calm.exclusive hc)
      refine ⟨calm.toKept.trans (kept_release _ _ _ _), claims, fun hb => ?_⟩
      obtain ⟨rfl, hin⟩ := (triple_processHeld _ _).ok (start hb) hrun
      exact (coordBooks_iff _).2 ⟨claims ((coordBooks_iff u).1 hb).1,
        inHand_release (by rw [calm.params]; exact hw) held hin⟩
    · rintro u t rfl e
      rw [bind_apply] at e
      split at e
      · cases e
      · rename_i x u' hrun
        cases e
        have calm : Calm u t := ((acts_processHeld _ _ u).faulted (.refl u) hrun).1
        exact ⟨calm.toKept, calm.exclusive, fun hb =>
          ((triple_processHeld _ _).faulted (start hb) hrun).books (calm.exclusive ((coordBooks_iff u).1 hb).1)⟩
  · refine triple_pure ?_
    rintro s rfl
    exact (Neutral.refl s).bookStep

end Sys2Proof.Machine
end

section
/-! Every operation and every step: the launch record, the log, the first fault and the coordinator's books. -/

namespace Sys2Proof.Machine

/-! ### The outcomes of the operations -/

/-- What the operation keeps, run alone: the claims but for a claim without a worker, and the books but for the rows
that are parts of a coordinator's step (logs 30, 47). -/
structure RowKeeps (i : Instr) (s t : State) : Prop extends Kept s t where
  claims : (∀ p, i ≠ .coordDequeue p) → ClaimsExclusive s → ClaimsExclusive t
  books : opensBooks i = false → CoordBooks s → CoordBooks t

theorem BookStep.row {i : Instr} {s t : State} (h : BookStep s t) : RowKeeps i s t :=
  ⟨h.toKept, fun _ => h.claims, fun _ => h.books⟩

/-- A row that opens the books but touches no claim. -/
theorem Calm.row {i : Instr} {s t : State} (ho : opensBooks i = true) (h : Calm s t) : RowKeeps i s t :=
  ⟨h.toKept, fun _ => h.exclusive, fun hb => by rw [ho] at hb; cases hb⟩

theorem neutral_setResult (s : State) (r : Ret) : Neutral s (s.setResult r) :=
  Frame.neutral (Untouched.frame ⟨rfl, rfl, rfl, rfl⟩)

/-- What holds wherever the meaning of an operation ends holds after its step. -/
theorem outcome_triple {P : State → Prop} {m : M Ret} {s t : State} (h : Triple (fun u => u = s) m (fun _ => P) P)
    (hr : ∀ u r, P u → P (u.setResult r)) (e : outcome m s = .next t) : P t := by
  rcases outcome_eq_next.1 e with ⟨r, u, run, rfl⟩ | run
  · exact hr u r (h.ok rfl run)
  · exact h.faulted rfl run

theorem outcome_acts {R : State → State → Prop} (refl : ∀ s, R s s) (hr : ∀ a s r, R a s → R a (s.setResult r))
    {m : M Ret} (h : Acts R m) {s t : State} (e : outcome m s = .next t) : R s t :=
  outcome_triple (((h s).at_state (refl s)).weaken (fun _ h => h) (fun _ _ h => h) fun _ h => h.1) (hr s) e

theorem outcome_neutral {m : M Ret} (h : Acts Neutral m) {s t : State} (e : outcome m s = .next t) : Neutral s t :=
  outcome_acts .refl (fun _ s r h => h.trans (neutral_setResult s r)) h e

theorem outcome_calm {m : M Ret} (h : Acts Calm m) {s t : State} (e : outcome m s = .next t) : Calm s t :=
  outcome_acts .refl (fun _ s r h => h.trans (neutral_setResult s r).calm) h e

theorem outcome_bookStep {m : M Ret} (h : KeepsBooks m) {s t : State} (e : outcome m s = .next t) : BookStep s t :=
  outcome_triple (h s) (fun u r h => h.trans (neutral_setResult u r).bookStep) e

theorem Framed.row {m : M Ret} (h : Framed m) {i : Instr} {s t : State} (e : outcome m s = .next t) : RowKeeps i s t :=
  (outcome_neutral h.neutral e).bookStep.row

theorem answer_row (r : Ret) {i : Instr} {s t : State} (e : answer r s = .next t) : RowKeeps i s t :=
  Framed.row (acts_pure r) e

theorem answerWithin64_row {len : Nat} {r : Ret} {i : Instr} {s t : State} (e : answerWithin64 len r s = .next t) :
    RowKeeps i s t := by
  unfold answerWithin64 at e
  split at e
  · exact answer_row r e
  · cases e

/-! ### The host's commands -/

theorem setField_row {name : FieldName} {idx : List Nat} {part : Nat} {value : BitVec 64} {i : Instr} {s t : State}
    (e : execSetField name idx part value s = .next t) : RowKeeps i s t := by
  refine Framed.row (fun s₀ => triple_look_bind fun s hs => ?_) e
  split
  · rename_i s' h
    rintro s rfl
    exact hs.trans (untouched_setFieldOp h).frame
  · rintro s rfl
    exact hs

theorem setConfig_row {key value : String} {i : Instr} {s t : State} (e : execSetConfig key value s = .next t) :
    RowKeeps i s t := by
  refine Framed.row (acts_look_bind fun s => ?_) e
  split
  · exact acts_pure _
  · split
    · exact acts_pure _
    · exact framed_change_bind (fun _ => ⟨rfl, rfl, rfl, rfl⟩) fun _ => acts_pure _

theorem ramWrite_row {addr : RamAddr} {value : RamVal} {i : Instr} {s t : State}
    (e : execRamWrite addr value s = .next t) : RowKeeps i s t := by
  have word (w : Word) : Framed (memWrite addr w >>= fun _ => pure Ret.none) :=
    (framed_memWrite _ _).bind fun _ => acts_pure _
  have entry {f : State → State} (h : ∀ s, Untouched s (f s)) :
      Framed (entryInRange addr >>= fun ok =>
        if ok = true then change f >>= fun _ => pure Ret.none else pure Ret.none) :=
    (framed_entryInRange _).bind fun _ => .ite (framed_change_bind h fun _ => acts_pure _) (acts_pure _)
  refine Framed.row ?_ e
  split
  · exact word _
  · exact word _
  · exact word _
  · exact word _
  · exact entry fun _ => ⟨rfl, rfl, rfl, rfl⟩
  · exact entry fun _ => ⟨rfl, rfl, rfl, rfl⟩
  · exact acts_refuse _

theorem ramRead_row {addr : RamAddr} {i : Instr} {s t : State} (e : execRamRead addr s = .next t) :
    RowKeeps i s t := by
  refine Framed.row ?_ e
  split
  · exact (framed_entryInRange _).bind fun _ => acts_look _
  · exact (framed_entryInRange _).bind fun _ => acts_look _
  all_goals exact (framed_memRead _).bind fun _ => acts_pure _

theorem drainEvict_row {pipe stage alu : Nat} {i : Instr} {s t : State}
    (e : execDrainEvict pipe stage alu s = .next t) : RowKeeps i s t := by
  refine Framed.row (acts_look_bind fun s => .ite ?_ (acts_refuse _)) e
  split
  · exact acts_pure _
  · exact framed_change_bind (fun _ => ⟨rfl, rfl, rfl, rfl⟩) fun _ => acts_pure _

theorem opCreate_row {opcode : BitVec 4} {atype : AType} {table : TableId} {arg : BitVec 64} {queue : QueueSel}
    {i : Instr} {s t : State} (e : execOpCreate opcode atype table arg queue s = .next t) : RowKeeps i s t := by
  have queued (op : Op) (s : State) : Untouched s (enqueueOp queue op s) := by
    cases queue <;> exact ⟨rfl, rfl, rfl, rfl⟩
  refine Framed.row (acts_look_bind fun s => ?_) e
  split
  · exact acts_refuse _
  · exact .ite (framed_change_bind (queued _) fun _ => acts_pure _) (framed_raise_bind _ _ fun _ => acts_pure _)

/-- A command that puts packets into the block: no claim changes, and every packet it puts is placed. -/
theorem keepsBooks_of_calm {m : M Ret} (hc : Acts Calm m)
    (ht : Triple (InHand [] []) m (fun _ => InHand [] []) Stuck) : KeepsBooks m := by
  refine fun s => triple_of_cases ?_ ?_
  · rintro s r t rfl e
    have calm := (hc s).ok (.refl s) e
    refine ⟨calm.toKept, calm.exclusive, fun hb => ?_⟩
    obtain ⟨hcl, hin⟩ := (coordBooks_iff s).1 hb
    exact (coordBooks_iff t).2 ⟨calm.exclusive hcl, ht.ok hin e⟩
  · rintro s t rfl e
    have calm := ((hc s).faulted (.refl s) e).1
    refine ⟨calm.toKept, calm.exclusive, fun hb => ?_⟩
    obtain ⟨hcl, hin⟩ := (coordBooks_iff s).1 hb
    exact (ht.faulted hin e).books (calm.exclusive hcl)

theorem keepsBooks_handOver {pkt : Packet} {p : Nat} {push : State → State} (x : Packet) (hx : x.id = pkt.id)
    (hc : ∀ s, Calm s (push s)) (hg : ∀ s, p < s.params.numPipes → Gains [x] s (countOne (push s))) :
    KeepsBooks (handOver pkt p push) := by
  refine keepsBooks_of_calm ?_ ?_
  · exact acts_look_bind fun _ => .ite (acts_refuse _) <| .ite
      (.bind (acts_change_calm (calm_takeId _)) fun _ => .bind (acts_change_calm hc) fun _ =>
        acts_packetArrived.bind fun _ => acts_pure _)
      (.bind (acts_raise_calm _ _) fun _ => .bind (acts_change_calm (calm_takeId _)) fun _ => acts_pure _)
  · refine triple_look_bind fun s hs => ?_
    split
    · exact triple_refuse _
    · rename_i hnew
      have new : pkt.id ∉ s.coord.taken := by simpa [isTaken] using hnew
      split
      · rename_i hp
        rintro s rfl
        exact ((triple_arrive (x := x) hg).bind fun _ => triple_pure (a := Ret.none) fun _ h => h) (takeId pkt.id s)
          ⟨hp, by rw [hx]; exact hs.take new⟩
      · have raised : Triple (fun u => u = s) (raise none (.pipeRange pkt.port p))
            (fun _ u => InHand [] [] u ∧ pkt.id ∉ u.coord.taken) Stuck := by
          refine triple_of_cases ?_ ?_
          · rintro s a u rfl e
            have frame := (framed_raise none (.pipeRange pkt.port p) s).ok (.refl s) e
            exact ⟨hs.neutral frame.neutral.gains, by rw [frame.coord]; exact new⟩
          · rintro s u rfl e
            exact (framed_raise _ _).neutral.inHand.faulted hs e
        refine raised.bind fun _ => ?_
        rintro u ⟨hu, hn⟩
        exact (hu.take hn).drop

theorem enqueue_row {port : Nat} {bytes : List Byte} {i : Instr} {s t : State}
    (e : execEnqueue port bytes s = .next t) : RowKeeps i s t := by
  refine (outcome_bookStep (keepsBooks_of_calm ?_ ?_) e).row
  · exact acts_look_bind fun s => .ite
      (acts_freshId.bind fun id => .bind (acts_change_calm (calm_pushRx _ _)) fun _ =>
        acts_packetArrived.bind fun _ => acts_pure _)
      (.bind (acts_raise_calm _ _) fun _ => acts_pure _)
  · refine triple_look_bind fun s hs => ?_
    dsimp only
    split
    · rename_i hp
      let x : Packet := { bytes, port, pipe := pipeOfPort s.params port, kind := .rx, id := s.coord.nextId }
      rintro s rfl
      exact ((triple_arrive (x := x) fun _ => gains_pushRx _).bind fun _ => triple_pure (a := Ret.none) fun _ h => h)
        (takeId s.coord.nextId s) ⟨hp, triple_freshId s hs⟩
    · exact ((framed_raise _ _).neutral.inHand.at_state hs).bind fun _ => triple_pure fun _ h => h

theorem enqueuePkt_row {port : Nat} {pkt : Packet} {pgen : Bool} {i : Instr} {s t : State}
    (e : execEnqueuePkt port pkt pgen s = .next t) : RowKeeps i s t := by
  refine (outcome_bookStep (fun s => triple_look_bind ?_) e).row
  rintro s rfl
  let p := pipeOfPort s.params port
  exact .ite
    (keepsBooks_handOver { pkt with port := port, pipe := p, kind := .pgen } rfl (calm_pushPgen _ _)
      (fun _ => gains_pushPgen _) s)
    (keepsBooks_handOver { pkt with port := port, pipe := p, kind := .rx } rfl (calm_pushRx _ _)
      (fun _ => gains_pushRx _) s)

theorem enqueueResubmit_row {pkt : Packet} {i : Instr} {s t : State}
    (e : execEnqueueResubmit pkt s = .next t) : RowKeeps i s t := by
  refine (outcome_bookStep (fun s => triple_look_bind ?_) e).row
  rintro s rfl
  exact keepsBooks_handOver { pkt with pipe := pipeOfPort s.params pkt.port, kind := .resubmit } rfl (calm_pushTm _ _)
    (fun _ => gains_pushTm _) s

theorem enqueueFromTm_row {pkt : Packet} {pipe : Nat} {i : Instr} {s t : State}
    (e : execEnqueueFromTm pkt pipe s = .next t) : RowKeeps i s t :=
  (outcome_bookStep (keepsBooks_handOver { pkt with pipe := pipe, kind := .fromTm } rfl (calm_pushTm _ _)
    fun _ => gains_pushTm _) e).row

theorem waitForIdle_row {i : Instr} {s t : State} (e : execWaitForIdle s = .next t) : RowKeeps i s t := by
  refine (outcome_neutral (acts_look_bind fun _ => .ite (acts_pure _) (.bind (acts_change_neutral fun _ => ?_)
    fun _ => acts_pure _)) e).bookStep.row
  exact neutral_setCoord rfl rfl rfl rfl rfl

theorem stop_row {i : Instr} {s t : State} (e : execStop s = .next t) : RowKeeps i s t := by
  refine (outcome_neutral (.bind (acts_change_neutral fun _ => ?_) fun _ => acts_stopPoll) e).bookStep.row
  exact neutral_setCoord rfl rfl rfl rfl rfl

theorem start_row {i : Instr} {s t : State} (e : execStart s = .next t) : RowKeeps i s t := by
  refine (outcome_neutral (.bind (acts_change_neutral fun _ => ?_) fun _ =>
    .bind (acts_change_neutral fun _ => neutral_foldl neutral_startWorker _ _) fun _ => acts_pure _) e).bookStep.row
  exact neutral_setCoord rfl rfl rfl rfl rfl

/-! ### The coordinator's own operations -/

theorem acts_onWorker {α : Type} {R : State → State → Prop} {m : M α} (w : Nat) (h : Acts R m) :
    Acts R (onWorker w m) :=
  acts_look_bind fun _ => .ite h (acts_refuse _)

theorem acts_onPipe {α : Type} {R : State → State → Prop} {m : M α} (p : Nat) (h : Acts R m) : Acts R (onPipe p m) :=
  acts_look_bind fun _ => .ite h (acts_refuse _)

/-- A step of a worker of the block, as a row or by itself. -/
theorem WorkerKeeps.keepsBooks {w : Nat} {m : M Unit} (h : WorkerKeeps w m) {other : M Ret} (ho : Acts Neutral other) :
    KeepsBooks (look (fun s => s.params.numWorkers) >>= fun n =>
      if w < n then m >>= fun _ => pure .none else other) := by
  refine fun s => triple_look_bind ?_
  rintro s rfl
  split
  · rename_i hw
    exact (h s hw).bind fun _ => triple_pure fun _ h => h
  · exact ho.keepsBooks s

/-- The release of a pipe is a step of the worker that holds it (R447, R450). -/
theorem holds_of_mayTake_release {s : State} {w p n : Nat} (h : mayTake s (.coordRelease w p n) = true) :
    ∃ k, (s.worker w).held = some k ∧ k.pipe = p := by
  simp only [mayTake, rightTo, hasRight, holdsPipe, Bool.and_eq_true, beq_iff_eq] at h
  obtain ⟨holds, agent⟩ := h
  simp only [agent, Bool.and_eq_true, Option.any_eq_true, beq_iff_eq] at holds
  exact holds.2

theorem coordRelease_row {w p n : Nat} {s t : State} (hm : mayTake s (.coordRelease w p n) = true)
    (e : execCoordRelease w p n s = .next t) : RowKeeps (.coordRelease w p n) s t := by
  obtain ⟨k, hk, hp⟩ := holds_of_mayTake_release hm
  have released : Kept s t ∧ (ClaimsExclusive s → ClaimsExclusive t) := by
    refine outcome_triple (P := fun t => Kept s t ∧ (ClaimsExclusive s → ClaimsExclusive t)) ?_
      (fun u r h => ⟨h.1.trans (neutral_setResult u r).toKept, fun hc => (neutral_setResult u r).exclusive (h.2 hc)⟩) e
    refine triple_look_bind ?_
    rintro s rfl
    refine .ite (triple_look_bind ?_) (triple_refuse _)
    rintro s rfl
    refine .ite ?_ (triple_refuse _)
    rintro s rfl
    exact ⟨kept_release w p n s, exclusive_release n hk hp⟩
  exact ⟨released.1, fun _ => released.2, fun h => by cases h⟩

theorem kept_dequeue {p : Nat} {s t : State} (e : execCoordDequeue p s = .next t) : Kept s t := by
  refine outcome_triple (P := Kept s) ?_ (fun u r h => h.trans (neutral_setResult u r).toKept) e
  refine triple_look_bind ?_
  rintro s rfl
  refine .ite (((triple_dequeue p s).bind fun _ => ?_).weaken (fun _ h => h) (fun _ _ h => h) fun _ h => h.elim)
    (triple_refuse _)
  rintro t (⟨-, rfl⟩ | ⟨h, -, hcl⟩)
  · exact .refl t
  · exact hcl.kept

theorem coordSelectInput_row {p : Nat} {s t : State} (e : execCoordSelectInput p s = .next t) :
    RowKeeps (.coordSelectInput p) s t := by
  refine Calm.row rfl (outcome_triple (P := Calm s) ?_ (fun u r h => h.trans (neutral_setResult u r).calm) e)
  refine triple_look_bind ?_
  rintro s rfl
  refine .ite ?_ (triple_refuse _)
  refine (((triple_selectInput (l := []) (s₀ := s)).at_state (.refl p s)).bind fun _ => ?_).weaken (fun _ h => h)
    (fun _ _ h => h) fun _ h => h.elim
  exact fun t ht => ht.toRepiped.calm ht.active

/-! ### The rows of a stateful instruction -/

theorem framed_cmpRow (op : CmpOp) (c : CmpFields) : Framed (cmpRow op c) :=
  framed_atSalu fun _ _ _ => (framed_compareUnit _ _ _ _ _).bind fun _ => acts_pure _

theorem framed_arithRow (op : ArithOp) (u : AuFields) : Framed (arithRow op u) :=
  framed_atSalu fun _ _ _ => (framed_arithHalf _ _ _ _ _).bind fun _ => acts_pure _

theorem framed_logicRow (tt : Nat) (u : AuFields) : Framed (logicRow tt u) :=
  framed_atSalu fun _ _ _ => (framed_logicHalf _ _ _ _ _).bind fun _ => acts_pure _

theorem framed_outRow (sel : OutSel) (o : OutFields) : Framed (outRow sel o) :=
  framed_atSalu fun _ _ _ => (framed_outputSelect _ _ _ _ _).bind fun _ => acts_pure _

theorem framed_bitRow (op : BitOp) (m : MiscFields) : Framed (bitRow op m) :=
  framed_atSalu fun _ _ _ => (framed_miscOneBit _ _ _ _ _).bind fun _ => acts_pure _

/-! ### Every operation -/

/-- Every operation keeps the launch record, the log and the fault, and, but for the rows that are parts of a step of
the coordinator, the books. -/
theorem exec_keeps {i : Instr} {s t : State} (hm : mayTake s i = true) (h : exec i s = .next t) : RowKeeps i s t := by
  cases i with
  -- units of a stage
  | statsNop a | stats a | cfgRd a | cfgRdclr a => exact Framed.row (framed_statsOp _ a) h
  | statsDisabled rest => exact Framed.row (framed_atStats fun _ _ _ => acts_pure _) h
  | maNop a | maDisabled rest => exact Framed.row (framed_atSalu fun _ _ _ => acts_pure _) h
  | saluExec a =>
    refine Framed.row (framed_atSalu fun _ _ _ => acts_look_bind fun _ => ?_) h
    exact (framed_saluExecute _ _ _ _ _ _ _ _).bind fun _ => acts_pure _
  | selExec a =>
    refine Framed.row (framed_atSel fun _ _ _ => acts_look_bind fun _ => ?_) h
    exact (framed_selRun _ _ _ _ _ _).bind fun _ => acts_pure _
  | maCfgRd a => exact Framed.row (framed_atSalu fun _ _ _ => (framed_maRead _ _ _ _ _).bind fun _ => acts_pure _) h
  | cmpEq c | cmpNe c | cmpDisabled c | cmpGtS c | cmpGeS c | cmpLtS c | cmpLeS c | cmpGtU c | cmpGeU c | cmpLtU c
  | cmpLeU c | cmpGtUus c | cmpGeUus c | cmpLtUus c | cmpLeUus c => exact Framed.row (framed_cmpRow _ c) h
  | aNop u | aAdd u | aSub u | aSubr u | aSaddu u | aSadds u | aSsubu u | aSsubs u | aMinu u | aMins u | aMaxu u
  | aMaxs u | aAddc u | aSubc u => exact Framed.row (framed_arithRow _ u) h
  | lSetz u | lNor u | lAndca u | lNota u | lAndcb u | lNotb u | lXor u | lNand u | lAnd u | lXnor u | lB u | lOrca u
  | lA u | lOrcb u | lOr u | lSethi u => exact Framed.row (framed_logicRow _ u) h
  | oNone o | oRamLo o | oRamHi o | oPhvLo o | oPhvHi o | oAluLo o | oAluHi o | oPred o | oDiv o | oMod o | oMmValue o
  | oMmIndex o | oBitOld o => exact Framed.row (framed_outRow _ o) h
  | bitNop m | bitRead m | bitReadc m | bitSet m | bitSetc m | bitClr m | bitClrc m =>
    exact Framed.row (framed_bitRow _ m) h
  | modeDual m bitOp =>
    refine Framed.row (framed_atSalu fun _ _ _ => ?_) h
    exact (framed_miscDual _ _ _ _).bind fun _ => acts_look_bind fun _ => acts_pure _
  | modeMinmax m bitOp =>
    exact Framed.row (framed_atSalu fun _ _ _ => (framed_miscMinMax _ _ _ _).bind fun _ => acts_pure _) h
  | divMod d =>
    refine Framed.row (framed_atSalu fun _ _ _ => ?_) h
    exact (framed_setWidth _ _ _ _).bind fun _ => (framed_divide _ _ _ _ _).bind fun _ => acts_pure _
  | mmMin m | mmMax m =>
    exact Framed.row (framed_atSalu fun _ _ _ => (framed_minMax _ _ _ _ _).bind fun _ => acts_pure _) h
  | rowGetHashIndex col | rowHitAddress | rowAluData alu => exact Framed.row (framed_atRow fun _ _ _ => acts_look _) h
  | rowExactLookup col =>
    refine Framed.row (framed_atRow fun _ _ _ => ?_) h
    exact framed_lookupInMode _ _ _ _ _ (framed_exactLookup _ _ _ _)
  | rowTindLookup col =>
    refine Framed.row (framed_atRow fun _ _ _ => ?_) h
    exact framed_lookupInMode _ _ _ _ _ (framed_tindLookup _ _ _ _)
  | rowTernaryLookup lt =>
    exact Framed.row (framed_atRow fun _ _ _ => (framed_ternaryLookup _ _ _).bind fun _ => acts_look _) h
  | rowGatewayLookup =>
    exact Framed.row (framed_atRow fun _ _ _ => (framed_runGateway _ _ _).bind fun _ => acts_pure _) h
  | rowSetMatchOutputBus bus output col | rowSetTindOutputBus bus output col =>
    exact Framed.row (framed_busOp _ bus output col) h
  | rowResetResources =>
    refine Framed.row (framed_atRow fun _ _ _ => ?_) h
    exact framed_change_bind (fun _ => ⟨rfl, rfl, rfl, rfl⟩) fun _ => acts_pure _
  | selResilient pv hash52 | selPlanB pv hash52 => exact Framed.row (framed_atSel fun _ _ _ => acts_look _) h
  | selFair pv hash52 =>
    exact Framed.row (framed_atSel fun _ _ _ => (framed_fairIndex _ _ _ _ _).bind fun _ => acts_pure _) h
  | snapStep =>
    exact Framed.row (framed_atStage fun p st =>
      framed_change_bind (untouched_snapshotStep p st) fun _ => acts_pure _) h
  | snapFirstPass =>
    refine Framed.row (framed_atStage fun p st => ?_) h
    exact framed_change_bind (fun _ => ⟨rfl, rfl, rfl, rfl⟩) fun _ => acts_pure _
  | snapFinalizeSnapshot nextTable =>
    exact Framed.row (framed_atStage fun p st =>
      framed_change_bind (untouched_finalizeSnapshot p st nextTable) fun _ => acts_pure _) h
  | teopBusesAtHdrtime lt | teopBusesAtTeoptime lt =>
    refine Framed.row (framed_atStage fun p st => acts_look_bind fun _ => ?_) h
    exact framed_change_bind (fun _ => ⟨rfl, rfl, rfl, rfl⟩) fun _ => acts_pure _
  | teopDelayRequired lt bus => exact Framed.row (framed_atStage fun _ _ => acts_look _) h
  | teopOutputStatsAddr lt alu addr | teopOutputMeterAddr lt alu addr =>
    exact Framed.row (framed_atStage fun _ _ => (framed_outputAddr _ _ _ _ _ _).bind fun _ => acts_pure _) h
  | teopConsume => exact Framed.row (framed_atStage fun _ _ => (framed_consumeAll _ _).bind fun _ => acts_pure _) h
  | stageCycle p st =>
    refine Framed.row (acts_look_bind fun _ => .ite ?_ (acts_refuse _)) h
    exact (framed_stageCycle p st).bind fun _ => acts_pure _
  -- units that the sweeper path invokes too
  | statsDumpEntry word subword =>
    exact Framed.row (framed_atStats fun _ _ _ => (framed_dumpEntry _ _ _ _ _).bind fun _ => acts_pure _) h
  | statsLrtCheck a pkt byt =>
    refine Framed.row (framed_atStats fun _ _ _ => (framed_statsValidate _ _ _ _ _).bind fun fmt => ?_) h
    cases fmt
    · exact acts_pure _
    · exact (framed_lrt _ _ _ _ _ _ _).bind fun _ => acts_pure _
  | ctrPushFifo c | ctrPushStack c => exact Framed.row (framed_pointerOp c fun _ _ => framed_pushCtr _ _ _) h
  | ctrPopFifo c => exact Framed.row (framed_pointerOp c fun _ _ => framed_popFifo _ _ _) h
  | ctrPopStack c => exact Framed.row (framed_pointerOp c fun _ _ => framed_popStack _ _ _) h
  | ctrWatermark c pop =>
    exact Framed.row (framed_counterOp c fun _ _ => acts_look_bind fun _ => framed_putCtr _ _ _ _) h
  | ctrStartClearAt c t => exact Framed.row (framed_counterOp c fun _ _ => framed_startClearAt _ _ _ _) h
  | ctrClearStep c => exact Framed.row (framed_counterOp c fun _ _ => framed_clearStep _ _ _) h
  | ctrContinueClearTill c tStop =>
    exact Framed.row (framed_counterOp c fun _ _ => framed_continueClearTill _ _ _ _) h
  | ctrMaybeSynchronousClear c =>
    exact Framed.row (framed_counterOp c fun _ _ => framed_maybeSynchronousClear _ _ _) h
  -- the sweeper
  | intervalSet o | lock o | unlock o | sweep o | dump o | dumpWord o | evictWord o | barrier o =>
    exact Framed.row (framed_opRow _ o) h
  | swpIncLock t a =>
    refine Framed.row (framed_onTable _ ?_) h
    exact framed_change_bind (fun _ => ⟨rfl, rfl, rfl, rfl⟩) fun _ => acts_pure _
  | swpDecLock t a => exact Framed.row (framed_onTable _ ((framed_decLock t a).bind fun _ => acts_pure _)) h
  | swpLockWait t a => exact Framed.row (framed_onTable _ (acts_look _)) h
  | swpOpStartStop t a starts =>
    refine Framed.row (framed_onTable _ ?_) h
    exact framed_change_bind (fun _ => by cases starts <;> exact ⟨rfl, rfl, rfl, rfl⟩) fun _ => acts_pure _
  | swpIsLockedElseOpStart t a =>
    refine Framed.row (framed_onTable _ (acts_look_bind fun _ => .ite (acts_pure _) ?_)) h
    exact framed_change_bind (fun _ => ⟨rfl, rfl, rfl, rfl⟩) fun _ => acts_pure _
  | swpTimerTick =>
    refine Framed.row ?_ (show execSwpTimerTick s = .next t from h)
    exact framed_change_bind (fun _ => ⟨rfl, rfl, rfl, rfl⟩) fun _ => acts_pure _
  -- pure functions and the trap entry
  | bvGetWord n v off len | bvSetWord n v value off len => exact answerWithin64_row h
  | bvFromWords n words => exact answer_row _ h
  | bvTcamCompare n w0 w1 s0 s1 => exact answer_row _ h
  | bvSearchEncode n key => exact answer_row _ h
  | bvMaskedS0q1S1q0Equals n stored query m01 m10 => exact answer_row _ h
  | bvMaskedEquals n v w m => exact answer_row _ h
  | bvPopcountParity n v => exact answer_row _ h
  | bvByteShift n v k dir => exact answer_row _ h
  | bvExtractInto n src off m => exact answer_row _ h
  | bvSetFrom n dst off m src => exact answer_row _ h
  | fault rec => exact Framed.row (framed_takeFault rec) h
  -- host commands
  | enqueue port bytes => exact enqueue_row h
  | enqueuePkt port pkt pgen => exact enqueuePkt_row h
  | enqueueResubmit pkt => exact enqueueResubmit_row h
  | enqueueFromTm pkt pipe => exact enqueueFromTm_row h
  | waitForIdle => exact waitForIdle_row h
  | stop => exact stop_row h
  | start => exact start_row h
  | setField name idx part value => exact setField_row h
  | getField name idx part => exact Framed.row (acts_look _) (show execGetField name idx part s = .next t from h)
  | setConfig key value => exact setConfig_row h
  | ramWrite addr value => exact ramWrite_row h
  | ramRead addr => exact ramRead_row h
  | opCreate opcode atype table arg queue => exact opCreate_row h
  | drainEvict pipe stage alu => exact drainEvict_row h
  | snapSetState pipe stage gress sn =>
    refine Framed.row (acts_look_bind fun _ => .ite ?_ (acts_refuse _)) h
    exact framed_change_bind (fun _ => ⟨rfl, rfl, rfl, rfl⟩) fun _ => acts_pure _
  | irqAck source =>
    refine Framed.row ?_ (show execIrqAck source s = .next t from h)
    exact framed_change_bind (fun _ => ⟨rfl, rfl, rfl, rfl⟩) fun _ => acts_pure _
  | ctrStartClear pipe stage ctr =>
    refine Framed.row (acts_look_bind fun _ => .ite (framed_withCounter _ _ _ ?_) (acts_refuse _)) h
    exact (framed_startClearAt _ _ _ _).bind fun _ => acts_pure _
  -- the coordinator
  | coordWorkerScan w => exact (outcome_bookStep ((workerKeeps_scan w).keepsBooks (acts_refuse _)) h).row
  | coordWorkerProcess w => exact (outcome_bookStep ((workerKeeps_process w).keepsBooks (acts_refuse _)) h).row
  | coordDequeue p => exact ⟨kept_dequeue h, fun hp => absurd rfl (hp p), fun hb => by cases hb⟩
  | coordSelectInput p => exact coordSelectInput_row h
  | coordIngressActivation p pkt =>
    exact Calm.row rfl (outcome_calm (acts_onPipe p ((acts_ingressActivation p pkt).bind fun _ => acts_pure _)) h)
  | coordEgressActivation p pkt =>
    exact (outcome_neutral (acts_onPipe p ((acts_egressActivation p pkt).bind fun _ => acts_pure _)) h).bookStep.row
  | coordRelease w p n => exact coordRelease_row hm h
  | coordPacketArrived => exact Calm.row rfl (outcome_calm (acts_packetArrived.bind fun _ => acts_pure _) h)
  | coordWaitForPackets w =>
    exact (outcome_neutral (acts_onWorker w (.bind (acts_change_neutral (neutral_workerWake w)) fun _ => acts_pure _))
      h).bookStep.row
  | coordTransmit pkt =>
    exact (outcome_neutral (.bind (acts_change_neutral (neutral_transmit pkt)) fun _ => acts_pure _) h).bookStep.row

/-! ### Every step -/

theorem keepsBooks_autoMeaning (a : AutoStep) : KeepsBooks (autoMeaning a) := by
  have framed {m : M Ret} (h : Framed m) : KeepsBooks m := h.neutral.keepsBooks
  cases a with
  | workerScan w => exact (workerKeeps_scan w).keepsBooks (acts_pure _)
  | workerProcess w => exact (workerKeeps_process w).keepsBooks (acts_pure _)
  | workerWake w =>
    exact Acts.keepsBooks <| acts_look_bind fun _ =>
      .ite (.bind (acts_change_neutral (neutral_workerWake w)) fun _ => acts_pure _) (acts_pure _)
  | sweeperBegin => exact framed (framed_sweeperBegin.bind fun _ => acts_pure _)
  | sweeperFinish k => exact framed ((framed_sweeperFinish k).bind fun _ => acts_pure _)
  | lockComplete k => exact framed ((framed_lockComplete k).bind fun _ => acts_pure _)
  | timerTick => exact framed (framed_change_bind (fun _ => ⟨rfl, rfl, rfl, rfl⟩) fun _ => acts_pure _)
  | waitPoll k => exact (acts_waitPoll k).keepsBooks
  | stopPoll => exact acts_stopPoll.keepsBooks

theorem runAuto_keeps {a : AutoStep} {s t : State} (h : runAuto a s = .next t) : BookStep s t := by
  unfold runAuto at h
  split at h
  · cases h
  · exact outcome_bookStep (keepsBooks_autoMeaning a) h

theorem runInstr_keeps {i : Instr} {s t : State} (h : runInstr i s = .next t) : RowKeeps i s t := by
  unfold runInstr at h
  split at h
  · cases h
  split at h
  · cases h
  split at h
  · cases h
  · rename_i hm
    exact exec_keeps (by simpa using hm) h

/-- No encoded word selects a row that is a part of a coordinator's step (R124). -/
theorem opensBooks_of_decode {c : Coded} {i : Instr} (h : decode c = .ok i) : opensBooks i = false := by
  unfold decode at h
  split at h
  · cases h
  split at h
  all_goals
    simp only [decodeSa, decodeMa, decodeCmp, decodeAu, decodeOut, decodeMisc, decodeMiscDiv, decodeMm, decodeOp,
      decodeHc] at h
    repeat' split at h
  all_goals cases h <;> rfl

theorem runBody_keeps {b : LineBody} {s t : State} (h : runBody b s = .next t) :
    Kept s t ∧ ((∀ i, b = .instr i → opensBooks i = false) → CoordBooks s → CoordBooks t) ∧
      ((∀ p, b ≠ .instr (.coordDequeue p)) → ClaimsExclusive s → ClaimsExclusive t) := by
  cases b with
  | instr i =>
    have row := runInstr_keeps h
    exact ⟨row.toKept, fun ho => row.books (ho i rfl), fun hd => row.claims fun p e => hd p (congrArg _ e)⟩
  | auto a =>
    have entered : Neutral s (enterAuto a s) := Frame.neutral (Untouched.frame ⟨rfl, rfl, rfl, rfl⟩)
    have ran := entered.bookStep.trans (runAuto_keeps h)
    exact ⟨ran.toKept, fun _ => ran.books, fun _ => ran.claims⟩
  | coded c =>
    unfold runBody at h
    simp only at h
    split at h
    · rename_i i hd
      have row := runInstr_keeps h
      have closed := opensBooks_of_decode hd
      refine ⟨row.toKept, fun _ => row.books closed, fun _ => row.claims ?_⟩
      rintro p rfl
      cases closed
    · cases h

theorem neutral_enterLine (l : Line) (rest : List Line) (s : State) : Neutral s (enterLine l rest s) :=
  Frame.neutral (Untouched.frame ⟨rfl, rfl, rfl, rfl⟩)

/-- Settles O12, by one case split over the operations: the units leave the coordinator alone, and the coordinator's
own steps place each packet that they take. -/
theorem everyStepKeepsLaunchAndLog : Obligations.EveryStepKeepsLaunchAndLog := by
  intro s t h
  suffices keeps : Kept s t ∧
      (CoordBooks s → (∀ l rest i, s.agenda = l :: rest → l.body = .instr i → opensBooks i = false) → CoordBooks t) ∧
      (ClaimsExclusive s → (∀ l rest p, s.agenda = l :: rest → l.body ≠ .instr (.coordDequeue p)) →
        ClaimsExclusive t) by
    obtain ⟨⟨params, log, fault⟩, books, claims⟩ := keeps
    exact ⟨params, log, fault, books, claims⟩
  unfold step at h
  split at h
  · rename_i l rest hl
    have entered := neutral_enterLine l rest s
    obtain ⟨kept, books, claims⟩ := runBody_keeps h
    exact ⟨entered.toKept.trans kept, fun hb ho => books (fun i => ho l rest i hl) (entered.bookStep.books hb),
      fun hc hd => claims (fun p => hd l rest p hl) (entered.exclusive hc)⟩
  · have drawn : Neutral s (s.setDraws (s.draws + 1)) := Frame.neutral (Untouched.frame ⟨rfl, rfl, rfl, rfl⟩)
    obtain ⟨kept, books, claims⟩ := runBody_keeps h
    exact ⟨drawn.toKept.trans kept, fun hb _ => books (fun _ e => by cases e) (drawn.bookStep.books hb),
      fun hc _ => claims (fun _ e => by cases e) (drawn.exclusive hc)⟩

end Sys2Proof.Machine
end

section
/-! SUPPORT. What a step of a unit of a stage can do to the parts of the state that the invariants of the block speak
of: the configuration, the table controls and the interval masks stay, a RAM word is replaced by a write alone, and
every counter's flag byte stays legal. The stats ALU, the stateful ALU, the selector ALU. -/

namespace Sys2Proof.Machine

/-! ### What a unit's step leaves legal (R46, R70, R396, R417) -/

/-- The parts of the state that the invariants of the block speak of. -/
def judged (s : State) : Params × Store Nat × Memory × Store Counter × Store TableOpCtl × BitVec 32 × Store (BitVec 32) :=
  (s.params, s.cfg, s.mem, s.ctr.ctrs, s.swp.ctl, s.swp.maskGlobal, s.swp.maskStage)

/-- The update writes none of them. -/
abbrev Unjudged (s t : State) : Prop := judged t = judged s

/-- The flag byte is legal: "bits 7..4 are zero" (R46). -/
abbrev LegalFlags (v : Counter) : Prop := v.flags &&& 0xF0#8 = 0#8

/-- The memory stays canonical and the flag bytes stay legal. -/
structure Sound (s t : State) : Prop where
  memory : MemCanonical s → MemCanonical t
  flags : FlagBytesLegal s → FlagBytesLegal t

/-- What a step of a unit of a stage can do: the launch record, the configuration, the table controls and the interval
masks stay as they are. -/
structure UnitStep (s t : State) : Prop extends Sound s t where
  params : t.params = s.params
  cfg : t.cfg = s.cfg
  controls : t.swp.ctl = s.swp.ctl
  maskGlobal : t.swp.maskGlobal = s.swp.maskGlobal
  maskStage : t.swp.maskStage = s.swp.maskStage

theorem Sound.refl (s : State) : Sound s s := ⟨id, id⟩

theorem Sound.trans {a s t : State} (h : Sound a s) (h' : Sound s t) : Sound a t :=
  ⟨fun hm => h'.memory (h.memory hm), fun hf => h'.flags (h.flags hf)⟩

theorem flagBytesLegal_of_ctrs {s t : State} (h : t.ctr.ctrs = s.ctr.ctrs) (hs : FlagBytesLegal s) :
    FlagBytesLegal t := by
  intro p st c
  rw [State.counter, h]
  exact hs p st c

theorem sound_of_eq {s t : State} (hm : t.mem = s.mem) (hc : t.ctr.ctrs = s.ctr.ctrs) : Sound s t :=
  ⟨fun h => by rw [MemCanonical, hm]; exact h, flagBytesLegal_of_ctrs hc⟩

theorem flagBytesLegal_putCounter {s : State} {p st c : Nat} {v : Counter} (hs : FlagBytesLegal s)
    (hv : LegalFlags v) : FlagBytesLegal (s.putCounter p st c v) := by
  intro p' st' c'
  rw [State.counter_putCounter]
  split
  · exact hv
  · exact hs p' st' c'

theorem UnitStep.refl (s : State) : UnitStep s s := ⟨.refl s, rfl, rfl, rfl, rfl, rfl⟩

theorem UnitStep.trans {a s t : State} (h : UnitStep a s) (h' : UnitStep s t) : UnitStep a t :=
  ⟨h.toSound.trans h'.toSound, h'.params.trans h.params, h'.cfg.trans h.cfg, h'.controls.trans h.controls,
    h'.maskGlobal.trans h.maskGlobal, h'.maskStage.trans h.maskStage⟩

theorem Unjudged.unitStep {s t : State} (h : Unjudged s t) : UnitStep s t := by
  simp only [Unjudged, judged, Prod.mk.injEq] at h
  obtain ⟨hp, hcfg, hm, hc, hctl, hg, hst⟩ := h
  exact ⟨sound_of_eq hm hc, hp, hcfg, hctl, hg, hst⟩

theorem unitStep_write (s : State) (a : RamAddr) (w : Word) : UnitStep s (s.setMem (s.mem.write a w)) :=
  ⟨⟨Memory.wf_write a w, id⟩, rfl, rfl, rfl, rfl, rfl⟩

theorem unjudged_enterFault (s : State) (r : ErrRec) : Unjudged s (s.enterFault r) := by
  rw [State.enterFault_eq]
  rfl

/-- However the sequence ends short of a refusal, it is a step of a unit. -/
abbrev Confined {α : Type} (m : M α) : Prop := Acts UnitStep m

theorem confined_change {f : State → State} (h : ∀ s, Unjudged s (f s)) : Confined (change f) :=
  acts_change fun _ s hs => hs.trans (h s).unitStep

theorem confined_change_bind {α : Type} {f : State → State} {k : Unit → M α} (h : ∀ s, Unjudged s (f s))
    (hk : ∀ u, Confined (k u)) : Confined (change f >>= k) :=
  (confined_change h).bind hk

theorem confined_raise (place : Option (Nat × Nat)) (e : Err) : Confined (raise place e) := by
  intro s₀ s hs
  have logged : Unjudged s (s.logError (errRecord s place e)) := rfl
  have hl := hs.trans logged.unitStep
  cases hf : fatal s.strict e
  · rw [raise_of_relaxed place hf]
    exact hl
  · rw [raise_of_fatal place hf]
    exact ⟨hl.trans (unjudged_enterFault _ _).unitStep, not_running_enterFault _ _⟩

theorem confined_raise_bind {α : Type} {k : Unit → M α} (place : Option (Nat × Nat)) (e : Err)
    (hk : ∀ u, Confined (k u)) : Confined (raise place e >>= k) :=
  (confined_raise place e).bind hk

theorem confined_need {α : Type} (v : Option α) : Confined (need v) := by
  cases v
  · exact acts_refuse _
  · exact acts_pure _

theorem confined_drawIndex : Confined drawIndex := fun _ s hs =>
  have drawn : Unjudged s (s.setDraws (s.draws + 1)) := rfl
  hs.trans drawn.unitStep

/-! ### The RAM spaces -/

theorem confined_memRead (a : RamAddr) : Confined (memRead a) :=
  acts_look_bind fun _ => .ite (acts_pure _) (confined_raise_bind _ _ fun _ => acts_pure _)

theorem confined_memWrite (a : RamAddr) (w : Word) : Confined (memWrite a w) :=
  acts_look_bind fun _ => .ite (acts_change fun _ s hs => hs.trans (unitStep_write s a w)) (confined_raise _ _)

/-! ### Where an operation is addressed -/

theorem confined_atStats {α : Type} {f : Nat → Nat → Nat → M α} (h : ∀ p st a, Confined (f p st a)) :
    Confined (atStats f) :=
  acts_look_bind fun _ => .ite (h _ _ _) (acts_refuse _)

theorem confined_atSalu {α : Type} {f : Nat → Nat → Nat → M α} (h : ∀ p st a, Confined (f p st a)) :
    Confined (atSalu f) :=
  acts_look_bind fun _ => .ite (h _ _ _) (acts_refuse _)

theorem confined_atSel {α : Type} {f : Nat → Nat → Nat → M α} (h : ∀ p st a, Confined (f p st a)) :
    Confined (atSel f) :=
  acts_look_bind fun _ => .ite (h _ _ _) (acts_refuse _)

theorem confined_atRow {α : Type} {f : Nat → Nat → Nat → M α} (h : ∀ p st r, Confined (f p st r)) :
    Confined (atRow f) :=
  acts_look_bind fun _ => .ite (h _ _ _) (acts_refuse _)

theorem confined_atStage {α : Type} {f : Nat → Nat → M α} (h : ∀ p st, Confined (f p st)) : Confined (atStage f) :=
  acts_look_bind fun _ => .ite (h _ _) (acts_refuse _)

theorem confined_onTable {m : M Ret} (t : TableId) (h : Confined m) : Confined (onTable t m) :=
  acts_look_bind fun _ => .ite h (acts_refuse _)

theorem confined_withCounter {m : M Ret} (p st c : Nat) (h : Confined m) : Confined (withCounter p st c m) :=
  acts_look_bind fun _ => .ite h (confined_raise_bind _ _ fun _ => acts_pure _)

/-! ### The stats ALU -/

theorem confined_statsValidate (p st a sub : Nat) (sa : BitVec 24) : Confined (statsValidate p st a sub sa) :=
  acts_look_bind fun _ => .ite (confined_raise_bind _ _ fun _ => acts_pure _)
    (.ite (confined_raise_bind _ _ fun _ => acts_pure _) (acts_pure _))

theorem confined_lrt (p st a : Nat) (f : StatsFormat) (entry : BitVec 20) (pkt byt : Nat) :
    Confined (lrt p st a f entry pkt byt) :=
  acts_look_bind fun _ => .ite (confined_change_bind (fun _ => rfl) fun _ => acts_pure _) (acts_pure _)

theorem confined_statsCount (p st a : Nat) (f : StatsFormat) (sa : SaFields) (word : Word) (pktlen : Nat) :
    Confined (statsCount p st a f sa word pktlen) := by
  refine acts_look_bind fun s => ?_
  have shadow : Confined (if s.flag .fullResEnable [p, st, a] then
      change (shadowUpdate p st a sa.word.toNat sa.subword.toNat
        (byteIncrement (s.field .byteAdjust [p, st, a]) pktlen)) else pure ()) :=
    .ite (confined_change fun _ => rfl) (acts_pure _)
  exact .ite ((confined_lrt _ _ _ _ _ _ _).bind fun _ => (confined_memWrite _ _).bind fun _ => shadow) shadow

theorem confined_readData (p st : Nat) (kind : AluKind) (a : Nat) (w : Word) : Confined (readData p st kind a w) :=
  confined_change_bind (fun _ => rfl) fun _ => acts_pure _

theorem confined_statsClear (p st a : Nat) (f : StatsFormat) (sa : SaFields) (word : Word) :
    Confined (statsClear p st a f sa word) :=
  .ite (confined_memWrite _ _) (acts_pure _)

theorem confined_statsRun (p st a : Nat) (op : StatsOp) (sa : SaFields) (pktlen : Nat) :
    Confined (statsRun p st a op sa pktlen) := by
  cases op
  case nop => exact acts_pure _
  all_goals
    refine (confined_statsValidate _ _ _ _ _).bind fun fmt => ?_
    cases fmt
    case none => exact acts_pure _
    refine (confined_memRead _).bind fun word => ?_
  case stats => exact (confined_statsCount _ _ _ _ _ _ _).bind fun _ => acts_pure _
  case cfgRd => exact confined_readData _ _ _ _ _
  case cfgRdclr => exact (confined_statsClear _ _ _ _ _ _).bind fun _ => confined_readData _ _ _ _ _

theorem confined_statsAddress (p st a : Nat) (raw : BitVec 24) (pktlen : Nat) :
    Confined (statsAddress p st a raw pktlen) := by
  unfold statsAddress
  split
  · exact acts_refuse _
  · exact confined_statsRun _ _ _ _ _ _

theorem confined_entryRead (p st a word k : Nat) : Confined (entryRead p st a word k) := by
  refine (confined_statsValidate _ _ _ _ _).bind fun fmt => ?_
  cases fmt
  · exact acts_pure _
  · exact (confined_memRead _).bind fun _ => acts_pure _

theorem confined_dumpEntry (p st a word k : Nat) : Confined (dumpEntry p st a word k) := by
  refine (confined_entryRead _ _ _ _ _).bind fun r => ?_
  rcases r with _ | ⟨f, w⟩ <;> exact acts_pure _

theorem confined_evictEntry (p st a word k : Nat) : Confined (evictEntry p st a word k) := by
  refine (confined_entryRead _ _ _ _ _).bind fun r => ?_
  rcases r with _ | ⟨f, w⟩
  · exact acts_pure _
  · exact .ite ((confined_memWrite _ _).bind fun _ => acts_pure _) (acts_pure _)

theorem confined_sweepEntry (p st a word k : Nat) : Confined (sweepEntry p st a word k) := by
  refine (confined_entryRead _ _ _ _ _).bind fun r => ?_
  rcases r with _ | ⟨f, w⟩
  · exact acts_pure _
  · exact acts_look_bind fun _ => .ite
      (confined_change_bind (fun _ => rfl) fun _ => confined_memWrite _ _) (acts_pure _)

theorem confined_statsOp (op : StatsOp) (sa : SaFields) : Confined (statsOp op sa) :=
  confined_atStats fun _ _ _ => acts_look_bind fun _ => (confined_statsRun _ _ _ _ _ _).bind fun _ => acts_pure _

/-! ### The stateful ALU -/

theorem confined_putRun (p st a : Nat) (r : SaluRun) : Confined (putRun p st a r) :=
  confined_change fun _ => rfl

/-- Many units end by replacing the execution in progress and answering. -/
theorem confined_putRun_pure {α : Type} (p st a : Nat) (r : SaluRun) (x : α) :
    Confined (putRun p st a r >>= fun _ => pure x) :=
  (confined_putRun p st a r).bind fun _ => acts_pure x

theorem confined_compareUnit (p st a : Nat) (op : CmpOp) (c : CmpFields) : Confined (compareUnit p st a op c) :=
  acts_look_bind fun _ => (confined_need _).bind fun _ => confined_putRun_pure _ _ _ _ _

theorem confined_pairedCarry (p st a : Nat) (op : ArithOp) (half : Half) (r : SaluRun) :
    Confined (pairedCarry p st a op half r) :=
  .ite (acts_pure _) (confined_raise_bind _ _ fun _ => acts_pure _)

theorem confined_arithUnit (p st a : Nat) (op : ArithOp) (half : Half) (r : SaluRun) (x y : Nat) :
    Confined (arithUnit p st a op half r x y) := by
  cases op
  case addc | subc =>
    exact acts_look_bind fun _ => .ite (acts_refuse _)
      ((confined_pairedCarry _ _ _ _ _ _).bind fun _ => confined_putRun_pure _ _ _ _ _)
  all_goals exact confined_putRun_pure _ _ _ _ _

theorem confined_idleUnit (p st a : Nat) (half : Half) (r : SaluRun) : Confined (idleUnit p st a half r) :=
  confined_putRun_pure _ _ _ _ _

theorem confined_arithHalf (p st a : Nat) (op : ArithOp) (u : AuFields) : Confined (arithHalf p st a op u) :=
  acts_look_bind fun _ => .ite
    ((confined_need _).bind fun _ => (confined_need _).bind fun _ => confined_arithUnit _ _ _ _ _ _ _ _)
    (confined_idleUnit _ _ _ _ _)

theorem confined_logicHalf (p st a tt : Nat) (u : AuFields) : Confined (logicHalf p st a tt u) :=
  acts_look_bind fun _ => .ite
    ((confined_need _).bind fun _ => (confined_need _).bind fun _ => confined_putRun_pure _ _ _ _ _)
    (confined_idleUnit _ _ _ _ _)

theorem confined_unitOfWord (p st a : Nat) (half : Half) (w : Nat) : Confined (unitOfWord p st a half w) := by
  refine .ite ?_ (confined_logicHalf _ _ _ _ _)
  split
  · exact confined_arithHalf _ _ _ _ _
  · exact acts_look_bind fun _ => .ite (acts_refuse _) (confined_idleUnit _ _ _ _ _)

theorem confined_oneBit (p st a : Nat) (op : BitOp) : Confined (oneBit p st a op) :=
  acts_look_bind fun _ => confined_putRun_pure _ _ _ _ _

theorem confined_divide (p st a : Nat) (srcA srcB : BitVec 3) : Confined (divide p st a srcA srcB) :=
  acts_look_bind fun _ => (confined_need _).bind fun _ => (confined_need _).bind fun _ =>
    confined_putRun_pure _ _ _ _ _

theorem confined_minMax (p st a : Nat) (isMax : Bool) (c : MmFields) : Confined (minMax p st a isMax c) := by
  refine acts_look_bind fun r => ?_
  split
  · exact confined_putRun_pure _ _ _ _ _
  · exact (confined_need _).bind fun _ => confined_putRun_pure _ _ _ _ _

theorem confined_minMaxConfigured (p st a : Nat) : Confined (minMaxConfigured p st a) :=
  acts_look_bind fun _ => .ite (acts_refuse _) (confined_minMax _ _ _ _ _)

theorem confined_outputSelect (p st a : Nat) (sel : OutSel) (o : OutFields) : Confined (outputSelect p st a sel o) := by
  refine acts_look_bind fun r => .bind (.ite ?_ (acts_pure _)) fun _ => confined_putRun_pure _ _ _ _ _
  split
  · exact acts_pure _
  · exact confined_raise_bind _ _ fun _ => acts_pure _

theorem confined_setWidth (p st a : Nat) (m : MiscFields) : Confined (setWidth p st a m) :=
  (confined_need _).bind fun _ => acts_look_bind fun _ => confined_putRun _ _ _ _

theorem confined_divideIfEnabled (p st a : Nat) (m : MiscFields) : Confined (divideIfEnabled p st a m) :=
  .ite ((confined_divide _ _ _ _ _).bind fun _ => acts_pure _) (acts_pure _)

theorem confined_dualUnits (p st a : Nat) : Confined (dualUnits p st a) :=
  acts_look_bind fun _ => (confined_putRun _ _ _ _).bind fun _ => (confined_unitOfWord _ _ _ _ _).bind fun _ =>
    (confined_unitOfWord _ _ _ _ _).bind fun _ => acts_pure _

theorem confined_miscDual (p st a : Nat) (m : MiscFields) : Confined (miscDual p st a m) :=
  (confined_setWidth _ _ _ _).bind fun _ => (confined_dualUnits _ _ _).bind fun _ => confined_divideIfEnabled _ _ _ _

theorem confined_miscOneBit (p st a : Nat) (m : MiscFields) (op : BitOp) : Confined (miscOneBit p st a m op) :=
  (confined_setWidth _ _ _ _).bind fun _ => (confined_oneBit _ _ _ _).bind fun _ =>
    (confined_divideIfEnabled _ _ _ _).bind fun _ => acts_pure _

theorem confined_miscMinMax (p st a : Nat) (m : MiscFields) : Confined (miscMinMax p st a m) :=
  (confined_setWidth _ _ _ _).bind fun _ => (confined_minMaxConfigured _ _ _).bind fun _ =>
    (confined_divideIfEnabled _ _ _ _).bind fun _ => acts_pure _

theorem confined_miscOfWord (p st a w : Nat) : Confined (miscOfWord p st a w) := by
  refine (confined_need _).bind fun mode => ?_
  cases mode
  case dual => exact confined_miscDual _ _ _ _
  case onebit => exact (confined_need _).bind fun _ => (confined_miscOneBit _ _ _ _ _).bind fun _ => acts_pure _
  case minmax => exact (confined_miscMinMax _ _ _ _).bind fun _ => acts_pure _

theorem confined_compareOfWord (p st a : Nat) (unit : CmpUnit) (w : Nat) : Confined (compareOfWord p st a unit w) :=
  (confined_need _).bind fun _ => (confined_compareUnit _ _ _ _ _).bind fun _ => acts_pure _

theorem confined_outputOfWord (p st a w : Nat) : Confined (outputOfWord p st a w) := by
  refine acts_look_bind fun r => ?_
  split
  · exact confined_outputSelect _ _ _ _ _
  · exact .ite (acts_refuse _) (confined_outputSelect _ _ _ _ _)

theorem confined_saluExecute (p st a : Nat) (ma : MaFields) (data : Word) (t : Nat) (s0 s1 : Bool) :
    Confined (saluExecute p st a ma data t s0 s1) :=
  acts_look_bind fun _ => .ite (acts_refuse _) <|
    (confined_need _).bind fun _ =>
    confined_change_bind (fun _ => rfl) fun _ =>
    (confined_memRead _).bind fun _ =>
    (confined_putRun _ _ _ _).bind fun _ =>
    (confined_compareOfWord _ _ _ _ _).bind fun _ =>
    (confined_compareOfWord _ _ _ _ _).bind fun _ =>
    (confined_miscOfWord _ _ _ _).bind fun _ =>
    (confined_outputOfWord _ _ _ _).bind fun _ =>
    acts_look_bind fun _ =>
    (confined_memWrite _ _).bind fun _ =>
    confined_change_bind (fun _ => rfl) fun _ => acts_pure _

theorem confined_maRead (p st : Nat) (kind : AluKind) (a : Nat) (ma : MaFields) : Confined (maRead p st kind a ma) :=
  (confined_memRead _).bind fun _ => confined_readData _ _ _ _ _

/-! ### The selector ALU -/

theorem confined_fairIndex (p st a pv hash52 : Nat) : Confined (fairIndex p st a pv hash52) := by
  have answer (n : Nat) (sel : Nat) (m : M Nat) (h : Confined m) :
      Confined (if n = 0 then pure noMember else if sel < 3 then m else refuse (.illegalConfig .fairBucketSel)) :=
    .ite (acts_pure _) (.ite h (acts_refuse _))
  exact acts_look_bind fun _ => .ite (confined_raise_bind _ _ fun _ => answer _ _ _ (acts_pure _))
    (answer _ _ _ (acts_pure _))

theorem confined_selectMember (p st a pv hash52 : Nat) : Confined (selectMember p st a pv hash52) :=
  acts_look_bind fun _ => .ite (.ite (acts_pure _) (acts_pure _)) (confined_fairIndex _ _ _ _ _)

theorem confined_selRun (p st a : Nat) (ma : MaFields) (data : Word) (t : Nat) : Confined (selRun p st a ma data t) :=
  (confined_memRead _).bind fun _ => acts_look_bind fun _ =>
    confined_change_bind (fun _ => rfl) fun _ =>
    (confined_selectMember _ _ _ _ _).bind fun _ => acts_pure _

end Sys2Proof.Machine
end

section
/-! SUPPORT. The counters: what a step does to a flag byte keeps it legal. -/

namespace Sys2Proof.Machine

/-! ### The flag byte (R46, R350) -/

theorem legalFlags_or {v : Counter} {bit : BitVec 8} (h : LegalFlags v) (hb : bit &&& 0xF0#8 = 0#8) :
    LegalFlags { v with flags := v.flags ||| bit } := by
  have distrib : (v.flags ||| bit) &&& 0xF0#8 = (v.flags &&& 0xF0#8) ||| (bit &&& 0xF0#8) := by
    ext i
    simp [Bool.and_or_distrib_right]
  rw [LegalFlags, distrib, h, hb, BitVec.or_zero]

theorem legalFlags_and {v : Counter} (mask : BitVec 8) (h : LegalFlags v) :
    LegalFlags { v with flags := v.flags &&& mask } := by
  rw [LegalFlags, BitVec.and_assoc, BitVec.and_comm mask, ← BitVec.and_assoc, h, BitVec.zero_and]

/-- The watermark writes no flag (R342). -/
theorem watermarkStep_flags (s : State) (p st c : Nat) (pop : Bool) (v : Counter) :
    (watermarkStep s p st c pop v).flags = v.flags := by
  unfold watermarkStep
  split
  · rfl
  · split <;> rfl

theorem legalFlags_watermarkStep (s : State) (p st c : Nat) (pop : Bool) {v w : Counter} (h : LegalFlags v)
    (hw : w.flags = v.flags) : LegalFlags (watermarkStep s p st c pop w) := by
  rw [LegalFlags, watermarkStep_flags, hw, h]

theorem legalFlags_emptied (b : Bounds) {v : Counter} (h : LegalFlags v) : LegalFlags (emptied b v) :=
  legalFlags_or (legalFlags_and (~~~flStartPending) h) rfl

/-! ### A counter that is read and written back -/

/-- A continuation of a step of a unit that began in `s₀`. -/
abbrev ConfinedFrom {α : Type} (s₀ : State) (m : M α) : Prop :=
  Triple (UnitStep s₀) m (fun _ => UnitStep s₀) (fun t => UnitStep s₀ t ∧ ¬ Running t)

/-- The counter's flag byte is legal where all of them were at the beginning of the step. -/
abbrev LegalFrom (s₀ : State) (v : Counter) : Prop := FlagBytesLegal s₀ → LegalFlags v

section
variable {α : Type} {s₀ : State} {p st c : Nat} {v : Counter}

theorem confined_counterOf_bind {k : Counter → M α} (h : ∀ s₀ v, LegalFrom s₀ v → ConfinedFrom s₀ (k v)) :
    Confined (counterOf p st c >>= k) :=
  fun s₀ s hs => h s₀ _ (fun hf => hs.flags hf p st c) s hs

theorem confinedFrom_putCtr (h : LegalFrom s₀ v) : ConfinedFrom s₀ (putCtr p st c v) :=
  triple_change fun _ hs =>
    ⟨⟨hs.memory, fun hf => flagBytesLegal_putCounter (hs.flags hf) (h hf)⟩, hs.params, hs.cfg, hs.controls,
      hs.maskGlobal, hs.maskStage⟩

theorem confinedFrom_putCtr_pure (h : LegalFrom s₀ v) (x : α) :
    ConfinedFrom s₀ (putCtr p st c v >>= fun _ => pure x) :=
  (confinedFrom_putCtr h).bind fun _ => acts_pure x s₀

theorem confinedFrom_putCtr_bind {k : Unit → M α} (h : LegalFrom s₀ v) (hk : ∀ u, ConfinedFrom s₀ (k u)) :
    ConfinedFrom s₀ (putCtr p st c v >>= k) :=
  (confinedFrom_putCtr h).bind hk

theorem confinedFrom_look_bind {β : Type} {f : State → β} {k : β → M α} (hk : ∀ b, ConfinedFrom s₀ (k b)) :
    ConfinedFrom s₀ (look f >>= k) :=
  fun s hs => hk (f s) s hs

end

/-! ### Push and pop (R336 to R339) -/

theorem confined_readBounds (p st c : Nat) : Confined (readBounds p st c) :=
  acts_look_bind fun _ => .ite (acts_pure _) (acts_refuse _)

theorem confined_pushCtr (p st c : Nat) : Confined (pushCtr p st c) :=
  (confined_readBounds _ _ _).bind fun _ => confined_counterOf_bind fun _ _ hv =>
    .ite (confinedFrom_putCtr_pure (fun hf => legalFlags_or (hv hf) rfl) _) <|
      confinedFrom_look_bind fun _ =>
        confinedFrom_putCtr_pure (fun hf => legalFlags_watermarkStep _ _ _ _ _ (hv hf) (by rfl)) _

theorem confined_popFifo (p st c : Nat) : Confined (popFifo p st c) :=
  confined_counterOf_bind fun s₀ _ hv =>
    .ite (confinedFrom_putCtr_pure (fun hf => legalFlags_or (hv hf) rfl) _) <|
      (confined_readBounds _ _ _ s₀).bind fun _ => confinedFrom_look_bind fun _ =>
        confinedFrom_putCtr_pure (fun hf => legalFlags_watermarkStep _ _ _ _ _ (hv hf) (by rfl)) _

theorem confined_popStack (p st c : Nat) : Confined (popStack p st c) :=
  confined_counterOf_bind fun s₀ _ hv =>
    .ite (confinedFrom_putCtr_pure (fun hf => legalFlags_or (hv hf) rfl) _) <|
      (confined_readBounds _ _ _ s₀).bind fun _ => confinedFrom_look_bind fun _ =>
        confinedFrom_putCtr_pure (fun hf => legalFlags_watermarkStep _ _ _ _ _ (hv hf) (by rfl)) _

/-! ### The clear sweep (R343 to R349) -/

theorem confined_clearStep (p st c : Nat) : Confined (clearStep p st c) := by
  refine (confined_readBounds _ _ _).bind fun b => confined_counterOf_bind fun s₀ v hv => ?_
  have started : LegalFrom s₀ (if hasFlag v.flags flStartPending then emptied b v else v) := fun hf => by
    split
    · exact legalFlags_emptied b (hv hf)
    · exact hv hf
  exact confinedFrom_putCtr_bind started fun _ => (confined_memRead _ s₀).bind fun _ =>
    (confined_memWrite _ _ s₀).bind fun _ =>
    .ite (confinedFrom_putCtr fun hf => legalFlags_and _ (started hf)) (confinedFrom_putCtr started)

theorem confined_clearTillLoop (p st c tStop : Nat) : ∀ n, Confined (clearTillLoop p st c tStop n)
  | 0 => acts_pure _
  | n + 1 => acts_look_bind fun _ => .ite
    ((confined_clearStep _ _ _).bind fun _ => confined_counterOf_bind fun s₀ _ hv => confinedFrom_look_bind fun _ =>
      confinedFrom_putCtr_bind hv fun _ => confined_clearTillLoop p st c tStop n s₀)
    (acts_pure _)

theorem confined_clearAllLoop (p st c : Nat) : ∀ n, Confined (clearAllLoop p st c n)
  | 0 => acts_pure _
  | n + 1 => acts_look_bind fun _ =>
    .ite ((confined_clearStep _ _ _).bind fun _ => confined_clearAllLoop p st c n) (acts_pure _)

theorem confined_continueClearTill (p st c tStop : Nat) : Confined (continueClearTill p st c tStop) :=
  confined_change_bind (fun _ => rfl) fun _ => acts_look_bind fun _ =>
    (confined_clearTillLoop _ _ _ _ _).bind fun _ => confined_change fun _ => rfl

theorem confined_maybeSynchronousClear (p st c : Nat) : Confined (maybeSynchronousClear p st c) :=
  acts_look_bind fun _ => .ite
    (confined_change_bind (fun _ => rfl) fun _ =>
      (confined_clearAllLoop _ _ _ _).bind fun _ => confined_change fun _ => rfl)
    (acts_pure _)

theorem confined_spinUnlock (p st : Nat) : Confined (spinUnlock p st) := confined_change fun _ => rfl

theorem confined_startClearAt (p st c t : Nat) : Confined (startClearAt p st c t) :=
  confined_change_bind (fun _ => rfl) fun _ => confined_counterOf_bind fun s₀ _ hv =>
    confinedFrom_putCtr_bind (fun hf => legalFlags_or (hv hf) rfl) fun _ =>
      (confined_spinUnlock p st s₀).bind fun _ => confined_maybeSynchronousClear _ _ _ s₀

/-! ### Dispatch and the rows -/

theorem confined_ctrRequest (p st c : Nat) (pop : Bool) : Confined (ctrRequest p st c pop) :=
  acts_look_bind fun _ => .ite (confined_pushCtr _ _ _) (.ite (confined_popStack _ _ _) (confined_popFifo _ _ _))

theorem confined_watermark (p st c : Nat) (pop : Bool) :
    Confined (look id >>= fun s => putCtr p st c (watermarkStep s p st c pop (s.counter p st c))) :=
  fun _ s hs => confinedFrom_putCtr (fun hf => legalFlags_watermarkStep s p st c pop (hs.flags hf p st c) rfl) s hs

theorem confined_pointerOp (c : Nat) {f : Nat → Nat → M (Option Nat)} (h : ∀ p st, Confined (f p st)) :
    Confined (pointerOp c f) :=
  confined_atStage fun _ _ => confined_withCounter _ _ _ <| (h _ _).bind fun _ => acts_pure _

theorem confined_counterOp (c : Nat) {f : Nat → Nat → M Unit} (h : ∀ p st, Confined (f p st)) :
    Confined (counterOp c f) :=
  confined_atStage fun _ _ => confined_withCounter _ _ _ <| (h _ _).bind fun _ => acts_pure _

end Sys2Proof.Machine
end

section
/-! SUPPORT. The same for the rows, the snapshot unit, the tEOP buses and the stage cycle. -/

namespace Sys2Proof.Machine

/-! ### The SRAM row -/

theorem unjudged_putBus (s : State) (k : BusKind) (key : List Nat) (b : BusRec) : Unjudged s (s.putBus k key b) := by
  cases k <;> rfl

theorem confined_setOutputBus (k : BusKind) (p st r bus out col idx : Nat) :
    Confined (setOutputBus k p st r bus out col idx) := by
  refine acts_look_bind fun s => ?_
  dsimp only
  split
  · exact confined_change fun _ => unjudged_putBus _ _ _ _
  · exact confined_raise_bind _ _ fun _ => confined_change fun _ => unjudged_putBus _ _ _ _
  · exact acts_pure _

theorem confined_legalField (name : FieldName) (idx : List Nat) (bound : Nat) : Confined (legalField name idx bound) :=
  acts_look_bind fun _ => .ite (acts_pure _) (acts_refuse _)

theorem confined_getWordOp (N v off n : Nat) : Confined (getWordOp N v off n) := .ite (acts_pure _) (acts_refuse _)

theorem confined_exactLookup (p st r c : Nat) : Confined (exactLookup p st r c) := by
  refine acts_look_bind fun s => ?_
  split
  · exact acts_pure _
  · exact (confined_memRead _).bind fun _ => .ite
      ((confined_legalField _ _ _).bind fun _ => (confined_getWordOp _ _ _ _).bind fun _ =>
        (confined_legalField _ _ _).bind fun _ => (confined_setOutputBus _ _ _ _ _ _ _ _).bind fun _ =>
        confined_change_bind (fun _ => rfl) fun _ => acts_pure _)
      (acts_pure _)

theorem confined_ternaryLookup (p st lt : Nat) : Confined (ternaryLookup p st lt) :=
  acts_look_bind fun _ => .ite (acts_refuse _) (acts_pure _)

theorem confined_tindLookup (p st r c : Nat) : Confined (tindLookup p st r c) := by
  refine acts_look_bind fun s => (confined_legalField _ _ _).bind fun lt =>
    (confined_ternaryLookup _ _ _).bind fun e => ?_
  cases e
  · exact acts_pure _
  · exact (confined_memRead _).bind fun _ => (confined_getWordOp _ _ _ _).bind fun _ =>
      (confined_legalField _ _ _).bind fun _ => (confined_setOutputBus _ _ _ _ _ _ _ _).bind fun _ =>
      confined_change_bind (fun _ => rfl) fun _ => acts_pure _

theorem confined_gatewayLookup (p st r : Nat) : Confined (gatewayLookup p st r) := by
  refine acts_look_bind fun s => ?_
  split
  · exact confined_change_bind (fun _ => rfl) fun _ => acts_pure _
  · exact (confined_legalField _ _ _).bind fun _ => confined_change_bind (fun _ => rfl) fun _ =>
      confined_change_bind (fun _ => rfl) fun _ => acts_pure _

theorem confined_runColumn (p st r c : Nat) : Confined (runColumn p st r c) := by
  refine acts_look_bind fun mode => ?_
  split
  · exact acts_pure _
  · exact (confined_exactLookup _ _ _ _).bind fun _ => acts_pure _
  · exact (confined_tindLookup _ _ _ _).bind fun _ => acts_pure _
  · exact acts_refuse _

theorem confined_runGateway (p st r : Nat) : Confined (runGateway p st r) :=
  acts_look_bind fun _ => .ite (confined_gatewayLookup _ _ _) (acts_pure _)

theorem confined_runRow (p st r : Nat) : Confined (runRow p st r) :=
  confined_change_bind (fun _ => rfl) fun _ => (confined_runGateway _ _ _).bind fun _ =>
    acts_forEach (fun _ => (confined_runColumn _ _ _ _).bind fun _ => acts_pure _) _

theorem confined_busOp (k : BusKind) (bus output col : Nat) : Confined (busOp k bus output col) :=
  confined_atRow fun _ _ _ => acts_look_bind fun _ =>
    .ite ((confined_setOutputBus _ _ _ _ _ _ _ _).bind fun _ => acts_pure _) (acts_refuse _)

/-- A lookup row that runs only in its column mode. -/
theorem confined_lookupInMode (p st r c n : Nat) {m : M (Option Nat)} (h : Confined m) :
    Confined (look (fun s => s.field .colMode [p, st, r, c]) >>= fun mode =>
      if mode = n then m >>= fun x => pure (lookupRet (some x))
      else if mode = 3 then refuse (.illegalConfig .colMode) else pure .none) :=
  acts_look_bind fun _ => .ite (h.bind fun _ => acts_pure _) (.ite (acts_refuse _) (acts_pure _))

/-! ### The snapshot unit -/

theorem unjudged_snapshotStep (p st : Nat) (s : State) : Unjudged s (snapshotStep p st s) := by
  unfold snapshotStep
  simp only
  split <;> rfl

theorem unjudged_finalizeSnapshot (p st : Nat) (nextTable : BitVec 8) (s : State) :
    Unjudged s (finalizeSnapshot p st nextTable s) := by
  unfold finalizeSnapshot
  simp only
  split <;> rfl

/-! ### The tEOP buses -/

theorem confined_checkTeopDelay (p st lt b : Nat) : Confined (checkTeopDelay p st lt b) :=
  acts_look_bind fun _ => .ite (confined_raise _ _) (acts_pure _)

theorem confined_outputOnBus (p st lt alu : Nat) (addr : BitVec 32) (isStats : Bool) (b : Nat) :
    Confined (outputOnBus p st lt alu addr isStats b) :=
  acts_look_bind fun _ => .ite (confined_raise _ _)
    (confined_change_bind (fun _ => rfl) fun _ => confined_checkTeopDelay _ _ _ _)

theorem confined_outputAddr (p st lt alu : Nat) (addr : BitVec 32) (isStats : Bool) :
    Confined (outputAddr p st lt alu addr isStats) :=
  acts_look_bind fun _ => acts_forEach (confined_outputOnBus _ _ _ _ _ _) _

theorem confined_consumeBus (p st b : Nat) : Confined (consumeBus p st b) :=
  acts_look_bind fun _ => .ite
    (.ite
      (.ite (acts_pure _) ((acts_forEach (fun _ => (confined_statsAddress _ _ _ _ _).bind fun _ => acts_pure _) _).bind
        fun _ => confined_change fun _ => rfl))
      (.ite (acts_pure _) (acts_refuse _)))
    (acts_pure _)

theorem confined_consumeAll (p st : Nat) : Confined (consumeAll p st) :=
  acts_look_bind fun _ => acts_forEach (confined_consumeBus _ _) _

/-! ### The stage cycle -/

theorem unjudged_foldl {α : Type} {f : State → α → State} (h : ∀ s a, Unjudged s (f s a)) (l : List α) (s : State) :
    Unjudged s (l.foldl f s) :=
  foldl_related (R := Unjudged) (fun _ => rfl) (fun h h' => h'.trans h) h l s

theorem unjudged_cleanStage (p st : Nat) (s : State) : Unjudged s (cleanStage p st s) :=
  unjudged_foldl (f := fun s r => resetResources p st r s) (fun _ _ => rfl) _ s

theorem confined_receive (raw : BitVec 32) : Confined (receive raw) := by
  intro s₀ s hs
  unfold receive
  cases maParse raw.toNat
  · trivial
  · exact hs

theorem confined_ctrDispatch (p st c : Nat) (req : CtrReq) (raw : BitVec 32) :
    Confined (ctrDispatch p st c req raw) := by
  cases req
  case none => exact acts_pure _
  all_goals exact (confined_ctrRequest _ _ _ _).bind fun _ => acts_pure _

theorem confined_runSelector (p st a : Nat) (raw : BitVec 32) : Confined (runSelector p st a raw) := by
  refine (confined_receive _).bind fun ma => ?_
  rcases ma with _ | ⟨op, f⟩
  · exact acts_pure _
  · exact .ite (acts_look_bind fun _ => confined_selRun _ _ _ _ _ _) (.ite (confined_maRead _ _ _ _ _) (acts_pure _))

theorem confined_runStateful (p st a : Nat) (raws : List (Bool × Bool)) (raw : BitVec 32) :
    Confined (runStateful p st a raws raw) := by
  refine (confined_receive _).bind fun ma => ?_
  rcases ma with _ | ⟨op, f⟩
  · exact acts_pure _
  · exact .ite (acts_look_bind fun _ => confined_saluExecute _ _ _ _ _ _ _ _)
      (.ite (confined_maRead _ _ _ _ _) (acts_pure _))

theorem confined_runStats (p st a lt : Nat) (raw : BitVec 24) : Confined (runStats p st a lt raw) :=
  acts_look_bind fun _ => .ite (acts_pure _)
    (.ite ((confined_outputAddr _ _ _ _ _ _).bind fun _ => acts_pure _) (confined_statsAddress _ _ _ _ _))

theorem confined_runAlus (p st : Nat) (A : AddrOut) : Confined (runAlus p st A) :=
  acts_look_bind fun _ =>
    (acts_collect (fun _ => .ite (confined_ctrDispatch _ _ _ _ _) (acts_pure _)) _).bind fun _ =>
    (acts_collect (fun _ => confined_runSelector _ _ _ _) _).bind fun _ =>
    acts_look_bind fun _ =>
    (acts_collect (fun _ => confined_runStateful _ _ _ _ _) _).bind fun _ =>
    (acts_collect (fun _ => confined_runStats _ _ _ _ _) _).bind fun _ =>
    .ite (acts_refuse _) (acts_pure _)

theorem confined_stageCycle (p st : Nat) : Confined (stageCycle p st) :=
  confined_change_bind (fun _ => rfl) fun _ =>
  confined_change_bind (unjudged_cleanStage p st) fun _ =>
  acts_look_bind fun _ =>
  (acts_forEach (fun _ => confined_continueClearTill _ _ _ _) _).bind fun _ =>
  confined_change_bind (unjudged_snapshotStep p st) fun _ =>
  (acts_forEach (confined_runRow p st) _).bind fun _ =>
  acts_look_bind fun _ =>
  (confined_runAlus _ _ _).bind fun _ =>
  (confined_consumeAll _ _).bind fun _ =>
  confined_change_bind (unjudged_finalizeSnapshot p st _) fun _ =>
  confined_change fun _ => rfl

end Sys2Proof.Machine
end

section
/-! SUPPORT. The same for the work of the sweeper and for the coordinator; the sweeper's controls and the host's writes
keep the memory canonical and the flag bytes legal. -/

namespace Sys2Proof.Machine

/-! ### The work of the sweeper (R411 to R414) -/

theorem confined_tableStatsAlu (t : TableId) : Confined (tableStatsAlu t) := by
  refine acts_look_bind fun s => ?_
  split
  · exact acts_pure _
  · exact .ite (acts_pure _) (acts_refuse _)

theorem confined_onTableStatsAlu (t : TableId) {f : Nat → M Unit} (h : ∀ a, Confined (f a)) :
    Confined (tableStatsAlu t >>= fun a => match a with
      | none => pure ()
      | some a => f a) := by
  refine (confined_tableStatsAlu t).bind fun a => ?_
  cases a
  · exact acts_pure _
  · exact h _

theorem confined_overEntries (t : TableId) {f : Nat → Nat → Nat → M Unit} (h : ∀ a w k, Confined (f a w k)) :
    Confined (overEntries t f) :=
  confined_onTableStatsAlu t fun _ => acts_look_bind fun _ =>
    .ite (confined_raise _ _) (acts_forEach (fun _ => h _ _ _) _)

theorem confined_entryArg (op : Op) : Confined (entryArg op) := .ite (acts_pure _) (acts_refuse _)

theorem confined_emitEntry {m : M (Option Word)} (h : Confined m) (r : Word → HostRec) :
    Confined (m >>= fun e => match e with
      | none => pure ()
      | some ew => change (fun s => s.emit (r ew))) := by
  refine h.bind fun e => ?_
  cases e
  · exact acts_pure _
  · exact confined_change fun _ => rfl

theorem confined_work (op : Op) : Confined (work op) := by
  unfold work
  cases op.atype
  case idle => exact acts_refuse _
  cases op.opcode
  case sweep => exact confined_overEntries _ fun _ _ _ => confined_sweepEntry _ _ _ _ _
  case dump => exact confined_overEntries _ fun _ _ _ => confined_emitEntry (confined_dumpEntry _ _ _ _ _) _
  case dumpWord =>
    exact (confined_entryArg op).bind fun _ => confined_onTableStatsAlu _ fun _ =>
      confined_emitEntry (confined_dumpEntry _ _ _ _ _) _
  case evictWord =>
    exact (confined_entryArg op).bind fun _ => confined_onTableStatsAlu _ fun _ =>
      confined_emitEntry (confined_evictEntry _ _ _ _ _) _
  all_goals exact acts_pure _

/-! ### The coordinator -/

theorem confined_notifyOne : Confined notifyOne := by
  refine acts_look_bind fun ws => ?_
  split
  · exact acts_pure _
  · exact confined_change fun _ => rfl
  · exact confined_drawIndex.bind fun _ => confined_change fun _ => rfl

theorem confined_packetArrived : Confined packetArrived := confined_change_bind (fun _ => rfl) fun _ => confined_notifyOne

theorem confined_freshId : Confined freshId :=
  acts_look_bind fun _ => confined_change_bind (fun _ => rfl) fun _ => acts_pure _

theorem confined_enqueueTm (pipe : Nat) (pkt : Packet) : Confined (enqueueTm pipe pkt) :=
  acts_look_bind fun _ => .ite (confined_change_bind (fun _ => rfl) fun _ => confined_packetArrived) (confined_raise _ _)

theorem confined_dispatchTm (pkt : Packet) : ∀ (l : List TmOut) (used : Bool), Confined (dispatchTm pkt used l)
  | [], _ => acts_pure _
  | _ :: l, _ => .bind (.ite (acts_pure _) confined_freshId) fun _ => (confined_enqueueTm _ _).bind fun _ =>
      confined_dispatchTm pkt l _

theorem confined_walkPacket (p : Nat) (gress : Gress) (pkt : Packet) : Confined (walkPacket p gress pkt) := by
  refine acts_look_bind fun _ => .bind ?_ fun _ => acts_pure _
  exact confined_drawIndex.bind fun _ => confined_change_bind (fun _ => rfl) fun _ => acts_look_bind fun _ =>
    (acts_forEach (fun st => confined_stageCycle p st) _).bind fun _ =>
    confined_change_bind (fun _ => rfl) fun _ => acts_look _

theorem confined_ingressActivation (p : Nat) (pkt : Packet) : Confined (ingressActivation p pkt) :=
  acts_look_bind fun _ => (confined_walkPacket _ _ _).bind fun _ => confined_dispatchTm _ _ _

theorem confined_egressActivation (p : Nat) (pkt : Packet) : Confined (egressActivation p pkt) :=
  (confined_walkPacket _ _ _).bind fun _ => confined_change fun _ => rfl

theorem confined_processHeld (p : Nat) (h : Held) : Confined (processHeld p h) := by
  obtain ⟨pipe, inPkt, tmPkt⟩ := h
  refine .bind ?_ fun n => ?_
  · cases inPkt
    · exact acts_pure _
    · exact (confined_ingressActivation _ _).bind fun _ => acts_pure _
  · cases tmPkt
    · exact acts_pure _
    · exact .ite ((confined_ingressActivation _ _).bind fun _ => acts_pure _)
        ((confined_egressActivation _ _).bind fun _ => acts_pure _)

theorem confined_workerProcess (w : Nat) : Confined (workerProcess w) := by
  refine acts_look_bind fun s => ?_
  split
  · exact (confined_processHeld _ _).bind fun _ => confined_change fun _ => rfl
  · exact acts_pure _

theorem confined_selectInput (p : Nat) : Confined (selectInput p) := by
  have taken (f : State → State) (pkt : Packet) (h : ∀ s, Unjudged s (f s)) :
      Confined (change f >>= fun _ => pure (some pkt)) := confined_change_bind h fun _ => acts_pure _
  refine acts_look_bind fun q => .ite ?_ ?_
  all_goals
    split
    · exact taken _ _ fun _ => rfl
    · exact taken _ _ fun _ => rfl
    · exact acts_pure _

theorem confined_takeTm (p : Nat) : Confined (takeTm p) := by
  refine acts_look_bind fun q => ?_
  split
  · exact acts_pure _
  · exact confined_change_bind (fun _ => rfl) fun _ => acts_pure _

theorem confined_dequeue (p : Nat) : Confined (dequeue p) :=
  acts_look_bind fun _ => .ite (acts_pure _) <| confined_change_bind (fun _ => rfl) fun _ =>
    (confined_selectInput p).bind fun _ => acts_look_bind fun _ =>
    .ite (acts_pure _) ((confined_takeTm p).bind fun _ => acts_pure _)

theorem confined_scanPipes (w : Nat) : ∀ ps, Confined (scanPipes w ps)
  | [] => confined_change fun _ => rfl
  | p :: ps => by
    refine (confined_dequeue p).bind fun r => ?_
    cases r
    · exact confined_scanPipes w ps
    · exact confined_change fun _ => rfl

theorem confined_workerScan (w : Nat) : Confined (workerScan w) :=
  acts_look_bind fun _ => .ite (.ite (confined_scanPipes _ _) (confined_change fun _ => rfl)) (acts_pure _)

theorem unjudged_workerWake (w : Nat) (s : State) : Unjudged s (workerWake w s) := by
  unfold workerWake
  split <;> rfl

theorem unjudged_startWorker (s : State) (w : Nat) : Unjudged s (startWorker s w) := by
  unfold startWorker
  split <;> rfl

theorem confined_waitPoll (k : Nat) : Confined (waitPoll k) := by
  refine acts_look_bind fun s => ?_
  split
  · exact acts_pure _
  · exact .ite (confined_change_bind (fun _ => rfl) fun _ => acts_pure _) <|
      .ite (confined_change_bind (fun _ => rfl) fun _ => acts_pure _) <|
      confined_raise_bind _ _ fun _ => confined_change_bind (fun _ => rfl) fun _ => acts_pure _

theorem unjudged_notifyAll (s : State) : Unjudged s (notifyAll s) :=
  unjudged_foldl (f := fun s w => notifyWorker w s) (fun _ _ => rfl) _ s

theorem confined_stopPoll : Confined stopPoll :=
  acts_look_bind fun _ => .ite
    (confined_change_bind unjudged_notifyAll fun _ =>
      .ite (confined_change_bind (fun _ => rfl) fun _ => acts_pure _) (acts_pure _))
    (acts_pure _)

theorem confined_handOver (pkt : Packet) (p : Nat) {push : State → State} (h : ∀ s, Unjudged s (push s)) :
    Confined (handOver pkt p push) :=
  acts_look_bind fun _ => .ite (acts_refuse _) <| .ite
    (confined_change_bind (fun _ => rfl) fun _ => confined_change_bind h fun _ =>
      confined_packetArrived.bind fun _ => acts_pure _)
    (confined_raise_bind _ _ fun _ => confined_change_bind (fun _ => rfl) fun _ => acts_pure _)

/-! ### Steps that keep the memory canonical and the flag bytes legal -/

theorem Acts.sound {α : Type} {m : M α} (h : Confined m) : Acts Sound m :=
  h.mono .refl fun _ _ _ ha hs => ha.trans hs.toSound

/-- An update that writes neither the memory nor a counter. -/
theorem sound_change {f : State → State} (h : ∀ s, (f s).mem = s.mem ∧ (f s).ctr.ctrs = s.ctr.ctrs) :
    Acts Sound (change f) :=
  acts_change fun _ s hs => hs.trans (sound_of_eq (h s).1 (h s).2)

theorem sound_change_bind {α : Type} {f : State → State} {k : Unit → M α}
    (h : ∀ s, (f s).mem = s.mem ∧ (f s).ctr.ctrs = s.ctr.ctrs) (hk : ∀ u, Acts Sound (k u)) :
    Acts Sound (change f >>= k) :=
  (sound_change h).bind hk

/-! ### The sweeper (R395 to R419) -/

theorem sound_decLock (t : TableId) (a : AType) : Acts Sound (decLock t a) :=
  acts_look_bind fun _ => .ite (confined_raise _ _).sound (sound_change fun _ => ⟨rfl, rfl⟩)

theorem sound_beginOp (op : Op) : Acts Sound (beginOp op) := by
  unfold beginOp
  cases op.opcode
  case intervalSet => exact .ite (sound_change fun _ => ⟨rfl, rfl⟩) (acts_refuse _)
  case lock | barrier => exact sound_change fun _ => ⟨rfl, rfl⟩
  case unlock => exact (sound_decLock _ _).bind fun _ => sound_change fun _ => ⟨rfl, rfl⟩
  all_goals exact acts_look_bind fun _ => .ite (acts_pure _) (sound_change fun _ => ⟨rfl, rfl⟩)

theorem sound_finishWork (op : Op) : Acts Sound (finishWork op) := by
  have leave : Acts Sound (change fun s => opStop op.table op.atype
      (s.setSwp { s.swp with inFlight := s.swp.inFlight.erase op })) := sound_change fun _ => ⟨rfl, rfl⟩
  exact acts_look_bind fun _ => .ite leave ((confined_work op).sound.bind fun _ => leave)

theorem unjudged_completeLock (op : Op) (s : State) : Unjudged s (completeLock op s) := by
  unfold completeLock
  split <;> rfl

theorem sound_sweeperBegin : Acts Sound sweeperBegin := by
  have begins (f : State → State) (op : Op) (h : ∀ s, (f s).mem = s.mem ∧ (f s).ctr.ctrs = s.ctr.ctrs) :
      Acts Sound (change f >>= fun _ => beginOp op) := sound_change_bind h fun _ => sound_beginOp op
  refine acts_look_bind fun s => ?_
  split
  · exact .ite (begins _ _ fun _ => ⟨rfl, rfl⟩) (acts_pure _)
  · exact .ite (begins _ _ fun _ => ⟨rfl, rfl⟩) (acts_pure _)
  · exact acts_pure _

theorem sound_sweeperFinish (k : Nat) : Acts Sound (sweeperFinish k) := by
  refine acts_look_bind fun s => ?_
  split
  · exact sound_finishWork _
  · exact acts_pure _

theorem confined_lockComplete (k : Nat) : Confined (lockComplete k) := by
  refine acts_look_bind fun s => ?_
  split
  · exact confined_change (unjudged_completeLock _)
  · exact acts_pure _

theorem sound_opRow (opcode : OpCode) (o : OpFields) : Acts Sound (opRow opcode o) := by
  refine .bind (acts_look_bind fun _ => ?_) fun _ => acts_pure _
  exact .ite (confined_raise _ _).sound <| .ite (sound_finishWork _) <|
    .ite (confined_change (unjudged_completeLock _)).sound <| .ite (sound_beginOp _)
      (sound_change fun _ => ⟨rfl, rfl⟩)

/-! ### The host's writes (R46, R71, R485) -/

theorem legalFlags_writeCounter {name : FieldName} {v : BitVec 64} {c c' : Counter} (h : writeCounter name v c = some c')
    (hc : LegalFlags c) : LegalFlags c' := by
  unfold writeCounter at h
  split at h <;> cases h
  · rw [LegalFlags, BitVec.and_assoc]
    exact BitVec.and_zero
  all_goals exact hc

theorem sound_writeState {s t : State} {name : FieldName} {idx : List Nat} {v : BitVec 64}
    (h : writeState s name idx v = some t) : Sound s t := by
  unfold writeState at h
  split at h
  · obtain ⟨c, hc, rfl⟩ := Option.map_eq_some_iff.1 h
    exact ⟨id, fun hf => flagBytesLegal_putCounter hf (legalFlags_writeCounter hc (hf _ _ _))⟩
  · obtain ⟨x, -, rfl⟩ := Option.map_eq_some_iff.1 h
    exact sound_of_eq rfl rfl
  · cases h

theorem sound_writeField (name : FieldName) (idx : List Nat) (part width : Nat) (v : BitVec 64) (s : State) :
    Sound s (writeField name idx part width v s) := by
  unfold writeField observers
  split
  · exact sound_of_eq rfl rfl
  · split <;> exact sound_of_eq rfl rfl

theorem sound_setFieldOp {s t : State} {name : FieldName} {idx : List Nat} {part : Nat} {v : BitVec 64}
    (h : setFieldOp s name idx part v = some t) : Sound s t := by
  unfold setFieldOp at h
  split at h
  · split at h
    · cases h
      exact sound_writeField _ _ _ _ _ _
    · cases h
  · split at h
    · exact sound_writeState h
    · cases h

theorem confined_entryInRange (a : RamAddr) : Confined (entryInRange a) :=
  acts_look_bind fun _ => .ite (acts_pure _) (confined_raise_bind _ _ fun _ => acts_pure _)

end Sys2Proof.Machine
end

section
/-! Every operation and every step: the memory stays canonical and every counter's flag byte stays legal. -/

namespace Sys2Proof.Machine

/-! ### The outcomes of the operations -/

theorem outcome_sound {m : M Ret} (h : Acts Sound m) {s t : State} (e : outcome m s = .next t) : Sound s t :=
  outcome_acts .refl (fun _ _ _ h => h.trans (sound_of_eq rfl rfl)) h e

theorem outcome_confined {m : M Ret} (h : Confined m) {s t : State} (e : outcome m s = .next t) : Sound s t :=
  outcome_sound h.sound e

theorem answerWithin64_sound {len : Nat} {r : Ret} {s t : State} (e : answerWithin64 len r s = .next t) :
    Sound s t := by
  unfold answerWithin64 at e
  split at e
  · exact outcome_confined (acts_pure r) e
  · cases e

/-! ### The host's commands -/

theorem setField_sound {name : FieldName} {idx : List Nat} {part : Nat} {value : BitVec 64} {s t : State}
    (e : execSetField name idx part value s = .next t) : Sound s t := by
  refine outcome_sound (fun s₀ => triple_look_bind fun s hs => ?_) e
  split
  · rename_i s' h
    rintro s rfl
    exact hs.trans (sound_setFieldOp h)
  · rintro s rfl
    exact hs

theorem setConfig_sound {key value : String} {s t : State} (e : execSetConfig key value s = .next t) : Sound s t := by
  refine outcome_confined (acts_look_bind fun s => ?_) e
  split
  · exact acts_pure _
  · split
    · exact acts_pure _
    · exact confined_change_bind (fun _ => rfl) fun _ => acts_pure _

theorem ramWrite_sound {addr : RamAddr} {value : RamVal} {s t : State}
    (e : execRamWrite addr value s = .next t) : Sound s t := by
  have word (w : Word) : Confined (memWrite addr w >>= fun _ => pure Ret.none) :=
    (confined_memWrite _ _).bind fun _ => acts_pure _
  have entry {f : State → State} (h : ∀ s, Unjudged s (f s)) :
      Confined (entryInRange addr >>= fun ok =>
        if ok = true then change f >>= fun _ => pure Ret.none else pure Ret.none) :=
    (confined_entryInRange _).bind fun _ => .ite (confined_change_bind h fun _ => acts_pure _) (acts_pure _)
  refine outcome_confined ?_ e
  split
  · exact word _
  · exact word _
  · exact word _
  · exact word _
  · exact entry fun _ => rfl
  · exact entry fun _ => rfl
  · exact acts_refuse _

theorem ramRead_sound {addr : RamAddr} {s t : State} (e : execRamRead addr s = .next t) : Sound s t := by
  refine outcome_confined ?_ e
  split
  · exact (confined_entryInRange _).bind fun _ => acts_look _
  · exact (confined_entryInRange _).bind fun _ => acts_look _
  all_goals exact (confined_memRead _).bind fun _ => acts_pure _

theorem drainEvict_sound {pipe stage alu : Nat} {s t : State} (e : execDrainEvict pipe stage alu s = .next t) :
    Sound s t := by
  refine outcome_confined (acts_look_bind fun s => .ite ?_ (acts_refuse _)) e
  split
  · exact acts_pure _
  · exact confined_change_bind (fun _ => rfl) fun _ => acts_pure _

theorem opCreate_sound {opcode : BitVec 4} {atype : AType} {table : TableId} {arg : BitVec 64} {queue : QueueSel}
    {s t : State} (e : execOpCreate opcode atype table arg queue s = .next t) : Sound s t := by
  have queued (op : Op) (s : State) : Unjudged s (enqueueOp queue op s) := by cases queue <;> rfl
  refine outcome_confined (acts_look_bind fun s => ?_) e
  split
  · exact acts_refuse _
  · exact .ite (confined_change_bind (queued _) fun _ => acts_pure _) (confined_raise_bind _ _ fun _ => acts_pure _)

theorem enqueue_sound {port : Nat} {bytes : List Byte} {s t : State} (e : execEnqueue port bytes s = .next t) :
    Sound s t := by
  refine outcome_confined (acts_look_bind fun _ => .ite ?_ (confined_raise_bind _ _ fun _ => acts_pure _)) e
  exact confined_freshId.bind fun _ => confined_change_bind (fun _ => rfl) fun _ =>
    confined_packetArrived.bind fun _ => acts_pure _

theorem enqueuePkt_sound {port : Nat} {pkt : Packet} {pgen : Bool} {s t : State}
    (e : execEnqueuePkt port pkt pgen s = .next t) : Sound s t := by
  refine outcome_confined (acts_look_bind fun _ => ?_) e
  exact .ite (confined_handOver _ _ fun _ => rfl) (confined_handOver _ _ fun _ => rfl)

theorem enqueueResubmit_sound {pkt : Packet} {s t : State} (e : execEnqueueResubmit pkt s = .next t) : Sound s t := by
  refine outcome_confined (acts_look_bind fun _ => ?_) e
  exact confined_handOver _ _ fun _ => rfl

theorem enqueueFromTm_sound {pkt : Packet} {pipe : Nat} {s t : State} (e : execEnqueueFromTm pkt pipe s = .next t) :
    Sound s t := by
  refine outcome_confined ?_ e
  exact confined_handOver _ _ fun _ => rfl

theorem waitForIdle_sound {s t : State} (e : execWaitForIdle s = .next t) : Sound s t := by
  refine outcome_confined (acts_look_bind fun _ => .ite (acts_pure _) ?_) e
  exact confined_change_bind (fun _ => rfl) fun _ => acts_pure _

theorem stop_sound {s t : State} (e : execStop s = .next t) : Sound s t := by
  refine outcome_confined ?_ e
  exact confined_change_bind (fun _ => rfl) fun _ => confined_stopPoll

theorem start_sound {s t : State} (e : execStart s = .next t) : Sound s t := by
  refine outcome_confined ?_ e
  exact confined_change_bind (fun _ => rfl) fun _ =>
    confined_change_bind (fun _ => unjudged_foldl unjudged_startWorker _ _) fun _ => acts_pure _

/-! ### The rows of a stateful instruction -/

theorem confined_cmpRow (op : CmpOp) (c : CmpFields) : Confined (cmpRow op c) :=
  confined_atSalu fun _ _ _ => (confined_compareUnit _ _ _ _ _).bind fun _ => acts_pure _

theorem confined_arithRow (op : ArithOp) (u : AuFields) : Confined (arithRow op u) :=
  confined_atSalu fun _ _ _ => (confined_arithHalf _ _ _ _ _).bind fun _ => acts_pure _

theorem confined_logicRow (tt : Nat) (u : AuFields) : Confined (logicRow tt u) :=
  confined_atSalu fun _ _ _ => (confined_logicHalf _ _ _ _ _).bind fun _ => acts_pure _

theorem confined_outRow (sel : OutSel) (o : OutFields) : Confined (outRow sel o) :=
  confined_atSalu fun _ _ _ => (confined_outputSelect _ _ _ _ _).bind fun _ => acts_pure _

theorem confined_bitRow (op : BitOp) (m : MiscFields) : Confined (bitRow op m) :=
  confined_atSalu fun _ _ _ => (confined_miscOneBit _ _ _ _ _).bind fun _ => acts_pure _

/-! ### Every operation -/

/-- Every operation keeps the memory canonical and the flag bytes legal. -/
theorem exec_sound {i : Instr} {s t : State} (h : exec i s = .next t) : Sound s t := by
  cases i with
  -- units of a stage
  | statsNop a | stats a | cfgRd a | cfgRdclr a => exact outcome_confined (confined_statsOp _ a) h
  | statsDisabled rest => exact outcome_confined (confined_atStats fun _ _ _ => acts_pure _) h
  | maNop a | maDisabled rest => exact outcome_confined (confined_atSalu fun _ _ _ => acts_pure _) h
  | saluExec a =>
    refine outcome_confined (confined_atSalu fun _ _ _ => acts_look_bind fun _ => ?_) h
    exact (confined_saluExecute _ _ _ _ _ _ _ _).bind fun _ => acts_pure _
  | selExec a =>
    refine outcome_confined (confined_atSel fun _ _ _ => acts_look_bind fun _ => ?_) h
    exact (confined_selRun _ _ _ _ _ _).bind fun _ => acts_pure _
  | maCfgRd a =>
    exact outcome_confined (confined_atSalu fun _ _ _ => (confined_maRead _ _ _ _ _).bind fun _ => acts_pure _) h
  | cmpEq c | cmpNe c | cmpDisabled c | cmpGtS c | cmpGeS c | cmpLtS c | cmpLeS c | cmpGtU c | cmpGeU c | cmpLtU c
  | cmpLeU c | cmpGtUus c | cmpGeUus c | cmpLtUus c | cmpLeUus c => exact outcome_confined (confined_cmpRow _ c) h
  | aNop u | aAdd u | aSub u | aSubr u | aSaddu u | aSadds u | aSsubu u | aSsubs u | aMinu u | aMins u | aMaxu u
  | aMaxs u | aAddc u | aSubc u => exact outcome_confined (confined_arithRow _ u) h
  | lSetz u | lNor u | lAndca u | lNota u | lAndcb u | lNotb u | lXor u | lNand u | lAnd u | lXnor u | lB u | lOrca u
  | lA u | lOrcb u | lOr u | lSethi u => exact outcome_confined (confined_logicRow _ u) h
  | oNone o | oRamLo o | oRamHi o | oPhvLo o | oPhvHi o | oAluLo o | oAluHi o | oPred o | oDiv o | oMod o | oMmValue o
  | oMmIndex o | oBitOld o => exact outcome_confined (confined_outRow _ o) h
  | bitNop m | bitRead m | bitReadc m | bitSet m | bitSetc m | bitClr m | bitClrc m =>
    exact outcome_confined (confined_bitRow _ m) h
  | modeDual m bitOp =>
    refine outcome_confined (confined_atSalu fun _ _ _ => ?_) h
    exact (confined_miscDual _ _ _ _).bind fun _ => acts_look_bind fun _ => acts_pure _
  | modeMinmax m bitOp =>
    exact outcome_confined (confined_atSalu fun _ _ _ => (confined_miscMinMax _ _ _ _).bind fun _ => acts_pure _) h
  | divMod d =>
    refine outcome_confined (confined_atSalu fun _ _ _ => ?_) h
    exact (confined_setWidth _ _ _ _).bind fun _ => (confined_divide _ _ _ _ _).bind fun _ => acts_pure _
  | mmMin m | mmMax m =>
    exact outcome_confined (confined_atSalu fun _ _ _ => (confined_minMax _ _ _ _ _).bind fun _ => acts_pure _) h
  | rowGetHashIndex col | rowHitAddress | rowAluData alu =>
    exact outcome_confined (confined_atRow fun _ _ _ => acts_look _) h
  | rowExactLookup col =>
    refine outcome_confined (confined_atRow fun _ _ _ => ?_) h
    exact confined_lookupInMode _ _ _ _ _ (confined_exactLookup _ _ _ _)
  | rowTindLookup col =>
    refine outcome_confined (confined_atRow fun _ _ _ => ?_) h
    exact confined_lookupInMode _ _ _ _ _ (confined_tindLookup _ _ _ _)
  | rowTernaryLookup lt =>
    exact outcome_confined (confined_atRow fun _ _ _ => (confined_ternaryLookup _ _ _).bind fun _ => acts_look _) h
  | rowGatewayLookup =>
    exact outcome_confined (confined_atRow fun _ _ _ => (confined_runGateway _ _ _).bind fun _ => acts_pure _) h
  | rowSetMatchOutputBus bus output col | rowSetTindOutputBus bus output col =>
    exact outcome_confined (confined_busOp _ bus output col) h
  | rowResetResources =>
    refine outcome_confined (confined_atRow fun _ _ _ => ?_) h
    exact confined_change_bind (fun _ => rfl) fun _ => acts_pure _
  | selResilient pv hash52 | selPlanB pv hash52 => exact outcome_confined (confined_atSel fun _ _ _ => acts_look _) h
  | selFair pv hash52 =>
    exact outcome_confined (confined_atSel fun _ _ _ => (confined_fairIndex _ _ _ _ _).bind fun _ => acts_pure _) h
  | snapStep =>
    exact outcome_confined (confined_atStage fun p st =>
      confined_change_bind (unjudged_snapshotStep p st) fun _ => acts_pure _) h
  | snapFirstPass =>
    refine outcome_confined (confined_atStage fun _ _ => ?_) h
    exact confined_change_bind (fun _ => rfl) fun _ => acts_pure _
  | snapFinalizeSnapshot nextTable =>
    exact outcome_confined (confined_atStage fun p st =>
      confined_change_bind (unjudged_finalizeSnapshot p st nextTable) fun _ => acts_pure _) h
  | teopBusesAtHdrtime lt | teopBusesAtTeoptime lt =>
    refine outcome_confined (confined_atStage fun p st => acts_look_bind fun _ => ?_) h
    exact confined_change_bind (fun _ => rfl) fun _ => acts_pure _
  | teopDelayRequired lt bus => exact outcome_confined (confined_atStage fun _ _ => acts_look _) h
  | teopOutputStatsAddr lt alu addr | teopOutputMeterAddr lt alu addr =>
    exact outcome_confined (confined_atStage fun _ _ => (confined_outputAddr _ _ _ _ _ _).bind fun _ => acts_pure _) h
  | teopConsume =>
    exact outcome_confined (confined_atStage fun _ _ => (confined_consumeAll _ _).bind fun _ => acts_pure _) h
  | stageCycle p st =>
    refine outcome_confined (acts_look_bind fun _ => .ite ?_ (acts_refuse _)) h
    exact (confined_stageCycle p st).bind fun _ => acts_pure _
  -- units that the sweeper path invokes too
  | statsDumpEntry word subword =>
    exact outcome_confined (confined_atStats fun _ _ _ => (confined_dumpEntry _ _ _ _ _).bind fun _ => acts_pure _) h
  | statsLrtCheck a pkt byt =>
    refine outcome_confined (confined_atStats fun _ _ _ => (confined_statsValidate _ _ _ _ _).bind fun fmt => ?_) h
    cases fmt
    · exact acts_pure _
    · exact (confined_lrt _ _ _ _ _ _ _).bind fun _ => acts_pure _
  | ctrPushFifo c | ctrPushStack c =>
    exact outcome_confined (confined_pointerOp c fun _ _ => confined_pushCtr _ _ _) h
  | ctrPopFifo c => exact outcome_confined (confined_pointerOp c fun _ _ => confined_popFifo _ _ _) h
  | ctrPopStack c => exact outcome_confined (confined_pointerOp c fun _ _ => confined_popStack _ _ _) h
  | ctrWatermark c pop => exact outcome_confined (confined_counterOp c fun _ _ => confined_watermark _ _ _ _) h
  | ctrStartClearAt c t => exact outcome_confined (confined_counterOp c fun _ _ => confined_startClearAt _ _ _ _) h
  | ctrClearStep c => exact outcome_confined (confined_counterOp c fun _ _ => confined_clearStep _ _ _) h
  | ctrContinueClearTill c tStop =>
    exact outcome_confined (confined_counterOp c fun _ _ => confined_continueClearTill _ _ _ _) h
  | ctrMaybeSynchronousClear c =>
    exact outcome_confined (confined_counterOp c fun _ _ => confined_maybeSynchronousClear _ _ _) h
  -- the sweeper
  | intervalSet o | lock o | unlock o | sweep o | dump o | dumpWord o | evictWord o | barrier o =>
    exact outcome_sound (sound_opRow _ o) h
  | swpIncLock t a =>
    refine outcome_sound (acts_look_bind fun _ => .ite ?_ (acts_refuse _)) h
    exact sound_change_bind (fun _ => ⟨rfl, rfl⟩) fun _ => acts_pure _
  | swpDecLock t a =>
    refine outcome_sound (acts_look_bind fun _ => .ite ?_ (acts_refuse _)) h
    exact (sound_decLock t a).bind fun _ => acts_pure _
  | swpLockWait t a => exact outcome_confined (confined_onTable _ (acts_look _)) h
  | swpOpStartStop t a starts =>
    refine outcome_sound (acts_look_bind fun _ => .ite ?_ (acts_refuse _)) h
    exact sound_change_bind (fun _ => by cases starts <;> exact ⟨rfl, rfl⟩) fun _ => acts_pure _
  | swpIsLockedElseOpStart t a =>
    refine outcome_sound (acts_look_bind fun _ => .ite (acts_look_bind fun _ => .ite (acts_pure _) ?_)
      (acts_refuse _)) h
    exact sound_change_bind (fun _ => ⟨rfl, rfl⟩) fun _ => acts_pure _
  | swpTimerTick =>
    refine outcome_confined ?_ (show execSwpTimerTick s = .next t from h)
    exact confined_change_bind (fun _ => rfl) fun _ => acts_pure _
  -- pure functions and the trap entry
  | bvGetWord n v off len | bvSetWord n v value off len => exact answerWithin64_sound h
  | bvFromWords n words => exact outcome_confined (acts_pure _) h
  | bvTcamCompare n w0 w1 s0 s1 => exact outcome_confined (acts_pure _) h
  | bvSearchEncode n key => exact outcome_confined (acts_pure _) h
  | bvMaskedS0q1S1q0Equals n stored query m01 m10 => exact outcome_confined (acts_pure _) h
  | bvMaskedEquals n v w m => exact outcome_confined (acts_pure _) h
  | bvPopcountParity n v => exact outcome_confined (acts_pure _) h
  | bvByteShift n v k dir => exact outcome_confined (acts_pure _) h
  | bvExtractInto n src off m => exact outcome_confined (acts_pure _) h
  | bvSetFrom n dst off m src => exact outcome_confined (acts_pure _) h
  | fault rec =>
    refine outcome_confined (fun _ s hs => ?_) (show execFault rec s = .next t from h)
    exact ⟨hs.trans (unjudged_enterFault s rec).unitStep, not_running_enterFault s rec⟩
  -- host commands
  | enqueue port bytes => exact enqueue_sound h
  | enqueuePkt port pkt pgen => exact enqueuePkt_sound h
  | enqueueResubmit pkt => exact enqueueResubmit_sound h
  | enqueueFromTm pkt pipe => exact enqueueFromTm_sound h
  | waitForIdle => exact waitForIdle_sound h
  | stop => exact stop_sound h
  | start => exact start_sound h
  | setField name idx part value => exact setField_sound h
  | getField name idx part => exact outcome_confined (acts_look _) (show execGetField name idx part s = .next t from h)
  | setConfig key value => exact setConfig_sound h
  | ramWrite addr value => exact ramWrite_sound h
  | ramRead addr => exact ramRead_sound h
  | opCreate opcode atype table arg queue => exact opCreate_sound h
  | drainEvict pipe stage alu => exact drainEvict_sound h
  | snapSetState pipe stage gress sn =>
    refine outcome_confined (acts_look_bind fun _ => .ite ?_ (acts_refuse _)) h
    exact confined_change_bind (fun _ => rfl) fun _ => acts_pure _
  | irqAck source =>
    refine outcome_confined ?_ (show execIrqAck source s = .next t from h)
    exact confined_change_bind (fun _ => rfl) fun _ => acts_pure _
  | ctrStartClear pipe stage ctr =>
    refine outcome_confined (acts_look_bind fun _ => .ite (confined_withCounter _ _ _ ?_) (acts_refuse _)) h
    exact (confined_startClearAt _ _ _ _).bind fun _ => acts_pure _
  -- the coordinator
  | coordWorkerScan w =>
    exact outcome_confined (acts_onWorker w ((confined_workerScan w).bind fun _ => acts_pure _)) h
  | coordWorkerProcess w =>
    exact outcome_confined (acts_onWorker w ((confined_workerProcess w).bind fun _ => acts_pure _)) h
  | coordDequeue p => exact outcome_confined (acts_onPipe p ((confined_dequeue p).bind fun _ => acts_pure _)) h
  | coordSelectInput p => exact outcome_confined (acts_onPipe p ((confined_selectInput p).bind fun _ => acts_pure _)) h
  | coordIngressActivation p pkt =>
    exact outcome_confined (acts_onPipe p ((confined_ingressActivation p pkt).bind fun _ => acts_pure _)) h
  | coordEgressActivation p pkt =>
    exact outcome_confined (acts_onPipe p ((confined_egressActivation p pkt).bind fun _ => acts_pure _)) h
  | coordRelease w p n =>
    refine outcome_confined (acts_onWorker w (acts_onPipe p ?_)) h
    exact confined_change_bind (fun _ => rfl) fun _ => acts_pure _
  | coordPacketArrived => exact outcome_confined (confined_packetArrived.bind fun _ => acts_pure _) h
  | coordWaitForPackets w =>
    refine outcome_confined (acts_onWorker w ?_) h
    exact confined_change_bind (unjudged_workerWake w) fun _ => acts_pure _
  | coordTransmit pkt =>
    refine outcome_confined ?_ (show execCoordTransmit pkt s = .next t from h)
    exact confined_change_bind (fun _ => rfl) fun _ => acts_pure _

/-! ### Every step -/

theorem sound_autoMeaning (a : AutoStep) : Acts Sound (autoMeaning a) := by
  have worker {m : M Unit} (w : Nat) (h : Confined m) : Acts Sound (ifWorker w m) :=
    Acts.sound <| acts_look_bind fun _ => .ite (h.bind fun _ => acts_pure _) (acts_pure _)
  cases a with
  | workerScan w => exact worker w (confined_workerScan w)
  | workerProcess w => exact worker w (confined_workerProcess w)
  | workerWake w => exact worker w (confined_change (unjudged_workerWake w))
  | sweeperBegin => exact sound_sweeperBegin.bind fun _ => acts_pure _
  | sweeperFinish k => exact (sound_sweeperFinish k).bind fun _ => acts_pure _
  | lockComplete k => exact (confined_lockComplete k).sound.bind fun _ => acts_pure _
  | timerTick => exact sound_change_bind (fun _ => ⟨rfl, rfl⟩) fun _ => acts_pure _
  | waitPoll k => exact (confined_waitPoll k).sound
  | stopPoll => exact confined_stopPoll.sound

theorem runAuto_sound {a : AutoStep} {s t : State} (h : runAuto a s = .next t) : Sound s t := by
  unfold runAuto at h
  split at h
  · cases h
  · exact outcome_sound (sound_autoMeaning a) h

theorem runInstr_sound {i : Instr} {s t : State} (h : runInstr i s = .next t) : Sound s t := by
  unfold runInstr at h
  split at h
  · cases h
  split at h
  · cases h
  split at h
  · cases h
  · exact exec_sound h

theorem runBody_sound {b : LineBody} {s t : State} (h : runBody b s = .next t) : Sound s t := by
  cases b with
  | instr i => exact runInstr_sound h
  | auto a =>
    have entered : Sound s (enterAuto a s) := sound_of_eq rfl rfl
    exact entered.trans (runAuto_sound h)
  | coded c =>
    unfold runBody at h
    simp only at h
    split at h
    · exact runInstr_sound h
    · cases h

theorem step_sound {s t : State} (h : step s = .next t) : Sound s t := by
  unfold step at h
  split at h
  · rename_i l rest _
    have entered : Sound s (enterLine l rest s) := sound_of_eq rfl rfl
    exact entered.trans (runBody_sound h)
  · have drawn : Sound s (s.setDraws (s.draws + 1)) := sound_of_eq rfl rfl
    exact drawn.trans (runBody_sound h)

/-- Settles O11, by one case split over the operations: a counter is written back with flag bits 0 to 3 set or any
bits cleared, and the host's write is cut to its low four bits. -/
theorem everyStepKeepsFlagBytesLegal : Obligations.EveryStepKeepsFlagBytesLegal :=
  fun _ _ hs h => (step_sound h).flags hs

end Sys2Proof.Machine
end

section
/-! Reset: every store is empty, so every index reads its reset value. -/

namespace Sys2Proof.Machine

/-! ### What reset reads as (R60, R521) -/

@[simp] theorem reset_field (name : FieldName) (idx : List Nat) : State.reset.field name idx = 0 := rfl

@[simp] theorem reset_ctl (t : TableId) (a : AType) : State.reset.ctl t a = {} := rfl

@[simp] theorem reset_counter (p st c : Nat) : State.reset.counter p st c = {} := rfl

@[simp] theorem reset_pipe (p : Nat) : State.reset.pipe p = {} := rfl

@[simp] theorem workerReset_held (p : Params) : (workerReset p).held = none := rfl

@[simp] theorem reset_worker (w : Nat) : State.reset.worker w = workerReset State.reset.params := rfl

@[simp] theorem reset_sweepsAt (p st lt : Nat) (a : AType) (i : Nat) : sweepsAt State.reset p st lt a i = false := rfl

/-- No packet is inside the block. -/
theorem reset_livePackets : State.reset.livePackets = [] := by
  simp [State.livePackets, heldPackets]

/-! ### The invariants -/

theorem epochRule_reset : EpochRule State.reset := fun _ _ => by simp

theorem masksHold_reset : MasksHold State.reset := by
  have stage (st : Nat) : Store.get 0#32 State.reset.swp.maskStage [st] = 0#32 := rfl
  have whole : State.reset.swp.maskGlobal = 0#32 := rfl
  refine ⟨fun st _ i _ => ?_, fun i _ => ?_⟩
  · simp [stage]
  · simp [stage, whole]

theorem flagBytesLegal_reset : FlagBytesLegal State.reset := fun _ _ _ => by simp

theorem inv_reset : Inv State.reset := ⟨State.reset_mem_wf, epochRule_reset, masksHold_reset, flagBytesLegal_reset⟩

theorem claimsExclusive_reset : ClaimsExclusive State.reset := by
  refine ⟨fun p => ?_, fun w w' h h' hw => ?_, fun w => ?_⟩
  · simp
  · simp at hw
  · simp [workerReset]

theorem coordBooks_reset : CoordBooks State.reset := by
  refine ⟨claimsExclusive_reset, ⟨fun _ => ?_, fun pkt hpkt => ?_, fun id hid => ?_⟩, ?_⟩
  · rw [reset_livePackets]
    exact List.nodup_nil
  · rw [reset_livePackets] at hpkt
    cases hpkt
  · cases hid
  · rw [PendingCounted, reset_livePackets]
    rfl

/-- Settles O7, by reading every index of the empty stores. -/
theorem resetMeetsTheInvariants : Obligations.ResetMeetsTheInvariants :=
  ⟨inv_reset, coordBooks_reset, rfl, rfl, rfl, fun _ => ⟨rfl, rfl, rfl⟩, reset_field⟩

end Sys2Proof.Machine
end

section
/-! SUPPORT. A stateful instruction that uses no reserved code and no carry chain: each of its four words runs to its
end on the execution in progress, as a part of `SALU_EXEC` and as a row of its own. -/

namespace Sys2Proof.Machine

/-! ### What a part of an execution does (R252) -/

section
variable {p st a mm : Nat} {α β : Type}

theorem State.putSaluRun_putSaluRun (s : State) (r r' : SaluRun) :
    (s.putSaluRun p st a r).putSaluRun p st a r' = s.putSaluRun p st a r' := by
  simp [State.putSaluRun]

/-- From the execution `r` the sequence answers `v` and leaves the execution `r'`, whatever the rest of the state is
but for `mm_cfg`, and it changes nothing else. -/
def Drives (p st a mm : Nat) (m : M α) (r : SaluRun) (v : α) (r' : SaluRun) : Prop :=
  ∀ s : State, s.field .mmCfg [p, st, a] = mm → m (s.putSaluRun p st a r) = .ok v (s.putSaluRun p st a r')

theorem Drives.bind {m : M α} {k : α → M β} {r r' r'' : SaluRun} {v : α} {w : β} (h : Drives p st a mm m r v r')
    (hk : Drives p st a mm (k v) r' w r'') : Drives p st a mm (m >>= k) r w r'' := fun s hs => by
  rw [bind_of_ok _ k (h s hs), hk s hs]

theorem drives_pure (v : α) (r : SaluRun) : Drives p st a mm (pure v) r v r := fun _ _ => rfl

theorem drives_putRun (r r' : SaluRun) : Drives p st a mm (putRun p st a r') r () r' := fun s _ => by
  rw [putRun_apply, State.putSaluRun_putSaluRun]

theorem drives_runOf (r : SaluRun) : Drives p st a mm (runOf p st a) r r r := fun s _ => by
  rw [runOf_apply, State.saluRun_putSaluRun_same]

theorem drives_need {o : Option α} {x : α} (h : o = some x) (r : SaluRun) : Drives p st a mm (need o) r x r :=
  fun _ _ => by rw [h, need_some]

/-- Many units end by replacing the execution and answering. -/
theorem drives_putRun_pure (r r' : SaluRun) (v : α) :
    Drives p st a mm (putRun p st a r' >>= fun _ => pure v) r v r' :=
  (drives_putRun r r').bind (drives_pure v r')

/-- From the execution `r` the sequence runs to its end. -/
abbrev Completes (p st a mm : Nat) (m : M α) (r : SaluRun) : Prop := ∃ v r', Drives p st a mm m r v r'

theorem Drives.completes_bind {m : M α} {k : α → M β} {r r' : SaluRun} {v : α} (h : Drives p st a mm m r v r')
    (hk : Completes p st a mm (k v) r') : Completes p st a mm (m >>= k) r := by
  obtain ⟨w, r'', hk⟩ := hk
  exact ⟨w, r'', h.bind hk⟩

theorem Completes.ite {c : Prop} [Decidable c] {m n : M α} {r : SaluRun} (h : Completes p st a mm m r)
    (h' : Completes p st a mm n r) : Completes p st a mm (if c then m else n) r := by
  split <;> assumption

theorem completes_putRun_pure (r r' : SaluRun) (v : α) :
    Completes p st a mm (putRun p st a r' >>= fun _ => pure v) r :=
  ⟨v, r', drives_putRun_pure r r' v⟩

/-! ### The operands (R255) -/

theorem operand_of_lt (r : SaluRun) {code : BitVec 3} (h : code.toNat < 5) : ∃ x, operand r code = some x := by
  have cases : code.toNat = 0 ∨ code.toNat = 1 ∨ code.toNat = 2 ∨ code.toNat = 3 ∨ code.toNat = 4 := by omega
  unfold operand
  rcases cases with h | h | h | h | h <;> rw [h] <;> exact ⟨_, rfl⟩

/-! ### The compares (R257 to R273) -/

theorem withCompare_instr (r : SaluRun) (c : CmpFields) (raw : Bool) : (withCompare r c raw).instr = r.instr := by
  unfold withCompare
  split <;> rfl

theorem compareUnit_drives (op : CmpOp) {c : CmpFields} (r : SaluRun) (hA : c.srcA.toNat < 5) (hB : c.srcB.toNat < 5) :
    ∃ b r', r'.instr = r.instr ∧ Drives p st a mm (compareUnit p st a op c) r b r' := by
  obtain ⟨x, hx⟩ := operand_of_lt r hA
  obtain ⟨y, hy⟩ := operand_of_lt r hB
  obtain ⟨raw, hraw⟩ : ∃ raw, cmpRaw op c r = some raw := ⟨_, by rw [cmpRaw, hx, hy]⟩
  exact ⟨_, _, withCompare_instr r c raw,
    (drives_runOf r).bind ((drives_need hraw r).bind (drives_putRun_pure r _ _))⟩

/-! ### The units (R276 to R308) -/

/-- A unit that reads two operands where its predicate holds, and is idle elsewhere (R276). -/
theorem completes_half {u : AuFields} (half : Half) {k : Nat → Nat → M Nat} (r : SaluRun) (hA : u.srcA.toNat < 5)
    (hB : u.srcB.toNat < 5) (hk : ∀ x y, Completes p st a mm (k x y) r) :
    Completes p st a mm (if predicate u.pred r.p0 r.p1 then do
        let x ← need (operand r u.srcA)
        let y ← need (operand r u.srcB)
        k x y
      else idleUnit p st a half r) r := by
  obtain ⟨x, hx⟩ := operand_of_lt r hA
  obtain ⟨y, hy⟩ := operand_of_lt r hB
  exact .ite ((drives_need hx r).completes_bind ((drives_need hy r).completes_bind (hk x y)))
    (completes_putRun_pure r _ _)

theorem logicHalf_completes (tt : Nat) {u : AuFields} (r : SaluRun) (hA : u.srcA.toNat < 5) (hB : u.srcB.toNat < 5) :
    Completes p st a mm (logicHalf p st a tt u) r :=
  (drives_runOf r).completes_bind (completes_half _ r hA hB fun _ _ => completes_putRun_pure r _ _)

/-- An arithmetic unit outside the carry chain (R277 to R288). -/
theorem arithHalf_completes {op : ArithOp} {u : AuFields} (r : SaluRun) (hA : u.srcA.toNat < 5)
    (hB : u.srcB.toNat < 5) (hc : op ≠ .addc) (hs : op ≠ .subc) : Completes p st a mm (arithHalf p st a op u) r := by
  refine (drives_runOf r).completes_bind (completes_half _ r hA hB fun x y => ?_)
  cases op
  case addc => exact absurd rfl hc
  case subc => exact absurd rfl hs
  all_goals exact completes_putRun_pure r _ _

theorem arithOpOf_of_lt {n : Nat} (h : n < 12) : ∃ op, arithOpOf n = some op ∧ op ≠ .addc ∧ op ≠ .subc := by
  interval_cases n <;> exact ⟨_, rfl, by decide, by decide⟩

theorem unitOfWord_completes {w : Nat} (half : Half) (r : SaluRun) (h : auWordRuns w = true) :
    Completes p st a mm (unitOfWord p st a half w) r := by
  simp only [auWordRuns, Bool.and_eq_true, Bool.or_eq_true, decide_eq_true_eq, Bool.not_eq_true'] at h
  obtain ⟨⟨hA, hB⟩, hop⟩ := h
  unfold unitOfWord
  cases hbit : wordBit w 4
  · exact logicHalf_completes _ r hA hB
  · obtain ⟨op, hcode, hc, hs⟩ := arithOpOf_of_lt (hop.resolve_left (by simp [hbit]))
    simp only [hcode, if_true]
    exact arithHalf_completes r hA hB hc hs

theorem dualUnits_completes (r : SaluRun) (hlo : auWordRuns (siAluLo r.instr) = true)
    (hhi : auWordRuns (siAluHi r.instr) = true) : Completes p st a mm (dualUnits p st a) r := by
  obtain ⟨v, r', lo⟩ := unitOfWord_completes (p := p) (st := st) (a := a) (mm := mm) .lo
    { carryCleared r with output := r.input } hlo
  obtain ⟨v', r'', hi⟩ := unitOfWord_completes (p := p) (st := st) (a := a) (mm := mm) .hi r' hhi
  exact ⟨(), r'', (drives_runOf r).bind <| (drives_putRun r _).bind <| lo.bind <| hi.bind (drives_pure () r'')⟩

/-! ### The `MISC` word: width, mode, divide (R253, R317 to R323) -/

theorem divideIfEnabled_drives {m : MiscFields} (r : SaluRun)
    (h : m.divEn = true → m.divSrcA.toNat < 5 ∧ m.divSrcB.toNat < 5) :
    ∃ r', (m.divEn = true → r'.divRan = true) ∧ Drives p st a mm (divideIfEnabled p st a m) r () r' := by
  unfold divideIfEnabled
  cases hen : m.divEn
  · exact ⟨r, by simp, drives_pure () r⟩
  · obtain ⟨hA, hB⟩ := h hen
    obtain ⟨x, hx⟩ := operand_of_lt r hA
    obtain ⟨y, hy⟩ := operand_of_lt r hB
    exact ⟨_, fun _ => rfl, Drives.bind ((drives_runOf r).bind ((drives_need hx r).bind ((drives_need hy r).bind
      (drives_putRun_pure r _ _)))) (drives_pure () _)⟩

theorem setWidth_drives {m : MiscFields} {W : Nat} (r : SaluRun) (h : widthOf m.width = some W) :
    Drives p st a mm (setWidth p st a m) r () (widened r W) :=
  (drives_need h r).bind ((drives_runOf r).bind (drives_putRun r _))

theorem mmPost_of_lt {c : MmFields} (w : Word) (j best : Nat) (h : c.post.toNat < 3) :
    ∃ out, mmPost c w j best = some out := by
  have cases : c.post.toNat = 0 ∨ c.post.toNat = 1 ∨ c.post.toNat = 2 := by omega
  unfold mmPost
  rcases cases with h | h | h <;> rw [h] <;> exact ⟨_, rfl⟩

theorem minMax_completes (isMax : Bool) {c : MmFields} (r : SaluRun) (h : c.post.toNat < 3) :
    Completes p st a mm (minMax p st a isMax c) r := by
  refine (drives_runOf r).completes_bind ?_
  split
  · exact completes_putRun_pure r _ _
  · rename_i j js _
    obtain ⟨out, hout⟩ := mmPost_of_lt r.input (mmPick c (mmBest c isMax r.input (j :: js)) r.input (j :: js))
      (mmBest c isMax r.input (j :: js)) h
    exact (drives_need hout r).completes_bind (completes_putRun_pure r _ _)

theorem minMaxConfigured_completes (r : SaluRun) (hm : mm / 2 ^ 6 % 4 = 0) (h : (mmFields mm).post.toNat < 3) :
    Completes p st a mm (minMaxConfigured p st a) r := by
  obtain ⟨v, r', run⟩ := minMax_completes (p := p) (st := st) (a := a) (mm := mm) (wordBit mm 0) r h
  refine ⟨v, r', fun s hs => ?_⟩
  have field : (s.putSaluRun p st a r).field .mmCfg [p, st, a] = mm := hs
  rw [minMaxConfigured, look_bind, field, if_neg (not_not.2 hm)]
  exact run s hs

/-! ### The output word (R326) -/

theorem outSelOf_of_lt {n : Nat} (h : n < 13) :
    ∃ sel, outSelOf n = some sel ∧ (sel = .div ∨ sel = .mod → n = 8 ∨ n = 9) := by
  interval_cases n <;> exact ⟨_, rfl, by decide⟩

theorem outValue_isSome (sel : OutSel) (r : SaluRun) (h : sel = .div ∨ sel = .mod → r.divRan = true) :
    ∃ v, outValue sel r = some v := by
  cases sel
  case div => exact ⟨_, if_pos (h (.inl rfl))⟩
  case mod => exact ⟨_, if_pos (h (.inr rfl))⟩
  all_goals exact ⟨_, rfl⟩

/-- The answer is the action that the execution keeps. -/
theorem outputSelect_drives (sel : OutSel) (o : OutFields) (r : SaluRun)
    (h : sel = .div ∨ sel = .mod → r.divRan = true) :
    ∃ r', Drives p st a mm (outputSelect p st a sel o) r r'.action r' := by
  obtain ⟨v, hv⟩ := outValue_isSome sel r h
  have value : Drives p st a mm (if predicate o.pred r.p0 r.p1 then
      match outValue sel r with
      | some v => pure v
      | none => do
        raise (some (p, st)) (.divNotEnabled a r.slot)
        pure 0
      else pure 0) r (if predicate o.pred r.p0 r.p1 then v else 0) r := by
    rw [hv]
    split <;> exact drives_pure _ r
  exact ⟨{ r with action := if predicate o.pred r.p0 r.p1 then v else 0 },
    (drives_runOf r).bind (value.bind (drives_putRun_pure r _ _))⟩

end
end Sys2Proof.Machine
end

section
/-! SUPPORT. The four words of a stateful instruction, each as a part of `SALU_EXEC` and as a row of its own. -/

namespace Sys2Proof.Machine

section
variable {p st a mm : Nat} {r : SaluRun}

/-- The row does on the execution in progress what leads from `r` to `r'`, and nothing else but for its answer. -/
def RowDrives (p st a mm : Nat) (i : Instr) (r r' : SaluRun) : Prop :=
  ∃ x, ∀ s : State, AtSalu s p st a → s.field .mmCfg [p, st, a] = mm →
    exec i (s.putSaluRun p st a r) = .next ((s.putSaluRun p st a r').setResult x)

theorem rowDrives_of {i : Instr} {f : Nat → Nat → Nat → M Ret} {r' : SaluRun} {x : Ret}
    (he : ∀ s, exec i s = outcome (atSalu f) s) (h : Drives p st a mm (f p st a) r x r') :
    RowDrives p st a mm i r r' := by
  refine ⟨x, fun s hat hmm => ?_⟩
  have hat' : AtSalu (s.putSaluRun p st a r) p st a := hat
  rw [he]
  exact outcome_of_ok ((atSalu_apply hat' f).trans (h s hmm))

/-- A word of the instruction: its row, the execution it leaves, and the part of `SALU_EXEC` that it is. -/
structure WordRuns (p st a mm : Nat) (i : Instr) {α : Type} (part : M α) (r : SaluRun) (v : α) (r' : SaluRun) :
    Prop where
  part : Drives p st a mm part r v r'
  row : RowDrives p st a mm i r r'

/-! ### The compare words (R109, R257) -/

theorem decodeCmp_of_op (unit : CmpUnit) {w : Nat} {op : CmpOp} (hz : wordBit w 15 = false)
    (h : cmpOpOf (w % 16) = some op) :
    ∃ i, decodeCmp unit w = .ok i ∧ ∀ s, exec i s = outcome (cmpRow op (cmpFields unit w)) s := by
  unfold cmpOpOf at h
  split at h <;> cases h
  all_goals
    rename_i code
    simp only [decodeCmp, hz, code]
    exact ⟨_, rfl, fun _ => rfl⟩

theorem compareWord_runs (unit : CmpUnit) {w : Nat} (r : SaluRun) (hz : wordBit w 15 = false)
    (hw : cmpWordRuns w = true) :
    ∃ i r', decodeCmp unit w = .ok i ∧ r'.instr = r.instr ∧
      WordRuns p st a mm i (compareOfWord p st a unit w) r () r' := by
  simp only [cmpWordRuns, Bool.and_eq_true, decide_eq_true_eq] at hw
  obtain ⟨⟨hcode, hA⟩, hB⟩ := hw
  obtain ⟨op, hop⟩ := Option.isSome_iff_exists.1 hcode
  obtain ⟨i, hi, he⟩ := decodeCmp_of_op unit hz hop
  obtain ⟨b, r', hr', run⟩ := compareUnit_drives (p := p) (st := st) (a := a) (mm := mm) op
    (c := cmpFields unit w) r hA hB
  exact ⟨i, r', hi, hr', (drives_need hop r).bind (run.bind (drives_pure () r')),
    rowDrives_of he (run.bind (drives_pure (Ret.bool b) r'))⟩

/-! ### The output word (R111, R326) -/

theorem decodeOut_of_sel {w : Nat} {sel : OutSel} (hz : w / 2 ^ 8 % 256 = 0) (h : outSelOf (w % 16) = some sel) :
    ∃ i, decodeOut w = .ok i ∧ ∀ s, exec i s = outcome (outRow sel (outFields w)) s := by
  unfold outSelOf at h
  split at h <;> cases h
  all_goals
    rename_i code
    simp only [decodeOut, hz, code]
    exact ⟨_, rfl, fun _ => rfl⟩

theorem outWord_runs {w : Nat} (r : SaluRun) (hz : w / 2 ^ 8 % 256 = 0) (hsel : w % 16 < 13)
    (hdiv : w % 16 = 8 ∨ w % 16 = 9 → r.divRan = true) :
    ∃ i r', decodeOut w = .ok i ∧ WordRuns p st a mm i (outputOfWord p st a w) r r'.action r' := by
  obtain ⟨sel, hsel, hcode⟩ := outSelOf_of_lt hsel
  obtain ⟨i, hi, he⟩ := decodeOut_of_sel hz hsel
  obtain ⟨r', run⟩ := outputSelect_drives (p := p) (st := st) (a := a) (mm := mm) sel (outFields w) r
    fun h => hdiv (hcode h)
  refine ⟨i, r', hi, (drives_runOf r).bind ?_, rowDrives_of he (run.bind (drives_pure (Ret.nat r'.action) r'))⟩
  rw [hsel]
  exact run

/-! ### The `MISC` word (R112, R252) -/

theorem modeOf_dual {w : Nat} (h : w % 4 = 0) : modeOf (w % 4) = some .dual := by rw [h]; rfl
theorem modeOf_onebit {w : Nat} (h : w % 4 = 1) : modeOf (w % 4) = some .onebit := by rw [h]; rfl
theorem modeOf_minmax {w : Nat} (h : w % 4 = 2) : modeOf (w % 4) = some .minmax := by rw [h]; rfl

theorem bitOpOf_of_lt {n : Nat} (h : n < 7) : ∃ op, bitOpOf n = some op := by
  interval_cases n <;> exact ⟨_, rfl⟩

theorem decodeMisc_of_bitOp {w : Nat} {op : BitOp} (hz : w / 2 ^ 14 % 4 = 0) (hmode : w % 4 = 1)
    (h : bitOpOf (w / 2 ^ 11 % 8) = some op) :
    ∃ i, decodeMisc w = .ok i ∧ ∀ s, exec i s = outcome (bitRow op (miscFields w)) s := by
  unfold bitOpOf at h
  split at h <;> cases h
  all_goals
    rename_i code
    simp only [decodeMisc, hz, hmode, code]
    exact ⟨_, rfl, fun _ => rfl⟩

theorem decodeMisc_of_dual {w : Nat} (hz : w / 2 ^ 14 % 4 = 0) (hmode : w % 4 = 0) :
    decodeMisc w = .ok (.modeDual (miscFields w) (wordField w 11 3)) := by
  rw [decodeMisc, if_neg (not_not.2 hz), hmode]
  rfl

theorem decodeMisc_of_minmax {w : Nat} (hz : w / 2 ^ 14 % 4 = 0) (hmode : w % 4 = 2) :
    decodeMisc w = .ok (.modeMinmax (miscFields w) (wordField w 11 3)) := by
  rw [decodeMisc, if_neg (not_not.2 hz), hmode]
  rfl

/-- Around the units of a mode: the width first, the divide unit last. -/
theorem misc_parts {α : Type} {m : MiscFields} {W : Nat} {mode : M α} (r : SaluRun) (hW : widthOf m.width = some W)
    (hdiv : m.divEn = true → m.divSrcA.toNat < 5 ∧ m.divSrcB.toNat < 5)
    (hmode : Completes p st a mm mode (widened r W)) :
    ∃ v r₁ r₂, (m.divEn = true → r₂.divRan = true) ∧ Drives p st a mm (setWidth p st a m) r () (widened r W) ∧
      Drives p st a mm mode (widened r W) v r₁ ∧ Drives p st a mm (divideIfEnabled p st a m) r₁ () r₂ := by
  obtain ⟨v, r₁, units⟩ := hmode
  obtain ⟨r₂, hran, div⟩ := divideIfEnabled_drives (p := p) (st := st) (a := a) (mm := mm) r₁ hdiv
  exact ⟨v, r₁, r₂, hran, setWidth_drives r hW, units, div⟩

/-- The `MISC` word of an instruction that runs leaves the divide unit's outputs where it is enabled (R319). -/
theorem miscWord_runs {W : Nat} (r : SaluRun) (hz : siMisc r.instr / 2 ^ 14 % 4 = 0)
    (hW : widthOf (miscFields (siMisc r.instr)).width = some W) (hw : miscWordRuns r.instr mm = true) :
    ∃ i r', decodeMisc (siMisc r.instr) = .ok i ∧ ((miscFields (siMisc r.instr)).divEn = true → r'.divRan = true) ∧
      WordRuns p st a mm i (miscOfWord p st a (siMisc r.instr)) r () r' := by
  generalize hword : siMisc r.instr = w at *
  simp only [miscWordRuns, hword, Bool.and_eq_true, Bool.or_eq_true, decide_eq_true_eq, Bool.not_eq_true'] at hw
  obtain ⟨⟨-, hsources⟩, hmode⟩ := hw
  have sources (h : (miscFields w).divEn = true) :
      (miscFields w).divSrcA.toNat < 5 ∧ (miscFields w).divSrcB.toNat < 5 :=
    hsources.resolve_left (by simp [h])
  split at hmode
  · rename_i mode
    obtain ⟨hlo, hhi⟩ := (Bool.and_eq_true _ _).mp hmode
    obtain ⟨_, r₁, r₂, hran, width, units, div⟩ := misc_parts (p := p) (st := st) r hW sources
      (dualUnits_completes (a := a) (mm := mm) (widened r W) hlo hhi)
    have run : Drives p st a mm (miscDual p st a (miscFields w)) r () r₂ := width.bind (units.bind div)
    exact ⟨_, r₂, decodeMisc_of_dual hz mode, hran, (drives_need (modeOf_dual mode) r).bind run,
      rowDrives_of (fun _ => rfl) (run.bind ((drives_runOf r₂).bind (drives_pure _ r₂)))⟩
  · rename_i mode
    obtain ⟨op, hop⟩ := bitOpOf_of_lt (of_decide_eq_true hmode)
    obtain ⟨i, hi, he⟩ := decodeMisc_of_bitOp hz mode hop
    have bit : Completes p st a mm (oneBit p st a op) (widened r W) :=
      (drives_runOf _).completes_bind (completes_putRun_pure _ _ _)
    obtain ⟨b, r₁, r₂, hran, width, units, div⟩ := misc_parts r hW sources bit
    have run : Drives p st a mm (miscOneBit p st a (miscFields w) op) r b r₂ :=
      width.bind (units.bind (div.bind (drives_pure b r₂)))
    exact ⟨i, r₂, hi, hran, (drives_need (modeOf_onebit mode) r).bind ((drives_need hop r).bind
      (run.bind (drives_pure () r₂))), rowDrives_of he (run.bind (drives_pure (Ret.bool b) r₂))⟩
  · rename_i mode
    obtain ⟨hzero, hpost⟩ := (Bool.and_eq_true _ _).mp hmode
    obtain ⟨o, r₁, r₂, hran, width, units, div⟩ := misc_parts (p := p) (st := st) r hW sources
      (minMaxConfigured_completes (a := a) (widened r W) (beq_iff_eq.1 hzero) (of_decide_eq_true hpost))
    have run : Drives p st a mm (miscMinMax p st a (miscFields w)) r o r₂ :=
      width.bind (units.bind (div.bind (drives_pure o r₂)))
    exact ⟨_, r₂, decodeMisc_of_minmax hz mode, hran,
      (drives_need (modeOf_minmax mode) r).bind (run.bind (drives_pure () r₂)),
      rowDrives_of (fun _ => rfl) (run.bind (drives_pure (Ret.pair o.1 o.2) r₂))⟩
  · cases hmode

end
end Sys2Proof.Machine
end

section
/-! A whole `SALU_EXEC`: the words of its instruction between the read and the write of one RAM word. -/

namespace Sys2Proof.Machine

section
variable {s : State} {p st a mm W : Nat} {ma : MaFields}

/-! ### The read and the write (R71) -/

theorem State.afterRaise_of_relaxed {e : Err} (place : Option (Nat × Nat)) (h : fatal s.strict e = false) :
    s.afterRaise place e = s.logError (errRecord s place e) := by
  rw [State.afterRaise]
  simp only [h]
  rfl

theorem State.afterRaise_of_fatal {e : Err} (place : Option (Nat × Nat)) (h : fatal s.strict e = true) :
    s.afterRaise place e = (s.logError (errRecord s place e)).enterFault (errRecord s place e) := by
  rw [State.afterRaise]
  simp only [h]
  rfl

theorem State.afterRaise_afterRaise_of_relaxed {e : Err} (place : Option (Nat × Nat)) (h : fatal s.strict e = false) :
    (s.afterRaise place e).afterRaise place e = (s.logError (errRecord s place e)).logError (errRecord s place e) := by
  have h' : fatal (s.logError (errRecord s place e)).strict e = false := h
  rw [State.afterRaise_of_relaxed place h, State.afterRaise_of_relaxed place h']
  rfl

theorem saluAddr_outOfRange {w : Nat} (h : ¬ w < s.params.saluRamWords) :
    ramInRange s.params (saluAddr p st a w) = false := by
  simp [ramInRange, saluAddr, spaceSize, h]

theorem memRead_of_relaxed {addr : RamAddr} (h : ramInRange s.params addr = false)
    (hf : fatal s.strict (.addrRange addr) = false) :
    memRead addr s = .ok 0 (s.logError (errRecord s (ramPlace addr) (.addrRange addr))) := by
  rw [memRead_of_outOfRange h, bind_of_ok _ _ (raise_of_relaxed _ hf)]
  rfl

theorem memRead_of_fatal {addr : RamAddr} (h : ramInRange s.params addr = false)
    (hf : fatal s.strict (.addrRange addr) = true) :
    memRead addr s = .error .faulted (s.afterRaise (ramPlace addr) (.addrRange addr)) := by
  rw [memRead_of_outOfRange h, bind_of_error _ _ (raise_of_fatal _ hf), State.afterRaise_of_fatal _ hf]

theorem memWrite_of_relaxed {addr : RamAddr} (w : Word) (h : ramInRange s.params addr = false)
    (hf : fatal s.strict (.addrRange addr) = false) :
    memWrite addr w s = .ok () (s.logError (errRecord s (ramPlace addr) (.addrRange addr))) := by
  rw [memWrite_of_outOfRange w h, raise_of_relaxed _ hf]

/-! ### The execution sequence (R252) -/

/-- The word that an execution works on, as R324 says it. -/
theorem saluForward_eq (l : SaluLast) (addr t mode : Nat) (fresh : Word) :
    saluForward l addr t mode fresh =
      if mode = 2 ∧ l.valid = true ∧ l.addr = addr ∧ t = l.t + 1 then l.inputWord else fresh := by
  simp only [saluForward, Bool.and_eq_true, beq_iff_eq, and_assoc]

/-- A sequence of the four words of the instruction, each beginning where the one before it ended. -/
structure WordsRun (p st a mm : Nat) (instr : Word) (start r₀ r₁ r₂ r₃ : SaluRun) : Prop where
  cmp0 : Drives p st a mm (compareOfWord p st a .zero (siCmp0 instr)) start () r₀
  cmp1 : Drives p st a mm (compareOfWord p st a .one (siCmp1 instr)) r₀ () r₁
  misc : Drives p st a mm (miscOfWord p st a (siMisc instr)) r₁ () r₂
  out : Drives p st a mm (outputOfWord p st a (siOut instr)) r₂ r₃.action r₃

/-- An execution whose read leads from `s` to `s'` but for the cleared flags, and whose write ends in `u`. -/
theorem saluExecute_apply {s' u : State} {fresh data : Word} {t : Nat} {b₀ b₁ : Bool} {r₀ r₁ r₂ r₃ : SaluRun}
    (hz : siReservedZero (saluInstr s p st a ma.instr.toNat) = true)
    (hW : widthOf (miscFields (siMisc (saluInstr s p st a ma.instr.toNat))).width = some W)
    (hread : memRead (saluAddr p st a ma.word.toNat) (s.putSaluRun p st a (carryCleared (s.saluRun p st a)))
      = .ok fresh (s'.putSaluRun p st a (carryCleared (s.saluRun p st a))))
    (hmm : s'.field .mmCfg [p, st, a] = mm) {word : Word}
    (hword : word = saluForward (s.saluLast p st a) ma.word.toNat t
      (siMisc (saluInstr s p st a ma.instr.toNat) % 4) fresh)
    (hrun : WordsRun p st a mm (saluInstr s p st a ma.instr.toNat)
      (startRun (saluInstr s p st a ma.instr.toNat) ma W data word b₀ b₁) r₀ r₁ r₂ r₃)
    (hwrite : memWrite (saluAddr p st a ma.word.toNat) r₃.output (s'.putSaluRun p st a r₃) = .ok () u) :
    saluExecute p st a ma data t b₀ b₁ s = .ok (.salu r₃.action r₃.p0 r₃.p1) (u.putSaluLast p st a
      { valid := true, addr := ma.word.toNat, t := t, inputWord := word, outputWord := r₃.output }) := by
  subst hword
  unfold saluExecute
  rw [look_bind]
  simp only [id, hz, Bool.not_true, Bool.false_eq_true, if_false]
  rw [bind_of_ok _ _ (by rw [hW, need_some]), change_bind, bind_of_ok _ _ hread, putRun_bind,
    State.putSaluRun_putSaluRun, bind_of_ok _ _ (hrun.cmp0 s' hmm), bind_of_ok _ _ (hrun.cmp1 s' hmm),
    bind_of_ok _ _ (hrun.misc s' hmm), bind_of_ok _ _ (hrun.out s' hmm), runOf_bind, State.saluRun_putSaluRun_same,
    bind_of_ok _ _ hwrite]
  rfl

/-! ### `SALU_EXEC` addressed alone -/

theorem exec_saluExec_of_ok {o : AluOut} {t : State} (hat : AtSalu s p st a)
    (h : saluExecute p st a ma s.act.aluData s.act.io.t (sbusOf s p st a []).1 (sbusOf s p st a []).2 s = .ok o t) :
    exec (.saluExec ma) s = .next (t.setResult (.alu o)) :=
  outcome_of_ok ((atSalu_apply hat _).trans (bind_of_ok s (fun o => pure (Ret.alu o)) h))

theorem exec_saluExec_of_faulted {t : State} (hat : AtSalu s p st a)
    (h : saluExecute p st a ma s.act.aluData s.act.io.t (sbusOf s p st a []).1 (sbusOf s p st a []).2 s
      = .error .faulted t) :
    exec (.saluExec ma) s = .next t :=
  outcome_of_faulted ((atSalu_apply hat _).trans (bind_of_error s (fun o => pure (Ret.alu o)) h))

/-- A read that raises ends the execution with the flags cleared (log 59). -/
theorem saluExecute_of_fatal {data : Word} {t : Nat} {b₀ b₁ : Bool}
    (hz : siReservedZero (saluInstr s p st a ma.instr.toNat) = true)
    (hW : widthOf (miscFields (siMisc (saluInstr s p st a ma.instr.toNat))).width = some W)
    (hr : ramInRange s.params (saluAddr p st a ma.word.toNat) = false)
    (hf : fatal s.strict (.addrRange (saluAddr p st a ma.word.toNat)) = true) :
    saluExecute p st a ma data t b₀ b₁ s
      = .error .faulted ((s.putSaluRun p st a (carryCleared (s.saluRun p st a))).afterRaise
          (some (p, st)) (.addrRange (saluAddr p st a ma.word.toNat))) := by
  let cleared := s.putSaluRun p st a (carryCleared (s.saluRun p st a))
  have read : memRead (saluAddr p st a ma.word.toNat) cleared
      = .error .faulted (cleared.afterRaise (some (p, st)) (.addrRange (saluAddr p st a ma.word.toNat))) :=
    memRead_of_fatal hr hf
  unfold saluExecute
  rw [look_bind]
  simp only [id, hz, Bool.not_true, Bool.false_eq_true, if_false]
  rw [bind_of_ok _ _ (by rw [hW, need_some]), change_bind, bind_of_error _ _ read]

/-! ### The rows of the words -/

/-- The rows of the four words, one after the other, do what the words do in the execution; each answers on top. -/
structure RowsRun (s : State) (p st a : Nat) (c₀ c₁ m o : Instr) (start r₃ : SaluRun) : Prop where
  rows : ∃ t₀ t₁ t₂ x, exec c₀ (s.putSaluRun p st a start) = .next t₀ ∧ exec c₁ t₀ = .next t₁ ∧
    exec m t₁ = .next t₂ ∧ exec o t₂ = .next ((s.putSaluRun p st a r₃).setResult x)

/-- A row does not read what the row before it answered. -/
theorem RowDrives.after {i : Instr} {r r' : SaluRun} (h : RowDrives p st a mm i r r') (hat : AtSalu s p st a)
    (hmm : s.field .mmCfg [p, st, a] = mm) :
    ∃ x, ∀ y, exec i ((s.putSaluRun p st a r).setResult y) = .next ((s.putSaluRun p st a r').setResult x) := by
  obtain ⟨x, h⟩ := h
  exact ⟨x, fun y => h (s.setResult y) hat hmm⟩

theorem siRuns_run {instr : Word} (start : SaluRun) (hat : AtSalu s p st a) (hmm : s.field .mmCfg [p, st, a] = mm)
    (hstart : start.instr = instr) (hruns : siRuns instr mm = true)
    (hW : widthOf (miscFields (siMisc instr)).width = some W) :
    ∃ c₀ c₁ m o r₀ r₁ r₂ r₃, decodeCmp .zero (siCmp0 instr) = .ok c₀ ∧ decodeCmp .one (siCmp1 instr) = .ok c₁ ∧
      decodeMisc (siMisc instr) = .ok m ∧ decodeOut (siOut instr) = .ok o ∧
      WordsRun p st a mm instr start r₀ r₁ r₂ r₃ ∧ RowsRun s p st a c₀ c₁ m o start r₃ := by
  subst hstart
  simp only [siRuns, siReservedZero, outWordRuns, Bool.and_eq_true, Bool.or_eq_true, decide_eq_true_eq,
    Bool.not_eq_true', beq_iff_eq, bne_iff_ne] at hruns
  obtain ⟨⟨⟨⟨⟨⟨⟨⟨⟨z₀, z₁⟩, -⟩, -⟩, zo⟩, zm⟩, h₀⟩, h₁⟩, hm⟩, hsel, hdiv⟩ := hruns
  obtain ⟨c₀, r₀, d₀, e₀, w₀⟩ := compareWord_runs (p := p) (st := st) (a := a) (mm := mm) .zero start z₀ h₀
  obtain ⟨c₁, r₁, d₁, e₁, w₁⟩ := compareWord_runs (p := p) (st := st) (a := a) (mm := mm) .one r₀ z₁ h₁
  rw [← e₀, ← e₁] at zm hW hm hdiv
  obtain ⟨m, r₂, dm, hran, wm⟩ := miscWord_runs (p := p) (st := st) (a := a) r₁ zm hW hm
  have divides (h : siOut start.instr % 16 = 8 ∨ siOut start.instr % 16 = 9) : r₂.divRan = true := by
    rw [← e₀, ← e₁] at h
    exact hran (hdiv.resolve_left fun hn => h.elim hn.1 hn.2)
  obtain ⟨o, r₃, dout, wo⟩ := outWord_runs (p := p) (st := st) (a := a) (mm := mm) r₂ zo hsel divides
  rw [e₁, e₀] at dm wm
  obtain ⟨x₀, row₀⟩ := w₀.row
  obtain ⟨x₁, row₁⟩ := w₁.row.after hat hmm
  obtain ⟨x₂, row₂⟩ := wm.row.after hat hmm
  obtain ⟨x₃, row₃⟩ := wo.row.after hat hmm
  exact ⟨c₀, c₁, m, o, r₀, r₁, r₂, r₃, d₀, d₁, dm, dout, ⟨w₀.part, w₁.part, wm.part, wo.part⟩,
    ⟨_, _, _, x₃, row₀ s hat hmm, row₁ _, row₂ _, row₃ _⟩⟩

end

/-- Settles O37, by running the four words as they stand between the read and the write: each is its row, and none
reads what a row answers. -/
theorem statefulExecutionWritesOneWord : Obligations.StatefulExecutionWritesOneWord := by
  intro s p st a W ma hat instr hruns hW addr l inRange used sb start err
  obtain ⟨c₀, c₁, m, o, r₀, r₁, r₂, r₃, d₀, d₁, dm, dout, words, ⟨t₀, t₁, t₂, x, e₀, e₁, e₂, e₃⟩⟩ :=
    siRuns_run start hat rfl rfl hruns hW
  have reserved : siReservedZero instr = true := by
    simp only [siRuns, Bool.and_eq_true] at hruns
    exact hruns.1.1.1.1
  have outOfRange (h : ¬ inRange) : ramInRange s.params addr = false := saluAddr_outOfRange h
  have word {fresh : Word} (h : fresh = if inRange then s.mem.read addr else 0) :
      used = saluForward l ma.word.toNat s.act.io.t (siMisc instr % 4) fresh := by
    rw [saluForward_eq, h]
  refine ⟨⟨c₀, c₁, m, o, t₀, t₁, t₂, _, d₀, d₁, dm, dout, e₀, e₁, e₂, e₃, rfl, rfl, fun q u b hne => ⟨rfl, ?_⟩, ?_⟩, ?_⟩
  · exact (State.saluRun_putSaluRun s p st a q u b r₃).trans (if_neg hne)
  · have run : ((s.putSaluRun p st a r₃).setResult x).saluRun p st a = r₃ := State.saluRun_putSaluRun_same s p st a r₃
    dsimp only
    rw [run]
    refine ⟨fun hin => ?_, fun hout hrelaxed => ?_⟩
    · have range : ramInRange s.params addr = true := saluAddr_inRange hat hin
      have write : memWrite addr r₃.output (s.putSaluRun p st a r₃)
          = .ok () ((s.putSaluRun p st a r₃).setMem (s.mem.write addr r₃.output)) := memWrite_of_inRange _ range
      have run := saluExecute_apply (s' := s) reserved hW (memRead_of_inRange range) rfl (word (if_pos hin).symm) words
        write
      exact (exec_saluExec_of_ok hat run).trans rfl
    · have relaxed : fatal s.strict err = false := by simp [err, fatal, hrelaxed]
      rw [State.afterRaise_afterRaise_of_relaxed (s := (s.putSaluRun p st a r₃).setResult x) _ relaxed]
      let logged := s.logError (errRecord s (some (p, st)) err)
      have write : memWrite addr r₃.output (logged.putSaluRun p st a r₃)
          = .ok () ((logged.putSaluRun p st a r₃).logError (errRecord s (some (p, st)) err)) :=
        memWrite_of_relaxed _ (outOfRange hout) relaxed
      have run := saluExecute_apply (s' := logged) reserved hW (memRead_of_relaxed (outOfRange hout) relaxed) rfl
        (word (if_neg hout).symm) words write
      exact (exec_saluExec_of_ok hat run).trans rfl
  · intro hout hstrict
    have fatal : fatal s.strict err = true := by simp [err, fatal, hstrict]
    exact exec_saluExec_of_faulted hat (saluExecute_of_fatal reserved hW (outOfRange hout) fatal)

end Sys2Proof.Machine
end

section
/-! SUPPORT. The configuration store: which fields share a key, what a part of a field holds after a write, what the
observers of a field write. -/

namespace Sys2Proof.Machine

/-! ### The names of the fields (R485) -/

/-- The names of the configuration store, in their order: every name but those that are none of them (R476). -/
def fieldNames : List FieldName :=
  [.colMode, .colLogicalRow, .colLt, .colMatchBus, .colTindBus, .emKeyMask, .emValidEn, .emValidBit, .emOutOff,
    .tindOutOff, .gwEnable, .aluDataHashEn, .aluDataPhvEn, .statsFormat, .byteAdjust, .lrtEnable, .lrtMultiplier,
    .lrtThreshold, .fullResEnable, .selMode, .hashEnable, .sboxEnable, .fairBucketSel, .saluInstr, .mmCfg, .sbusComb,
    .sbusSrcMask, .vpnBase, .vpnLimit, .ctrShift, .ctrDiscipline, .wmEnable, .wmCountPops, .wmThreshold, .syncClear,
    .snapMatch, .snapTimeEnable, .snapTimeTrigger, .snapCaptureSel, .ltMeterAlu, .ltStatsAlu, .ltMatchDependent,
    .busHdrMeter, .busHdrStats, .busTeopMeter, .busTeopStats, .teopDelayCfg, .sweepInterval, .sweepActive,
    .tcamEntryValid, .tcamEntryLt, .gwLt, .ctrFlags, .ctrValue, .ctrPopValue, .ctrFill, .shadowPkts, .shadowBytes,
    .snapState, .dpPktVersion, .dpThreadActive, .dpGhost, .capNextTable, .capBusHitAddr, .capLtHit, .capLtInhibit,
    .capPhv, .irqPending, .errorLog]

theorem fieldNames_ctorIdx (name : FieldName) :
    fieldNames[name.ctorIdx]? = some name ∨ (∃ n, name = .unknown n) ∧ fieldNames[name.ctorIdx]? = none := by
  cases name
  case unknown n => exact .inr ⟨⟨n, rfl⟩, rfl⟩
  all_goals exact .inl rfl

theorem fieldParts_unknown (params : Params) (n : String) (idx : List Nat) :
    fieldParts params (.unknown n) idx = none := rfl

/-- A field of the configuration shares its place with no other name. -/
theorem ctorIdx_inj_of_fieldParts {params : Params} {name n : FieldName} {idx : List Nat} {parts : List Nat}
    (h : fieldParts params name idx = some parts) (e : n.ctorIdx = name.ctorIdx) : n = name := by
  rcases fieldNames_ctorIdx name with hname | ⟨⟨m, rfl⟩, -⟩
  · rcases fieldNames_ctorIdx n with hn | ⟨-, hn⟩
    · rw [e, hname] at hn
      exact (Option.some.inj hn).symm
    · rw [e, hname] at hn
      cases hn
  · rw [fieldParts_unknown] at h
    cases h

/-! ### The parts of a field (R485) -/

/-- The part that is written is read back. -/
theorem setPart_div (old part width : Nat) (v : BitVec 64) :
    BitVec.ofNat 64 (setPart old part width v / 2 ^ (64 * part)) = BitVec.ofNat 64 (v.toNat % 2 ^ width) := by
  unfold setPart
  generalize hP : 2 ^ (64 * part) = P
  have hpos : 0 < P := by rw [← hP]; exact Nat.two_pow_pos _
  generalize v.toNat % 2 ^ width = x
  have split : old - old / P % 2 ^ 64 * P + x * P = old % P + P * (2 ^ 64 * (old / P / 2 ^ 64) + x) := by
    have h₁ := Nat.div_add_mod old P
    have h₂ := Nat.div_add_mod (old / P) (2 ^ 64)
    generalize old / P % 2 ^ 64 = d at *
    generalize old / P / 2 ^ 64 = q at *
    generalize old % P = r at *
    rw [← h₂] at h₁
    rw [← h₁]
    ring_nf
    omega
  rw [split, Nat.add_mul_div_left _ _ hpos, Nat.div_eq_of_lt (Nat.mod_lt _ hpos), Nat.zero_add]
  apply BitVec.eq_of_toNat_eq
  simp [Nat.add_mod]

/-! ### The observers of a field (R92, R417, R485) -/

theorem isTeopField_iff (name : FieldName) : isTeopField name = true ↔
    name ∈ [FieldName.ltMeterAlu, .ltStatsAlu, .ltMatchDependent, .busHdrMeter, .busHdrStats, .busTeopMeter,
      .busTeopStats, .teopDelayCfg] := by
  cases name
  all_goals simp [isTeopField]

theorem isSweepField_iff (name : FieldName) :
    isSweepField name = true ↔ name = .sweepInterval ∨ name = .sweepActive := by
  cases name
  all_goals simp [isSweepField]

end Sys2Proof.Machine
end

section
/-! SUPPORT. The interval masks that are recomputed say which intervals have an active table (R417). -/

namespace Sys2Proof.Machine

theorem getLsbD_foldl_or {n : Nat} (i : Nat) : ∀ (l : List (BitVec n)) (m : BitVec n),
    (l.foldl (· ||| ·) m).getLsbD i = true ↔ m.getLsbD i = true ∨ ∃ x ∈ l, x.getLsbD i = true
  | [], m => by simp
  | x :: l, m => by
    rw [List.foldl_cons, getLsbD_foldl_or i l, BitVec.getLsbD_or, Bool.or_eq_true]
    simp only [List.mem_cons, exists_eq_or_imp, or_assoc]

theorem getLsbD_foldl_or_zero {n : Nat} (i : Nat) (l : List (BitVec n)) :
    (l.foldl (· ||| ·) 0).getLsbD i = true ↔ ∃ x ∈ l, x.getLsbD i = true := by
  rw [getLsbD_foldl_or]
  simp

theorem getLsbD_slotMask (s : State) (p st lt : Nat) (a : AType) {i : Nat} (h : i < 32) :
    (slotMask s p st (lt, a)).getLsbD i = sweepsAt s p st lt a i := by
  unfold slotMask sweepsAt
  cases s.flag .sweepActive [p, st, lt, a.ctorIdx]
  · simp
  · rw [if_pos rfl, BitVec.getLsbD_ofNat, Nat.testBit_two_pow, Bool.true_and]
    simp only [h, decide_true, Bool.true_and]
    exact (beq_eq_decide _ _).symm

theorem mem_tableSlots (params : Params) (lt : Nat) (a : AType) :
    (lt, a) ∈ tableSlots params ↔ lt < params.numLt := by
  cases a <;> simp [tableSlots]

theorem getLsbD_stageMask (s : State) (st : Nat) {i : Nat} (h : i < 32) :
    (stageMask s st).getLsbD i = true ↔
      ∃ p < s.params.numPipes, ∃ lt < s.params.numLt, ∃ a, sweepsAt s p st lt a i = true := by
  rw [stageMask, getLsbD_foldl_or_zero]
  simp only [List.mem_flatMap, List.mem_range, List.mem_map, Prod.exists]
  constructor
  · rintro ⟨_, ⟨p, hp, lt, a, hslot, rfl⟩, hbit⟩
    exact ⟨p, hp, lt, (mem_tableSlots _ _ _).1 hslot, a, by rwa [getLsbD_slotMask s p st lt a h] at hbit⟩
  · rintro ⟨p, hp, lt, hlt, a, hbit⟩
    exact ⟨_, ⟨p, hp, lt, a, (mem_tableSlots _ _ _).2 hlt, rfl⟩, by rwa [getLsbD_slotMask s p st lt a h]⟩

/-- A store filled for the first `n` indices. -/
theorem get_foldl_set_range {α : Type} [DecidableEq α] (d : α) (f : Nat → α) (k : Nat) : ∀ n,
    Store.get d ((List.range n).foldl (fun m i => Store.set d m [i] (f i)) []) [k] = if k < n then f k else d
  | 0 => rfl
  | n + 1 => by
    rw [List.range_succ, List.foldl_append, List.foldl_cons, List.foldl_nil, Store.get_set,
      get_foldl_set_range d f k n]
    by_cases hk : k = n
    · simp [hk]
    · have : k < n + 1 ↔ k < n := by omega
      simp [hk, this]

theorem maskStage_recomputeMasks (s : State) {st : Nat} (h : st < s.params.numStages) :
    Store.get 0 (recomputeMasks s).swp.maskStage [st] = stageMask s st :=
  (get_foldl_set_range 0 (stageMask s) st s.params.numStages).trans (if_pos h)

theorem masksHold_recomputeMasks (s : State) : MasksHold (recomputeMasks s) := by
  refine ⟨fun st hst i hi => ?_, fun i hi => ?_⟩
  · rw [maskStage_recomputeMasks s hst]
    exact getLsbD_stageMask s st hi
  · have whole : (recomputeMasks s).swp.maskGlobal = globalMask s := rfl
    rw [whole, globalMask, getLsbD_foldl_or_zero]
    simp only [List.mem_map, List.mem_range]
    constructor
    · rintro ⟨_, ⟨st, hst, rfl⟩, hbit⟩
      exact ⟨st, hst, by rwa [maskStage_recomputeMasks s hst]⟩
    · rintro ⟨st, hst, hbit⟩
      exact ⟨_, ⟨st, hst, rfl⟩, by rwa [maskStage_recomputeMasks s hst] at hbit⟩

end Sys2Proof.Machine
end

section
/-! SUPPORT. The configuration interface of the host: what is written is read back, what is not named is left alone. -/

namespace Sys2Proof.Machine

section
variable {s t : State} {name : FieldName} {idx : List Nat} {part width : Nat} {parts : List Nat} {v x : BitVec 64}

/-! ### `SET_FIELD` and `GET_FIELD` as functions (R485) -/

theorem exec_setField_of_some (h : setFieldOp s name idx part v = some t) :
    exec (.setField name idx part v) s = .next (t.setResult .ok) :=
  outcome_of_ok (by simp only [look_bind, id, h]; rfl)

theorem exec_setField_of_none (h : setFieldOp s name idx part v = none) :
    exec (.setField name idx part v) s = .next (s.setResult (.commFail name)) :=
  outcome_of_ok (by simp only [look_bind, id, h]; rfl)

theorem exec_getField : exec (.getField name idx part) s = .next (s.setResult (getFieldOp s name idx part)) := rfl

theorem setFieldOp_of_part (hp : fieldParts s.params name idx = some parts) (hw : parts[part]? = some width) :
    setFieldOp s name idx part v = some (writeField name idx part width v s) := by
  simp only [setFieldOp, hp, hw]

theorem setFieldOp_of_noPart (hp : fieldParts s.params name idx = some parts) (hw : parts.length ≤ part) :
    setFieldOp s name idx part v = none := by
  simp only [setFieldOp, hp, List.getElem?_eq_none hw]

theorem setFieldOp_of_state (hp : fieldParts s.params name idx = none) :
    setFieldOp s name idx 0 v = writeState s name idx v := by
  simp only [setFieldOp, hp, if_true]

theorem setFieldOp_of_nothing (hp : fieldParts s.params name idx = none)
    (hn : writeState s name idx v = none ∨ part ≠ 0) : setFieldOp s name idx part v = none := by
  simp only [setFieldOp, hp]
  split
  · exact hn.resolve_right (by simpa)
  · rfl

theorem getFieldOp_of_some (hi : name ≠ .irqPending) (he : name ≠ .errorLog)
    (h : readField s name idx part = some x) : getFieldOp s name idx part = .field x := by
  unfold getFieldOp
  split
  · exact absurd rfl hi
  · exact absurd rfl he
  · rw [h]

theorem getFieldOp_of_none (hi : name ≠ .irqPending) (he : name ≠ .errorLog)
    (h : readField s name idx part = none) : getFieldOp s name idx part = .commFail name := by
  unfold getFieldOp
  split
  · exact absurd rfl hi
  · exact absurd rfl he
  · rw [h]

theorem ne_irqPending_of_fieldParts (h : fieldParts s.params name idx = some parts) : name ≠ .irqPending := by
  rintro rfl
  cases h

theorem ne_errorLog_of_fieldParts (h : fieldParts s.params name idx = some parts) : name ≠ .errorLog := by
  rintro rfl
  cases h

theorem getFieldOp_of_part (hp : fieldParts s.params name idx = some parts) (hw : part < parts.length) :
    getFieldOp s name idx part = .field (BitVec.ofNat 64 (s.field name idx / 2 ^ (64 * part))) :=
  getFieldOp_of_some (ne_irqPending_of_fieldParts hp) (ne_errorLog_of_fieldParts hp)
    (by simp only [readField, hp, hw, if_true])

theorem getFieldOp_of_noPart (hp : fieldParts s.params name idx = some parts) (hw : parts.length ≤ part) :
    getFieldOp s name idx part = .commFail name :=
  getFieldOp_of_none (ne_irqPending_of_fieldParts hp) (ne_errorLog_of_fieldParts hp)
    (by simp only [readField, hp, Nat.not_lt.2 hw, if_false])

/-! ### A write of a configuration field and its observers (R92, R417, R485) -/

theorem field_writeField (n : FieldName) (k : List Nat) :
    (writeField name idx part width v s).field n k
      = (s.putField name idx (setPart (s.field name idx) part width v)).field n k := by
  refine State.field_eq_of_cfg ?_ n k
  unfold writeField observers
  split
  · rfl
  · split <;> rfl

theorem params_writeField : (writeField name idx part width v s).params = s.params := by
  unfold writeField observers
  split
  · rfl
  · split <;> rfl

theorem field_writeField_same :
    (writeField name idx part width v s).field name idx = setPart (s.field name idx) part width v := by
  rw [field_writeField, State.field_putField, if_pos rfl]

theorem field_writeField_other (hp : fieldParts s.params name idx = some parts) {n : FieldName} {k : List Nat}
    (h : (n, k) ≠ (name, idx)) : (writeField name idx part width v s).field n k = s.field n k := by
  rw [field_writeField, State.field_putField, if_neg]
  intro e
  obtain ⟨hn, hk⟩ := List.cons.inj e
  exact h (by rw [ctorIdx_inj_of_fieldParts hp hn, hk])

/-- Nothing but the store, the caches of the bus masks and the interval masks is written. -/
theorem writeField_eq : writeField name idx part width v s =
    ((s.setCfg (writeField name idx part width v s).cfg).setTeop (writeField name idx part width v s).teop).setSwp
      { s.swp with maskGlobal := (writeField name idx part width v s).swp.maskGlobal
                   maskStage := (writeField name idx part width v s).swp.maskStage } := by
  unfold writeField observers
  split
  · rfl
  · split <;> rfl

theorem teop_writeField (h : isTeopField name = true) :
    (writeField name idx part width v s).teop
      = { hdr := Store.dropWhere (fun k => k.take 2 == idx.take 2) s.teop.hdr
          teop := Store.dropWhere (fun k => k.take 2 == idx.take 2) s.teop.teop } := by
  rw [writeField, observers, if_pos h]
  rfl

theorem teop_writeField_of_not (h : ¬ isTeopField name = true) :
    (writeField name idx part width v s).teop = s.teop := by
  rw [writeField, observers, if_neg h]
  split <;> rfl

theorem not_isTeopField_of_sweep (h : isSweepField name = true) : ¬ isTeopField name = true := by
  rcases (isSweepField_iff name).1 h with rfl | rfl <;> simp [isTeopField]

theorem masksHold_writeField (h : isSweepField name = true) :
    MasksHold (writeField name idx part width v s) := by
  rw [writeField, observers, if_neg (not_isTeopField_of_sweep h), if_pos h]
  exact masksHold_recomputeMasks _

theorem swp_writeField_of_not (h : ¬ isSweepField name = true) :
    (writeField name idx part width v s).swp = s.swp := by
  unfold writeField observers
  split <;> rfl

/-- Dropping the entries of a stage leaves the others as they were. -/
theorem get_dropStage {α : Type} (m : Store (Option α)) (idx k : List Nat) :
    Store.get none (Store.dropWhere (fun k => k.take 2 == idx.take 2) m) k
      = if k.take 2 = idx.take 2 then none else Store.get none m k := by
  rw [Store.get_dropWhere]
  simp only [beq_iff_eq]

/-- A part that is written. -/
theorem setField_part (hp : fieldParts s.params name idx = some parts) (hw : parts[part]? = some width) :
    let t := (writeField name idx part width v s).setResult .ok
    exec (.setField name idx part v) s = .next t ∧
      exec (.getField name idx part) t = .next (t.setResult (.field (BitVec.ofNat 64 (v.toNat % 2 ^ width)))) := by
  refine ⟨exec_setField_of_some (setFieldOp_of_part hp hw), ?_⟩
  have hp' : fieldParts ((writeField name idx part width v s).setResult .ok).params name idx = some parts := by
    rw [State.setResult_params, params_writeField, hp]
  have same : ((writeField name idx part width v s).setResult .ok).field name idx
      = setPart (s.field name idx) part width v := field_writeField_same
  obtain ⟨hlt, -⟩ := List.getElem?_eq_some_iff.1 hw
  rw [exec_getField, getFieldOp_of_part hp' hlt, same, setPart_div]

/-! ### Host-writable state (R46, R203, R485) -/

theorem low_four_bits (v : BitVec 64) : v.setWidth 8 &&& 0x0F#8 = BitVec.ofNat 8 (v.toNat % 16) := by
  apply BitVec.eq_of_toNat_eq
  simp only [BitVec.toNat_and, BitVec.toNat_setWidth, BitVec.toNat_ofNat]
  rw [show 15 % 2 ^ 8 = 2 ^ 4 - 1 from rfl, Nat.and_two_pow_sub_one_eq_mod]
  omega

section
variable {p st c : Nat}

theorem ctrIdx_of_lt (hp : p < s.params.numPipes) (hst : st < s.params.numStages) (hc : c < s.params.numCtrs) :
    ctrIdx s.params [p, st, c] = some (p, st, c) := by
  simp [ctrIdx, stageExists, hp, hst, hc]

theorem shadowIdx_of_lt {a w k : Nat} (hp : p < s.params.numPipes) (hst : st < s.params.numStages)
    (ha : a < s.params.numStatsAlu) (hw : w < s.params.statsRamWords) (hk : k < 8) :
    shadowIdx s.params [p, st, a, w, k] = some (p, st, a, w, k) := by
  simp [shadowIdx, stageExists, hp, hst, ha, hw, hk]

theorem exec_setField_counter {u : Counter} (hf : fieldParts s.params name [p, st, c] = none)
    (hp : p < s.params.numPipes) (hst : st < s.params.numStages) (hc : c < s.params.numCtrs)
    (h : writeCounter name v (s.counter p st c) = some u) :
    exec (.setField name [p, st, c] 0 v) s = .next ((s.putCounter p st c u).setResult .ok) := by
  refine exec_setField_of_some ((setFieldOp_of_state hf).trans ?_)
  simp only [writeState, ctrIdx_of_lt hp hst hc, h, Option.map_some]

theorem exec_setField_shadow {a w k : Nat} {u : ShadowPair} (hf : fieldParts s.params name [p, st, a, w, k] = none)
    (hp : p < s.params.numPipes) (hst : st < s.params.numStages) (ha : a < s.params.numStatsAlu)
    (hw : w < s.params.statsRamWords) (hk : k < 8) (h : writeShadow name v (s.shadow p st a w k) = some u) :
    exec (.setField name [p, st, a, w, k] 0 v) s = .next ((s.putShadow p st a w k u).setResult .ok) := by
  refine exec_setField_of_some ((setFieldOp_of_state hf).trans ?_)
  have noCounter : ctrIdx s.params [p, st, a, w, k] = none := rfl
  simp only [writeState, noCounter, shadowIdx_of_lt hp hst ha hw hk, h, Option.map_some]

/-! ### State that is read (R374, R485) -/

theorem readState_snap {g : Gress} {rest : List Nat} (hp : p < s.params.numPipes) (hst : st < s.params.numStages)
    (h : readSnap s.params name (s.snapUnit p st g) rest part = some x) :
    readState s name (p :: st :: g.ctorIdx :: rest) part = some x := by
  have gress : gressOf g.ctorIdx = some g := by cases g <;> rfl
  simp only [readState, gress, stageExists, hp, hst, decide_true, Bool.and_self, if_true, h]

theorem readState_counter (h : ∀ u, readSnap s.params name u [] 0 = none) (hp : p < s.params.numPipes)
    (hst : st < s.params.numStages) (hc : c < s.params.numCtrs) :
    readState s name [p, st, c] 0 = readCounter name (s.counter p st c) := by
  simp only [readState, h, ite_self, ctrIdx_of_lt hp hst hc]
  cases gressOf c <;> rfl

theorem readState_shadow {a w k : Nat} (h : ∀ u, readSnap s.params name u [w, k] 0 = none)
    (hp : p < s.params.numPipes) (hst : st < s.params.numStages) (ha : a < s.params.numStatsAlu)
    (hw : w < s.params.statsRamWords) (hk : k < 8) :
    readState s name [p, st, a, w, k] 0 = readShadow name (s.shadow p st a w k) := by
  have noCounter : ctrIdx s.params [p, st, a, w, k] = none := rfl
  simp only [readState, h, ite_self, noCounter, shadowIdx_of_lt hp hst ha hw hk]
  cases gressOf a <;> rfl

theorem exec_getField_of_read (hf : fieldParts s.params name idx = none) (hi : name ≠ .irqPending)
    (he : name ≠ .errorLog) (h : readState s name idx part = some x) :
    exec (.getField name idx part) s = answers (s.setResult (.field x)) := by
  rw [exec_getField, getFieldOp_of_some hi he]
  simp only [readField, hf, h]

end
end
end Sys2Proof.Machine
end

section
/-! The answers of `GET_FIELD`, the keys of `SET_CONFIG`, and the configuration interface as a whole. -/

namespace Sys2Proof.Machine

section
variable {s : State} {name : FieldName} {idx : List Nat} {part : Nat} {v x : BitVec 64} {p st : Nat}

/-! ### A part that is written, and its observers (R92, R417, R485) -/

/-- The caches of a stage are dropped by a write of one of its tEOP fields. -/
theorem cached_writeField {width : Nat} (h : isTeopField name = true) (k : List Nat) :
    (Store.get none (writeField name idx part width v s).teop.hdr k,
        Store.get none (writeField name idx part width v s).teop.teop k)
      = if k.take 2 = idx.take 2 then (none, none)
        else (Store.get none s.teop.hdr k, Store.get none s.teop.teop k) := by
  rw [teop_writeField h, get_dropStage, get_dropStage]
  split <;> rfl

/-! ### Host-writable state (R46, R203, R374, R385, R494) -/

theorem getField_counter {c : Nat} (hf : fieldParts s.params name [p, st, c] = none) (hi : name ≠ .irqPending)
    (he : name ≠ .errorLog) (hs : ∀ u, readSnap s.params name u [] 0 = none) (hp : p < s.params.numPipes)
    (hst : st < s.params.numStages) (hc : c < s.params.numCtrs)
    (h : readCounter name (s.counter p st c) = some x) :
    exec (.getField name [p, st, c] 0) s = answers (s.setResult (.field x)) :=
  exec_getField_of_read hf hi he ((readState_counter hs hp hst hc).trans h)

theorem getField_shadow {a w k : Nat} (hf : fieldParts s.params name [p, st, a, w, k] = none)
    (hi : name ≠ .irqPending) (he : name ≠ .errorLog) (hs : ∀ u, readSnap s.params name u [w, k] 0 = none)
    (hp : p < s.params.numPipes) (hst : st < s.params.numStages) (ha : a < s.params.numStatsAlu)
    (hw : w < s.params.statsRamWords) (hk : k < 8) (h : readShadow name (s.shadow p st a w k) = some x) :
    exec (.getField name [p, st, a, w, k] 0) s = answers (s.setResult (.field x)) :=
  exec_getField_of_read hf hi he ((readState_shadow hs hp hst ha hw hk).trans h)

theorem getField_snap {g : Gress} {rest : List Nat} (hf : fieldParts s.params name (p :: st :: g.ctorIdx :: rest) = none)
    (hi : name ≠ .irqPending) (he : name ≠ .errorLog) (hp : p < s.params.numPipes) (hst : st < s.params.numStages)
    (h : readSnap s.params name (s.snapUnit p st g) rest part = some x) :
    exec (.getField name (p :: st :: g.ctorIdx :: rest) part) s = answers (s.setResult (.field x)) :=
  exec_getField_of_read hf hi he (readState_snap hp hst h)

theorem readSnap_capBusHitAddr {params : Params} {r b : Nat} (u : SnapUnit) (hr : r < params.numRows)
    (hb : b < params.numMatchBuses) : readSnap params .capBusHitAddr u [r, b] 0
      = some ((Store.get 0 u.capBusHit [r, b]).setWidth 64) := by
  simp only [readSnap, hr, hb, and_self, if_true]

theorem readSnap_capPhv {params : Params} {i : Nat} (u : SnapUnit) (hi : i < phvCount params) :
    readSnap params .capPhv u [i] 0 = some (BitVec.ofNat 64 (Store.get 0 u.capPhv [i])) := by
  simp only [readSnap, hi, and_self, if_true]

theorem partsOf_length_pos {n : Nat} (h : 0 < n) : 0 < (partsOf n).length := by
  unfold partsOf
  split
  · simp
    omega
  · simp

theorem readSnap_capLtHit {params : Params} (u : SnapUnit) (h : 0 < params.numLt) :
    readSnap params .capLtHit u [] 0 = some (BitVec.ofNat 64 u.capLtHit) := by
  simp only [readSnap, partsOf_length_pos h, if_true, Nat.mul_zero, Nat.pow_zero, Nat.div_one]

theorem readSnap_capLtInhibit {params : Params} (u : SnapUnit) (h : 0 < params.numLt) :
    readSnap params .capLtInhibit u [] 0 = some (BitVec.ofNat 64 u.capLtInhibit) := by
  simp only [readSnap, partsOf_length_pos h, if_true, Nat.mul_zero, Nat.pow_zero, Nat.div_one]

/-! ### `SET_CONFIG` (R486) -/

/-- Whether a key exists does not depend on the value it is set to. -/
theorem setStrict_isSome (f : Strict) (key : String) (b : Bool) :
    (setStrict f key b).isSome = (setStrict f key true).isSome := by
  simp only [setStrict, apply_ite Option.isSome, Option.isSome_some, Option.isSome_none]

variable {key value : String}

theorem exec_setConfig_set {f : Strict} {b : Bool} (hf : setStrict s.strict key b = some f)
    (hb : parseBool value = some b) : exec (.setConfig key value) s = .next ((s.setStrict f).setResult .none) := by
  have known : (setStrict s.strict key true).isSome = true := by rw [← setStrict_isSome _ _ b, hf]; rfl
  obtain ⟨g, hg⟩ := Option.isSome_iff_exists.1 known
  refine outcome_of_ok (t := s.setStrict f) ?_
  simp only [look_bind, id, hg, hb, change_bind, hf, Option.getD_some]
  rfl

theorem exec_setConfig_unknown (h : setStrict s.strict key true = none) :
    exec (.setConfig key value) s = .next (s.setResult (.hostError (.unknownConfigKey key))) :=
  outcome_of_ok (by simp only [look_bind, id, h]; rfl)

theorem exec_setConfig_bad (h : setStrict s.strict key true ≠ none) (hb : parseBool value = none) :
    exec (.setConfig key value) s = .next (s.setResult (.hostError (.badConfigValue key value))) := by
  obtain ⟨g, hg⟩ := Option.ne_none_iff_exists'.1 h
  exact outcome_of_ok (by simp only [look_bind, id, hg, hb]; rfl)

end

/-- Settles O58, clause by clause: a field that is written and what observes it; a part and a name that do not exist;
host-writable state; the reads; `SET_CONFIG`. -/
theorem configurationReadsBack : Obligations.ConfigurationReadsBack := by
  intro s name idx part v
  refine ⟨fun parts width hparts hwidth => ?written,
    fun parts hparts hpart => exec_setField_of_none (setFieldOp_of_noPart hparts hpart),
    fun hparts hnone => exec_setField_of_none (setFieldOp_of_nothing hparts hnone),
    fun p hp st hst => ⟨fun c hc => ⟨?flags, ?value, ?popValue, ?fill⟩, fun a ha w hw k hk => ⟨?pkts, ?bytes⟩⟩,
    ⟨⟨_, exec_getField⟩, fun parts hparts => ⟨fun hpart => ?inside, fun hpart => ?outside⟩, ?nothing, rfl, rfl,
      fun p hp st hst => ⟨fun c hc => ?counters, fun a ha w hw k hk => ?shadows, fun g => ?captures⟩⟩,
    fun key value => ⟨fun f b hf hb => exec_setConfig_set hf hb, exec_setConfig_unknown, exec_setConfig_bad⟩⟩
  case written =>
    obtain ⟨wrote, reads⟩ := setField_part (v := v) hparts hwidth
    refine ⟨_, wrote, rfl, reads, fun n k hother => field_writeField_other hparts hother,
      congrArg (State.setResult · .ok) writeField_eq, ⟨fun hteop => ?_, fun hteop => ?_⟩, fun hsweep => ?_,
      fun hinterval hactive => ?_⟩
    · exact cached_writeField ((isTeopField_iff name).2 hteop)
    · exact teop_writeField_of_not (mt (isTeopField_iff name).1 hteop)
    · exact masksHold_writeField ((isSweepField_iff name).2 hsweep)
    · exact swp_writeField_of_not (mt (isSweepField_iff name).1 (not_or.2 ⟨hinterval, hactive⟩))
  case flags =>
    rw [← low_four_bits]
    exact exec_setField_counter rfl hp hst hc rfl
  case value => exact exec_setField_counter rfl hp hst hc rfl
  case popValue => exact exec_setField_counter rfl hp hst hc rfl
  case fill => exact exec_setField_counter rfl hp hst hc rfl
  case pkts => exact exec_setField_shadow rfl hp hst ha hw hk rfl
  case bytes => exact exec_setField_shadow rfl hp hst ha hw hk rfl
  case inside =>
    exact exec_getField.trans (congrArg (fun r => answers (s.setResult r)) (getFieldOp_of_part hparts hpart))
  case outside =>
    exact exec_getField.trans (congrArg (fun r => answers (s.setResult r)) (getFieldOp_of_noPart hparts hpart))
  case nothing =>
    intro hparts hread hirq herr
    have noField : readField s name idx part = none := by simp only [readField, hparts, hread]
    exact exec_getField.trans (congrArg (fun r => answers (s.setResult r)) (getFieldOp_of_none hirq herr noField))
  case counters =>
    exact ⟨getField_counter rfl nofun nofun (fun _ => rfl) hp hst hc rfl,
      getField_counter rfl nofun nofun (fun _ => rfl) hp hst hc rfl,
      getField_counter rfl nofun nofun (fun _ => rfl) hp hst hc rfl,
      getField_counter rfl nofun nofun (fun _ => rfl) hp hst hc rfl⟩
  case shadows =>
    exact ⟨getField_shadow rfl nofun nofun (fun _ => rfl) hp hst ha hw hk rfl,
      getField_shadow rfl nofun nofun (fun _ => rfl) hp hst ha hw hk rfl⟩
  case captures =>
    exact ⟨getField_snap rfl nofun nofun hp hst rfl, getField_snap rfl nofun nofun hp hst rfl,
      getField_snap rfl nofun nofun hp hst rfl, getField_snap rfl nofun nofun hp hst rfl,
      getField_snap rfl nofun nofun hp hst rfl,
      fun r hr bus hbus => getField_snap rfl nofun nofun hp hst (readSnap_capBusHitAddr _ hr hbus),
      fun hlt => ⟨getField_snap rfl nofun nofun hp hst (readSnap_capLtHit _ hlt),
        getField_snap rfl nofun nofun hp hst (readSnap_capLtInhibit _ hlt)⟩,
      fun i hi => getField_snap rfl nofun nofun hp hst (readSnap_capPhv _ hi)⟩

end Sys2Proof.Machine
end

section
/-! The memory: every step keeps it canonical, and the host's accesses read back what they wrote. -/

namespace Sys2Proof.Machine

/-- Settles O8: of every operation `exec_sound` says that it writes the memory through `Memory.write` alone, and a
write keeps the keys rising and no entry 0 (`Memory.wf_write`). -/
theorem everyStepKeepsMemoryCanonical : Obligations.EveryStepKeepsMemoryCanonical :=
  fun _ _ hs h => (step_sound h).memory hs

section
variable {s : State} {a : RamAddr}

/-! ### The host's access is the shared one (R71) -/

theorem exec_ramWrite_word (ht : a.space ≠ .tcam) (hg : a.space ≠ .gw) (w : Word) :
    exec (.ramWrite a (.word w)) s = outcome (memWrite a w >>= fun _ => pure .none) s := by
  obtain ⟨space, pipe, stage, unit, col, index⟩ := a
  cases space with
  | tcam => exact absurd rfl ht
  | gw => exact absurd rfl hg
  | sram | stats | salu | sel => rfl

theorem exec_ramRead_word (ht : a.space ≠ .tcam) (hg : a.space ≠ .gw) :
    exec (.ramRead a) s = outcome (memRead a >>= fun w => pure (.ram (.word w))) s := by
  obtain ⟨space, pipe, stage, unit, col, index⟩ := a
  cases space with
  | tcam => exact absurd rfl ht
  | gw => exact absurd rfl hg
  | sram | stats | salu | sel => rfl

/-- The write of an entry, where `f` puts the entry at its place. -/
abbrev entryWrite (a : RamAddr) (f : State → State) : M Ret :=
  entryInRange a >>= fun ok => if ok then change f >>= fun _ => pure .none else pure .none

theorem exec_ramWrite_tcam (h : a.space = .tcam) (e : TcamEntry) :
    exec (.ramWrite a (.tcam e)) s = outcome (entryWrite a fun s =>
      s.setTcam (Store.set {} s.tcam [a.pipe, a.stage, a.index] (tcamCut s.params e))) s := by
  obtain ⟨space, pipe, stage, unit, col, index⟩ := a
  cases h
  rfl

theorem exec_ramWrite_gw (h : a.space = .gw) (e : GwEntry) :
    exec (.ramWrite a (.gw e)) s = outcome (entryWrite a fun s =>
      s.setGw (Store.set {} s.gw [a.pipe, a.stage, a.unit, a.index] (gwCut s.params e))) s := by
  obtain ⟨space, pipe, stage, unit, col, index⟩ := a
  cases h
  rfl

theorem exec_ramRead_tcam (h : a.space = .tcam) :
    exec (.ramRead a) s = outcome (entryInRange a >>= fun ok =>
      look fun s => .ram (.tcam (if ok then s.tcamEntry a.pipe a.stage a.index else {}))) s := by
  obtain ⟨space, pipe, stage, unit, col, index⟩ := a
  cases h
  rfl

theorem exec_ramRead_gw (h : a.space = .gw) :
    exec (.ramRead a) s = outcome (entryInRange a >>= fun ok =>
      look fun s => .ram (.gw (if ok then s.gwEntry a.pipe a.stage a.unit a.index else {}))) s := by
  obtain ⟨space, pipe, stage, unit, col, index⟩ := a
  cases h
  rfl

/-! ### An access in range (R70, R71) -/

theorem entryInRange_of_inRange (h : ramInRange s.params a = true) : entryInRange a s = .ok true s := by
  simp [entryInRange, h]

theorem ramRead_word_of_inRange {w : Word} (ht : a.space ≠ .tcam) (hg : a.space ≠ .gw)
    (h : ramInRange s.params a = true) (hw : s.mem.read a = w) :
    exec (.ramRead a) s = .next (s.setResult (.ram (.word w))) := by
  rw [exec_ramRead_word ht hg, ← hw]
  exact outcome_of_ok (bind_of_ok s _ (memRead_of_inRange h))

theorem ramRead_tcam_of_inRange {e : TcamEntry} (hs : a.space = .tcam) (h : ramInRange s.params a = true)
    (he : s.tcamEntry a.pipe a.stage a.index = e) : exec (.ramRead a) s = .next (s.setResult (.ram (.tcam e))) := by
  rw [exec_ramRead_tcam hs, ← he]
  exact outcome_of_ok (bind_of_ok s _ (entryInRange_of_inRange h))

theorem ramRead_gw_of_inRange {e : GwEntry} (hs : a.space = .gw) (h : ramInRange s.params a = true)
    (he : s.gwEntry a.pipe a.stage a.unit a.index = e) : exec (.ramRead a) s = .next (s.setResult (.ram (.gw e))) := by
  rw [exec_ramRead_gw hs, ← he]
  exact outcome_of_ok (bind_of_ok s _ (entryInRange_of_inRange h))

theorem ramWrite_word_of_inRange (ht : a.space ≠ .tcam) (hg : a.space ≠ .gw) (w : Word)
    (h : ramInRange s.params a = true) :
    exec (.ramWrite a (.word w)) s = .next ((s.setMem (s.mem.write a w)).setResult .none) :=
  (exec_ramWrite_word ht hg w).trans (outcome_of_ok (bind_of_ok s _ (memWrite_of_inRange w h)))

theorem entryWrite_of_inRange (f : State → State) (h : ramInRange s.params a = true) :
    outcome (entryWrite a f) s = .next ((f s).setResult .none) :=
  outcome_of_ok (bind_of_ok s _ (entryInRange_of_inRange h))

/-- An entry within the launch's width is not cut. -/
theorem ramWrite_tcam_of_inRange (hs : a.space = .tcam) {e : TcamEntry} (h : ramInRange s.params a = true)
    (h0 : e.w0 < 2 ^ s.params.tcamW) (h1 : e.w1 < 2 ^ s.params.tcamW) :
    exec (.ramWrite a (.tcam e)) s
      = .next ((s.setTcam (Store.set {} s.tcam [a.pipe, a.stage, a.index] e)).setResult .none) := by
  have whole : tcamCut s.params e = e := by simp only [tcamCut, Nat.mod_eq_of_lt h0, Nat.mod_eq_of_lt h1]
  rw [exec_ramWrite_tcam hs, entryWrite_of_inRange _ h, whole]

/-- An entry within the launch's width is not cut. -/
theorem ramWrite_gw_of_inRange (hs : a.space = .gw) {e : GwEntry} (h : ramInRange s.params a = true)
    (h0 : e.stored < 2 ^ s.params.gwW) (h1 : e.m01 < 2 ^ s.params.gwW) (h2 : e.m10 < 2 ^ s.params.gwW) :
    exec (.ramWrite a (.gw e)) s
      = .next ((s.setGw (Store.set {} s.gw [a.pipe, a.stage, a.unit, a.index] e)).setResult .none) := by
  have whole : gwCut s.params e = e := by
    simp only [gwCut, Nat.mod_eq_of_lt h0, Nat.mod_eq_of_lt h1, Nat.mod_eq_of_lt h2]
  rw [exec_ramWrite_gw hs, entryWrite_of_inRange _ h, whole]

/-! ### An access out of range (R71, R473, R490) -/

/-- `ERR_ADDR_RANGE` is raised; relaxed, the access goes on and answers `r`. -/
def AnswersRangeError (s : State) (a : RamAddr) (o : Host.Outcome State Fault Refusal) (r : Ret) : Prop :=
  (s.strict.sramVpn = false → o = .next (s.afterRaise (some (a.pipe, a.stage)) (.addrRange a))) ∧
  (s.strict.sramVpn = true → o = .next ((s.afterRaise (some (a.pipe, a.stage)) (.addrRange a)).setResult r))

/-- The shared shape of the accesses: the first part raises and stands for `x`, the second answers from `x` alone. -/
theorem outcome_answersRangeError {α : Type} {m : M α} {x : α} {f : α → M Ret} {r : Ret}
    (hm : m s = (raise (ramPlace a) (.addrRange a) >>= fun _ => pure x) s) (hf : ∀ t, f x t = .ok r t) :
    AnswersRangeError s a (outcome (m >>= f) s) r := by
  refine ⟨fun hstrict => ?strict, fun hrelaxed => ?relaxed⟩
  case strict =>
    have stops : fatal s.strict (.addrRange a) = true := by rw [fatal, hstrict]; rfl
    have raised := hm.trans (bind_of_error s _ (raise_of_fatal (ramPlace a) stops))
    rw [outcome_of_faulted (bind_of_error s f raised), State.afterRaise_of_fatal _ stops]
    rfl
  case relaxed =>
    have goesOn : fatal s.strict (.addrRange a) = false := by rw [fatal, hrelaxed]; rfl
    have raised := hm.trans (bind_of_ok s _ (raise_of_relaxed (ramPlace a) goesOn))
    rw [outcome_of_ok ((bind_of_ok s f raised).trans (hf _)), State.afterRaise_of_relaxed _ goesOn]
    rfl

theorem entryInRange_of_outOfRange (h : ramInRange s.params a = false) :
    entryInRange a s = (raise (ramPlace a) (.addrRange a) >>= fun _ => pure false) s := by
  simp [entryInRange, h]

theorem ramRead_word_of_outOfRange (ht : a.space ≠ .tcam) (hg : a.space ≠ .gw) (h : ramInRange s.params a = false) :
    AnswersRangeError s a (exec (.ramRead a) s) (.ram (.word 0)) :=
  exec_ramRead_word ht hg ▸ outcome_answersRangeError (memRead_of_outOfRange h) fun _ => rfl

theorem ramWrite_word_of_outOfRange (ht : a.space ≠ .tcam) (hg : a.space ≠ .gw) (w : Word)
    (h : ramInRange s.params a = false) : AnswersRangeError s a (exec (.ramWrite a (.word w)) s) .none := by
  have dropped : memWrite a w s = (raise (ramPlace a) (.addrRange a) >>= fun _ => pure ()) s := by
    rw [memWrite_of_outOfRange w h, bind_pure_unit]
  exact exec_ramWrite_word ht hg w ▸ outcome_answersRangeError dropped fun _ => rfl

theorem entryWrite_of_outOfRange (f : State → State) (h : ramInRange s.params a = false) :
    AnswersRangeError s a (outcome (entryWrite a f) s) .none :=
  outcome_answersRangeError (entryInRange_of_outOfRange h) fun _ => rfl

theorem ramRead_tcam_of_outOfRange (hs : a.space = .tcam) (h : ramInRange s.params a = false) :
    AnswersRangeError s a (exec (.ramRead a) s) (.ram (.tcam {})) :=
  exec_ramRead_tcam hs ▸ outcome_answersRangeError (entryInRange_of_outOfRange h) fun _ => rfl

theorem ramRead_gw_of_outOfRange (hs : a.space = .gw) (h : ramInRange s.params a = false) :
    AnswersRangeError s a (exec (.ramRead a) s) (.ram (.gw {})) :=
  exec_ramRead_gw hs ▸ outcome_answersRangeError (entryInRange_of_outOfRange h) fun _ => rfl

/-- The error of a write and of a read, gathered under the one flag that both depend on. -/
theorem AnswersRangeError.pair {o o' : Host.Outcome State Fault Refusal} {r r' : Ret}
    (h : AnswersRangeError s a o r) (h' : AnswersRangeError s a o' r') :
    let err := s.afterRaise (some (a.pipe, a.stage)) (.addrRange a)
    (s.strict.sramVpn = false → o = .next err ∧ o' = .next err) ∧
    (s.strict.sramVpn = true → o = .next (err.setResult r) ∧ o' = .next (err.setResult r')) :=
  ⟨fun hs => ⟨h.1 hs, h'.1 hs⟩, fun hs => ⟨h.2 hs, h'.2 hs⟩⟩

end

/-- Settles O59, clause by clause: a read; the three kinds of write, each with its read back and its frame; the range
error of a word and of an entry. -/
theorem ramAccessesReadBack : Obligations.RamAccessesReadBack := by
  intro s a
  refine ⟨fun h => ?read, fun w ht hg h => ?word, fun e hs h h0 h1 => ?tcam, fun e hs h h0 h1 h2 => ?gw,
    fun w ht hg h => ?wordError, fun x hx h => ?entryError⟩
  case read =>
    cases hs : a.space with
    | tcam => exact ramRead_tcam_of_inRange hs h rfl
    | gw => exact ramRead_gw_of_inRange hs h rfl
    | sram | stats | salu | sel => exact ramRead_word_of_inRange (by simp [hs]) (by simp [hs]) h rfl
  case word =>
    exact ⟨_, ramWrite_word_of_inRange ht hg w h, rfl,
      ramRead_word_of_inRange ht hg h (Memory.read_write_same s.mem a w),
      fun b hb => Memory.read_write_other s.mem w hb⟩
  case tcam =>
    exact ⟨_, ramWrite_tcam_of_inRange hs h h0 h1, rfl,
      ramRead_tcam_of_inRange hs h (Store.get_set_same _ s.tcam _ e),
      fun p st i hk => Store.get_set_other _ s.tcam e hk⟩
  case gw =>
    exact ⟨_, ramWrite_gw_of_inRange hs h h0 h1 h2, rfl,
      ramRead_gw_of_inRange hs h (Store.get_set_same _ s.gw _ e),
      fun p st r i hk => Store.get_set_other _ s.gw e hk⟩
  case wordError => exact (ramWrite_word_of_outOfRange ht hg w h).pair (ramRead_word_of_outOfRange ht hg h)
  case entryError =>
    rcases hx with ⟨e, hs, rfl⟩ | ⟨e, hs, rfl⟩
    · rw [exec_ramWrite_tcam hs, if_pos hs]
      exact (entryWrite_of_outOfRange _ h).pair (ramRead_tcam_of_outOfRange hs h)
    · rw [exec_ramWrite_gw hs, if_neg (by simp [hs])]
      exact (entryWrite_of_outOfRange _ h).pair (ramRead_gw_of_outOfRange hs h)

end Sys2Proof.Machine
end

section
/-! SUPPORT. The fields of an encoded word: each is read back from the word that is laid out, and a word with no
reserved bit is laid out again from what is read (R104 to R116). -/

namespace Sys2Proof

/-! ### One field -/

theorem wordField_eq {w lo n : Nat} {x : BitVec n} (h : w / 2 ^ lo % 2 ^ n = x.toNat) : wordField w lo n = x :=
  BitVec.eq_of_toNat_eq ((BitVec.toNat_ofNat _ _).trans h)

theorem toNat_wordField (w lo n : Nat) : (wordField w lo n).toNat = w / 2 ^ lo % 2 ^ n := BitVec.toNat_ofNat _ _

theorem wordBit_eq {w i : Nat} {b : Bool} (h : w / 2 ^ i % 2 = b.toNat) : wordBit w i = b := by
  rw [wordBit, h]
  cases b <;> rfl

theorem toNat_wordBit (w i : Nat) : (wordBit w i).toNat = w / 2 ^ i % 2 := by
  unfold wordBit
  rcases Nat.mod_two_eq_zero_or_one (w / 2 ^ i) with h | h <;> rw [h] <;> rfl

theorem wordBit_eq_true {w i : Nat} : wordBit w i = true ↔ w / 2 ^ i % 2 = 1 := beq_iff_eq

theorem wordBit_eq_false {w i : Nat} : wordBit w i = false ↔ w / 2 ^ i % 2 = 0 := by
  rw [← Bool.not_eq_true, wordBit_eq_true]
  omega

/-! ### The fields of each format -/

theorem saFields_encode (a : SaFields) (op : Nat) : saFields (encodeSaFields a op) = a := by
  obtain ⟨subword, word⟩ := a
  have := subword.isLt
  have := word.isLt
  simp only [saFields, encodeSaFields, SaFields.mk.injEq]
  exact ⟨wordField_eq (by omega), wordField_eq (by omega)⟩

theorem maFields_encode (a : MaFields) {op : Nat} (h : op < 8) : maFields (encodeMaFields a op) = a := by
  obtain ⟨sub, word, instr⟩ := a
  have := sub.isLt
  have := word.isLt
  have := instr.isLt
  simp only [maFields, encodeMaFields, MaFields.mk.injEq]
  exact ⟨wordField_eq (by omega), wordField_eq (by omega), wordField_eq (by omega)⟩

theorem cmpFields_encode (c : CmpFields) {cop : Nat} (h : cop < 16) :
    cmpFields c.unit (encodeCmpFields c cop) = c := by
  obtain ⟨unit, srcA, srcB, bNeg, cEn, sbusAnd, sbusOr, sbusInv⟩ := c
  have := srcA.isLt
  have := srcB.isLt
  have := bNeg.toNat_le
  have := cEn.toNat_le
  have := sbusAnd.toNat_le
  have := sbusOr.toNat_le
  have := sbusInv.toNat_le
  simp only [cmpFields, encodeCmpFields, CmpFields.mk.injEq, true_and]
  exact ⟨wordField_eq (by omega), wordField_eq (by omega), wordBit_eq (by omega), wordBit_eq (by omega),
    wordBit_eq (by omega), wordBit_eq (by omega), wordBit_eq (by omega)⟩

theorem auFields_encode (u : AuFields) {aop : Nat} (h : aop < 32) : auFields u.half (encodeAuFields u aop) = u := by
  obtain ⟨half, srcA, srcB, pred⟩ := u
  have := srcA.isLt
  have := srcB.isLt
  have := pred.isLt
  simp only [auFields, encodeAuFields, AuFields.mk.injEq, true_and]
  exact ⟨wordField_eq (by omega), wordField_eq (by omega), wordField_eq (by omega)⟩

theorem outFields_encode (o : OutFields) {sel : Nat} (h : sel < 16) : outFields (encodeOutFields o sel) = o := by
  obtain ⟨pred⟩ := o
  have := pred.isLt
  simp only [outFields, encodeOutFields, OutFields.mk.injEq]
  exact wordField_eq (by omega)

theorem miscFields_encode (m : MiscFields) {mode : Nat} (bitOp : Nat) (h : mode < 4) :
    miscFields (encodeMiscFields m mode bitOp) = m := by
  obtain ⟨width, divEn, divSrcA, divSrcB⟩ := m
  have := width.isLt
  have := divEn.toNat_le
  have := divSrcA.isLt
  have := divSrcB.isLt
  simp only [miscFields, encodeMiscFields, MiscFields.mk.injEq]
  exact ⟨wordField_eq (by omega), wordBit_eq (by omega), wordField_eq (by omega), wordField_eq (by omega)⟩

theorem divFields_encode (d : DivFields) : divFields (encodeDivFields d) = d := by
  obtain ⟨mode, width, divSrcA, divSrcB, bitOp⟩ := d
  have := mode.isLt
  have := width.isLt
  have := divSrcA.isLt
  have := divSrcB.isLt
  have := bitOp.isLt
  simp only [divFields, encodeDivFields, DivFields.mk.injEq]
  exact ⟨wordField_eq (by omega), wordField_eq (by omega), wordField_eq (by omega), wordField_eq (by omega),
    wordField_eq (by omega)⟩

theorem mmFields_encode (m : MmFields) {isMax : Nat} (h : isMax < 2) : mmFields (encodeMmFields m isMax) = m := by
  obtain ⟨size16, maskSrc, tieHigh, post, delta, constMask⟩ := m
  have := size16.toNat_le
  have := maskSrc.toNat_le
  have := tieHigh.toNat_le
  have := post.isLt
  have := delta.isLt
  have := constMask.isLt
  simp only [mmFields, encodeMmFields, MmFields.mk.injEq]
  exact ⟨wordBit_eq (by omega), wordBit_eq (by omega), wordBit_eq (by omega), wordField_eq (by omega),
    wordField_eq (by omega), wordField_eq (by omega)⟩

/-- The bit that an address type is written as (R116). -/
def atypeBit (a : AType) : Bool := a == .stats

theorem encodeOpFields_eq (o : OpFields) (opcode : Nat) : encodeOpFields o opcode
    = opcode + 2 ^ 4 * (atypeBit o.atype).toNat + 2 ^ 8 * o.epoch.toNat + 2 ^ 16 * o.lt.toNat
      + 2 ^ 20 * o.stage.toNat + 2 ^ 28 * o.pipe.toNat + 2 ^ 32 * o.arg.toNat := by
  unfold encodeOpFields
  cases o.atype <;> rfl

theorem opFields_encode (o : OpFields) {opcode : Nat} (h : opcode < 16) : opFields (encodeOpFields o opcode) = o := by
  rw [encodeOpFields_eq]
  obtain ⟨atype, epoch, lt, stage, pipe, arg⟩ := o
  have := (atypeBit atype).toNat_le
  have := epoch.isLt
  have := lt.isLt
  have := stage.isLt
  have := pipe.isLt
  have := arg.isLt
  have bit : (if atypeBit atype = true then AType.stats else AType.idle) = atype := by cases atype <;> rfl
  simp only [opFields, OpFields.mk.injEq]
  exact ⟨by rw [wordBit_eq (b := atypeBit atype) (by omega), bit], wordField_eq (by omega), wordField_eq (by omega),
    wordField_eq (by omega), wordField_eq (by omega), wordField_eq (by omega)⟩

/-! ### A word without reserved bits is the word of its fields -/

theorem encodeSaFields_saFields {w : Nat} (hw : w < 2 ^ 24) (hen : wordBit w 23 = true) (hz : wordBit w 22 = false) :
    encodeSaFields (saFields w) (w / 2 ^ 20 % 4) = w := by
  rw [wordBit_eq_true] at hen
  rw [wordBit_eq_false] at hz
  simp only [encodeSaFields, saFields, toNat_wordField]
  omega

theorem encodeMaFields_maFields {w : Nat} (hw : w < 2 ^ 32) (hen : wordBit w 31 = true) (hz : w / 2 ^ 29 % 4 = 0) :
    encodeMaFields (maFields w) (w / 2 ^ 24 % 8) = w := by
  rw [wordBit_eq_true] at hen
  simp only [encodeMaFields, maFields, toNat_wordField]
  omega

theorem encodeCmpFields_cmpFields (unit : CmpUnit) {w : Nat} (hw : w < 2 ^ 16) (hz : wordBit w 15 = false) :
    encodeCmpFields (cmpFields unit w) (w % 16) = w := by
  rw [wordBit_eq_false] at hz
  simp only [encodeCmpFields, cmpFields, toNat_wordField, toNat_wordBit]
  omega

theorem encodeAuFields_auFields (half : Half) {w : Nat} (hw : w < 2 ^ 16) (hz : wordBit w 15 = false) :
    encodeAuFields (auFields half w) (w % 32) = w := by
  rw [wordBit_eq_false] at hz
  simp only [encodeAuFields, auFields, toNat_wordField]
  omega

theorem encodeOutFields_outFields {w : Nat} (hw : w < 2 ^ 16) (hz : w / 2 ^ 8 % 256 = 0) :
    encodeOutFields (outFields w) (w % 16) = w := by
  simp only [encodeOutFields, outFields, toNat_wordField]
  omega

theorem encodeMiscFields_miscFields {w : Nat} (hw : w < 2 ^ 16) (hz : w / 2 ^ 14 % 4 = 0) :
    encodeMiscFields (miscFields w) (w % 4) (w / 2 ^ 11 % 8) = w := by
  simp only [encodeMiscFields, miscFields, toNat_wordField, toNat_wordBit]
  omega

theorem encodeDivFields_divFields {w : Nat} (hw : w < 2 ^ 16) (hz : w / 2 ^ 14 % 4 = 0) (hen : wordBit w 4 = true) :
    encodeDivFields (divFields w) = w := by
  rw [wordBit_eq_true] at hen
  simp only [encodeDivFields, divFields, toNat_wordField]
  omega

theorem encodeMmFields_mmFields {w : Nat} (hw : w < 2 ^ 32) (hz : w / 2 ^ 6 % 4 = 0) :
    encodeMmFields (mmFields w) (wordBit w 0).toNat = w := by
  simp only [encodeMmFields, mmFields, toNat_wordField, toNat_wordBit]
  omega

theorem atypeBit_opFields (w : Nat) : atypeBit (opFields w).atype = wordBit w 4 := by
  simp only [opFields]
  cases wordBit w 4 <;> rfl

theorem encodeOpFields_opFields {w : Nat} (hw : w < 2 ^ 96) (hz : w / 2 ^ 5 % 8 = 0) :
    encodeOpFields (opFields w) (w % 16) = w := by
  rw [encodeOpFields_eq, atypeBit_opFields]
  simp only [opFields, toNat_wordField, toNat_wordBit]
  omega

/-! ### The reserved bits and the code of an encoded word -/

theorem saWord_bits (a : SaFields) {op : Nat} (h : op < 4) :
    wordBit (encodeSaFields a op) 23 = true ∧ wordBit (encodeSaFields a op) 22 = false ∧
      encodeSaFields a op / 2 ^ 20 % 4 = op := by
  have := a.subword.isLt
  have := a.word.isLt
  rw [wordBit_eq_true, wordBit_eq_false, encodeSaFields]
  omega

theorem maWord_bits (a : MaFields) {op : Nat} (h : op < 8) :
    wordBit (encodeMaFields a op) 31 = true ∧ encodeMaFields a op / 2 ^ 29 % 4 = 0 ∧
      encodeMaFields a op / 2 ^ 24 % 8 = op := by
  have := a.sub.isLt
  have := a.word.isLt
  have := a.instr.isLt
  rw [wordBit_eq_true, encodeMaFields]
  omega

theorem cmpWord_bits (c : CmpFields) {cop : Nat} (h : cop < 16) :
    wordBit (encodeCmpFields c cop) 15 = false ∧ encodeCmpFields c cop % 16 = cop := by
  have := c.srcA.isLt
  have := c.srcB.isLt
  have := c.bNeg.toNat_le
  have := c.cEn.toNat_le
  have := c.sbusAnd.toNat_le
  have := c.sbusOr.toNat_le
  have := c.sbusInv.toNat_le
  rw [wordBit_eq_false, encodeCmpFields]
  omega

theorem auWord_bits (u : AuFields) {aop : Nat} (h : aop < 32) :
    wordBit (encodeAuFields u aop) 15 = false ∧ encodeAuFields u aop % 32 = aop := by
  have := u.srcA.isLt
  have := u.srcB.isLt
  have := u.pred.isLt
  rw [wordBit_eq_false, encodeAuFields]
  omega

theorem outWord_bits (o : OutFields) {sel : Nat} (h : sel < 16) :
    encodeOutFields o sel / 2 ^ 8 % 256 = 0 ∧ encodeOutFields o sel % 16 = sel := by
  have := o.pred.isLt
  rw [encodeOutFields]
  omega

theorem miscWord_bits (m : MiscFields) {mode bitOp : Nat} (h : mode < 4) (hb : bitOp < 8) :
    encodeMiscFields m mode bitOp / 2 ^ 14 % 4 = 0 ∧ encodeMiscFields m mode bitOp % 4 = mode ∧
      encodeMiscFields m mode bitOp / 2 ^ 11 % 8 = bitOp := by
  have := m.width.isLt
  have := m.divEn.toNat_le
  have := m.divSrcA.isLt
  have := m.divSrcB.isLt
  rw [encodeMiscFields]
  omega

theorem divWord_bits (d : DivFields) :
    encodeDivFields d / 2 ^ 14 % 4 = 0 ∧ wordBit (encodeDivFields d) 4 = true := by
  have := d.mode.isLt
  have := d.width.isLt
  have := d.divSrcA.isLt
  have := d.divSrcB.isLt
  have := d.bitOp.isLt
  rw [wordBit_eq_true, encodeDivFields]
  omega

theorem mmWord_bits (m : MmFields) (isMax : Bool) :
    encodeMmFields m isMax.toNat / 2 ^ 6 % 4 = 0 ∧ wordBit (encodeMmFields m isMax.toNat) 0 = isMax := by
  have := isMax.toNat_le
  have := m.size16.toNat_le
  have := m.maskSrc.toNat_le
  have := m.tieHigh.toNat_le
  have := m.post.isLt
  have := m.delta.isLt
  refine ⟨?_, wordBit_eq ?_⟩ <;> rw [encodeMmFields] <;> omega

theorem opWord_bits (o : OpFields) {opcode : Nat} (h : opcode < 16) :
    encodeOpFields o opcode / 2 ^ 5 % 8 = 0 ∧ encodeOpFields o opcode % 16 = opcode := by
  have := (atypeBit o.atype).toNat_le
  rw [encodeOpFields_eq]
  omega

end Sys2Proof
end

section
/-! The decoder of each format and the encoder undo each other (R104 to R119). -/

namespace Sys2Proof

/-! ### A word in range is read by its format's decoder -/

theorem decode_of_lt {c : Coded} (h : c.word < 2 ^ c.format.width) : decode c = match c.format with
    | .sa => decodeSa c.word
    | .ma => decodeMa c.word
    | .cmp unit => decodeCmp unit c.word
    | .au half => decodeAu half c.word
    | .out => decodeOut c.word
    | .misc => decodeMisc c.word
    | .miscDiv => decodeMiscDiv c.word
    | .mm => decodeMm c.word
    | .op => decodeOp c.word
    | .hc => decodeHc c.word c.args :=
  (if_neg (Nat.not_le.2 h)).trans rfl

theorem lt_of_decode {c : Coded} {i : Instr} (h : decode c = .ok i) : c.word < 2 ^ c.format.width := by
  by_contra hge
  rw [decode, if_pos (Nat.not_lt.1 hge)] at h
  cases h

/-! ### From the operation to the word and back

Each lemma reduces the decoding of an encoded word to the row of the format's table that its code selects. -/

section
variable {i : Instr}

theorem decode_encodeSa {a : SaFields} {op : Nat} (h : op < 4)
    (row : ∀ w, wordBit w 23 = true → wordBit w 22 = false → w / 2 ^ 20 % 4 = op → saFields w = a →
      decodeSa w = .ok i) : decode { format := .sa, word := encodeSaFields a op } = .ok i := by
  obtain ⟨hen, hz, hcode⟩ := saWord_bits a h
  exact (decode_of_lt (Laws.Coverage.encodeSaFields_lt a h)).trans (row _ hen hz hcode (saFields_encode a op))

theorem decode_encodeMa {a : MaFields} {op : Nat} (h : op < 8)
    (row : ∀ w, wordBit w 31 = true → w / 2 ^ 29 % 4 = 0 → w / 2 ^ 24 % 8 = op → maFields w = a →
      decodeMa w = .ok i) : decode { format := .ma, word := encodeMaFields a op } = .ok i := by
  obtain ⟨hen, hz, hcode⟩ := maWord_bits a h
  exact (decode_of_lt (Laws.Coverage.encodeMaFields_lt a h)).trans (row _ hen hz hcode (maFields_encode a h))

theorem decode_encodeCmp {c : CmpFields} {cop : Nat} (h : cop < 16)
    (row : ∀ w, wordBit w 15 = false → w % 16 = cop → cmpFields c.unit w = c → decodeCmp c.unit w = .ok i) :
    decode { format := .cmp c.unit, word := encodeCmpFields c cop } = .ok i := by
  obtain ⟨hz, hcode⟩ := cmpWord_bits c h
  exact (decode_of_lt (Laws.Coverage.encodeCmpFields_lt c h)).trans (row _ hz hcode (cmpFields_encode c h))

theorem decode_encodeAu {u : AuFields} {aop : Nat} (h : aop < 32)
    (row : ∀ w, wordBit w 15 = false → w % 32 = aop → auFields u.half w = u → decodeAu u.half w = .ok i) :
    decode { format := .au u.half, word := encodeAuFields u aop } = .ok i := by
  obtain ⟨hz, hcode⟩ := auWord_bits u h
  exact (decode_of_lt (Laws.Coverage.encodeAuFields_lt u h)).trans (row _ hz hcode (auFields_encode u h))

theorem decode_encodeOut {o : OutFields} {sel : Nat} (h : sel < 16)
    (row : ∀ w, w / 2 ^ 8 % 256 = 0 → w % 16 = sel → outFields w = o → decodeOut w = .ok i) :
    decode { format := .out, word := encodeOutFields o sel } = .ok i := by
  obtain ⟨hz, hcode⟩ := outWord_bits o h
  exact (decode_of_lt (Laws.Coverage.encodeOutFields_lt o h)).trans (row _ hz hcode (outFields_encode o h))

theorem decode_encodeMisc {m : MiscFields} {mode bitOp : Nat} (h : mode < 4) (hb : bitOp < 8)
    (row : ∀ w, w / 2 ^ 14 % 4 = 0 → w % 4 = mode → w / 2 ^ 11 % 8 = bitOp → miscFields w = m →
      decodeMisc w = .ok i) : decode { format := .misc, word := encodeMiscFields m mode bitOp } = .ok i := by
  obtain ⟨hz, hmode, hbit⟩ := miscWord_bits m h hb
  exact (decode_of_lt (Laws.Coverage.encodeMiscFields_lt m h hb)).trans
    (row _ hz hmode hbit (miscFields_encode m bitOp h))

theorem decode_encodeMm {m : MmFields} (isMax : Bool)
    (row : ∀ w, w / 2 ^ 6 % 4 = 0 → wordBit w 0 = isMax → mmFields w = m → decodeMm w = .ok i) :
    decode { format := .mm, word := encodeMmFields m isMax.toNat } = .ok i := by
  obtain ⟨hz, hmax⟩ := mmWord_bits m isMax
  exact (decode_of_lt (Laws.Coverage.encodeMmFields_lt m isMax.toNat_lt)).trans
    (row _ hz hmax (mmFields_encode m isMax.toNat_lt))

theorem decode_encodeOp {o : OpFields} {opcode : Nat} (h : opcode < 16)
    (row : ∀ w, w / 2 ^ 5 % 8 = 0 → w % 16 = opcode → opFields w = o → decodeOp w = .ok i) :
    decode { format := .op, word := encodeOpFields o opcode } = .ok i := by
  obtain ⟨hz, hcode⟩ := opWord_bits o h
  exact (decode_of_lt (Laws.Coverage.encodeOpFields_lt o h)).trans (row _ hz hcode (opFields_encode o h))

theorem decode_divMod (d : DivFields) : decode { format := .miscDiv, word := encodeDivFields d } = .ok (.divMod d) := by
  obtain ⟨hz, hen⟩ := divWord_bits d
  refine (decode_of_lt (Laws.Coverage.encodeDivFields_lt d)).trans ?_
  simp only [decodeMiscDiv, hz, hen, divFields_encode]
  rfl

/-- A disabled address is its bits below the enable bit (R120). -/
theorem decode_statsDisabled (rest : BitVec 23) :
    decode { format := .sa, word := rest.toNat } = .ok (.statsDisabled rest) := by
  have hlt := rest.isLt
  have off : wordBit rest.toNat 23 = false := by rw [wordBit_eq_false]; omega
  have back : wordField rest.toNat 0 23 = rest := wordField_eq (by omega)
  refine (decode_of_lt (show rest.toNat < 2 ^ 24 by omega)).trans ?_
  simp only [decodeSa, off, back]
  rfl

theorem decode_maDisabled (rest : BitVec 31) :
    decode { format := .ma, word := rest.toNat } = .ok (.maDisabled rest) := by
  have hlt := rest.isLt
  have off : wordBit rest.toNat 31 = false := by rw [wordBit_eq_false]; omega
  have back : wordField rest.toNat 0 31 = rest := wordField_eq (by omega)
  refine (decode_of_lt (show rest.toNat < 2 ^ 32 by omega)).trans ?_
  simp only [decodeMa, off, back]
  rfl

/-- What an operation is encoded as decodes to the operation. -/
theorem decode_of_encode {c : Coded} (h : encode i = some c) : decode c = .ok i := by
  cases i
  case statsNop a | stats a | cfgRd a | cfgRdclr a =>
    cases h
    exact decode_encodeSa (by decide) fun w hen hz hcode hf => by simp only [decodeSa, hen, hz, hcode, hf]; rfl
  case statsDisabled rest =>
    cases h
    exact decode_statsDisabled rest
  case maNop a | saluExec a | selExec a | maCfgRd a =>
    cases h
    exact decode_encodeMa (by decide) fun w hen hz hcode hf => by simp only [decodeMa, hen, hz, hcode, hf]; rfl
  case maDisabled rest =>
    cases h
    exact decode_maDisabled rest
  case cmpEq c | cmpNe c | cmpDisabled c | cmpGtS c | cmpGeS c | cmpLtS c | cmpLeS c | cmpGtU c | cmpGeU c | cmpLtU c
      | cmpLeU c | cmpGtUus c | cmpGeUus c | cmpLtUus c | cmpLeUus c =>
    cases h
    exact decode_encodeCmp (by decide) fun w hz hcode hf => by simp only [decodeCmp, hz, hcode, hf]; rfl
  case aNop u | aAdd u | aSub u | aSubr u | aSaddu u | aSadds u | aSsubu u | aSsubs u | aMinu u | aMins u | aMaxu u
      | aMaxs u | aAddc u | aSubc u | lSetz u | lNor u | lAndca u | lNota u | lAndcb u | lNotb u | lXor u | lNand u
      | lAnd u | lXnor u | lB u | lOrca u | lA u | lOrcb u | lOr u | lSethi u =>
    cases h
    exact decode_encodeAu (by decide) fun w hz hcode hf => by simp only [decodeAu, hz, hcode, hf]; rfl
  case oNone o | oRamLo o | oRamHi o | oPhvLo o | oPhvHi o | oAluLo o | oAluHi o | oPred o | oDiv o | oMod o
      | oMmValue o | oMmIndex o | oBitOld o =>
    cases h
    exact decode_encodeOut (by decide) fun w hz hcode hf => by simp only [decodeOut, hz, hcode, hf]; rfl
  case modeDual m bitOp | modeMinmax m bitOp =>
    cases h
    refine decode_encodeMisc (by decide) bitOp.isLt fun w hz hmode hbit hf => ?_
    simp only [decodeMisc, hz, hmode, hf, wordField_eq (x := bitOp) hbit]
    rfl
  case bitNop m | bitRead m | bitReadc m | bitSet m | bitSetc m | bitClr m | bitClrc m =>
    cases h
    exact decode_encodeMisc (by decide) (by decide) fun w hz hmode hbit hf => by
      simp only [decodeMisc, hz, hmode, hbit, hf]; rfl
  case divMod d =>
    cases h
    exact decode_divMod d
  case mmMin m =>
    cases h
    exact decode_encodeMm false fun w hz hmax hf => by simp only [decodeMm, hz, hmax, hf]; rfl
  case mmMax m =>
    cases h
    exact decode_encodeMm true fun w hz hmax hf => by simp only [decodeMm, hz, hmax, hf]; rfl
  case intervalSet o | lock o | unlock o | sweep o | dump o | dumpWord o | evictWord o | barrier o =>
    cases h
    exact decode_encodeOp (by decide) fun w hz hcode hf => by simp only [decodeOp, hz, hcode, hf]; rfl
  case enqueue | enqueuePkt | enqueueResubmit | enqueueFromTm | waitForIdle | stop | start | setField | getField
      | setConfig | ramWrite | ramRead | opCreate | drainEvict | snapSetState | irqAck | ctrStartClear =>
    cases h
    rfl
  all_goals cases h

/-! ### From the word to the operation and back

Of a word that decodes no bit is dropped: its reserved bits are 0 and every other bit is in the code or in a field. -/

variable {w : Nat}

theorem encode_of_decodeSa (hw : w < 2 ^ 24) (h : decodeSa w = .ok i) : encode i = codedSa w := by
  unfold decodeSa at h
  split at h
  · rename_i hen
    split at h
    · cases h
    rename_i hz
    have back := encodeSaFields_saFields hw hen (Bool.eq_false_of_not_eq_true hz)
    split at h <;> cases h
    case h_4 =>
      rename_i h0 h1 h2
      have code : w / 2 ^ 20 % 4 = 3 := by
        rw [imp_false] at h0 h1 h2
        omega
      rw [code] at back
      exact congrArg codedSa back
    all_goals
      rename_i code
      rw [code] at back
      exact congrArg codedSa back
  · rename_i hen
    cases h
    rw [Bool.not_eq_true, wordBit_eq_false] at hen
    have back : (wordField w 0 23).toNat = w := by rw [toNat_wordField]; omega
    exact congrArg codedSa back

theorem encode_of_decodeMa (hw : w < 2 ^ 32) (h : decodeMa w = .ok i) : encode i = codedMa w := by
  unfold decodeMa at h
  split at h
  · rename_i hen
    split at h
    · cases h
    rename_i hz
    have back := encodeMaFields_maFields hw hen (not_not.1 hz)
    split at h <;> cases h
    all_goals
      rename_i code
      rw [code] at back
      exact congrArg codedMa back
  · rename_i hen
    cases h
    rw [Bool.not_eq_true, wordBit_eq_false] at hen
    have back : (wordField w 0 31).toNat = w := by rw [toNat_wordField]; omega
    exact congrArg codedMa back

theorem encode_of_decodeCmp {unit : CmpUnit} (hw : w < 2 ^ 16) (h : decodeCmp unit w = .ok i) :
    encode i = some { format := .cmp unit, word := w } := by
  unfold decodeCmp at h
  simp only at h
  split at h
  · cases h
  rename_i hz
  have back := congrArg (fun n => some ({ format := .cmp unit, word := n } : Coded))
    (encodeCmpFields_cmpFields unit hw (Bool.eq_false_of_not_eq_true hz))
  split at h <;> cases h
  all_goals
    rename_i code
    rw [code] at back
    exact back

theorem encode_of_decodeAu {half : Half} (hw : w < 2 ^ 16) (h : decodeAu half w = .ok i) :
    encode i = some { format := .au half, word := w } := by
  unfold decodeAu at h
  simp only at h
  split at h
  · cases h
  rename_i hz
  have back := congrArg (fun n => some ({ format := .au half, word := n } : Coded))
    (encodeAuFields_auFields half hw (Bool.eq_false_of_not_eq_true hz))
  split at h <;> cases h
  all_goals
    rename_i code
    rw [code] at back
    exact back

theorem encode_of_decodeOut (hw : w < 2 ^ 16) (h : decodeOut w = .ok i) :
    encode i = some { format := .out, word := w } := by
  unfold decodeOut at h
  simp only at h
  split at h
  · cases h
  rename_i hz
  have back := congrArg (fun n => some ({ format := .out, word := n } : Coded))
    (encodeOutFields_outFields hw (not_not.1 hz))
  split at h <;> cases h
  all_goals
    rename_i code
    rw [code] at back
    exact back

theorem encode_of_decodeMisc (hw : w < 2 ^ 16) (h : decodeMisc w = .ok i) :
    encode i = some { format := .misc, word := w } := by
  unfold decodeMisc at h
  simp only at h
  split at h
  · cases h
  rename_i hz
  have back := congrArg (fun n => some ({ format := .misc, word := n } : Coded))
    (encodeMiscFields_miscFields hw (not_not.1 hz))
  have bit : (wordField w 11 3).toNat = w / 2 ^ 11 % 8 := toNat_wordField w 11 3
  split at h
  case h_1 | h_3 =>
    rename_i mode
    cases h
    rw [mode, ← bit] at back
    exact back
  case h_2 =>
    rename_i mode
    split at h <;> cases h
    all_goals
      rename_i code
      rw [mode, code] at back
      exact back
  case h_4 => cases h

theorem encode_of_decodeMiscDiv (hw : w < 2 ^ 16) (h : decodeMiscDiv w = .ok i) :
    encode i = some { format := .miscDiv, word := w } := by
  unfold decodeMiscDiv at h
  split at h
  · cases h
  rename_i hz
  split at h <;> cases h
  rename_i hen
  exact congrArg (fun n => some ({ format := .miscDiv, word := n } : Coded))
    (encodeDivFields_divFields hw (not_not.1 hz) hen)

theorem encode_of_decodeMm (hw : w < 2 ^ 32) (h : decodeMm w = .ok i) :
    encode i = some { format := .mm, word := w } := by
  unfold decodeMm at h
  split at h
  · cases h
  rename_i hz
  have back := congrArg (fun n => some ({ format := .mm, word := n } : Coded))
    (encodeMmFields_mmFields hw (not_not.1 hz))
  split at h <;> cases h
  all_goals
    rename_i isMax
    simp only [isMax] at back
    exact back

theorem encode_of_decodeOp (hw : w < 2 ^ 96) (h : decodeOp w = .ok i) : encode i = some { format := .op, word := w } := by
  unfold decodeOp at h
  simp only at h
  split at h
  · cases h
  rename_i hz
  have back := congrArg (fun n => some ({ format := .op, word := n } : Coded))
    (encodeOpFields_opFields hw (not_not.1 hz))
  split at h <;> cases h
  all_goals
    rename_i code
    rw [code] at back
    exact back

/-- The operands of a command that are not read are not part of its word. -/
theorem encode_of_decodeHc {args : HostArgs} (h : decodeHc w args = .ok i) :
    ∃ args', encode i = some { format := .hc, word := w, args := args' } := by
  unfold decodeHc at h
  split at h <;> cases h <;> exact ⟨_, rfl⟩

theorem encode_of_decode {c : Coded} (h : decode c = .ok i) :
    ∃ args, encode i = some { c with args := args } := by
  have hw := lt_of_decode h
  rw [decode_of_lt hw] at h
  obtain ⟨format, word, args⟩ := c
  cases format
  case sa => exact ⟨_, encode_of_decodeSa hw h⟩
  case ma => exact ⟨_, encode_of_decodeMa hw h⟩
  case cmp => exact ⟨_, encode_of_decodeCmp hw h⟩
  case au => exact ⟨_, encode_of_decodeAu hw h⟩
  case out => exact ⟨_, encode_of_decodeOut hw h⟩
  case misc => exact ⟨_, encode_of_decodeMisc hw h⟩
  case miscDiv => exact ⟨_, encode_of_decodeMiscDiv hw h⟩
  case mm => exact ⟨_, encode_of_decodeMm hw h⟩
  case op => exact ⟨_, encode_of_decodeOp hw h⟩
  case hc => exact encode_of_decodeHc h

end

/-- Settles O1, a format at a time: the fields and the code of an encoded word are read back, and a word that decodes
is laid out again from what is read. -/
theorem decodingUndoesEncoding : Obligations.DecodingUndoesEncoding :=
  ⟨fun _ _ => decode_of_encode, fun _ _ h =>
    let ⟨_, he⟩ := encode_of_decode h
    ⟨_, he, rfl, rfl⟩⟩

end Sys2Proof
end

section
/-! What the decoder refuses, and the words that are written out from the tables (R104 to R120). -/

namespace Sys2Proof

/-! ### Reserved bits (R120) -/

theorem wordBit_eq_testBit (w i : Nat) : wordBit w i = w.testBit i := by
  rw [Nat.testBit_eq_decide_div_mod_eq]
  rfl

/-- A bit that is set makes every range of bits around it nonzero. -/
theorem bits_ne_zero {w i : Nat} (lo n : Nat) (h : wordBit w i = true) (hlo : lo ≤ i) (hn : i < lo + n) :
    w / 2 ^ lo % 2 ^ n ≠ 0 := by
  intro hz
  have bit : (w / 2 ^ lo % 2 ^ n).testBit (i - lo) = wordBit w i := by
    rw [Nat.testBit_mod_two_pow, Nat.testBit_div_two_pow, Nat.sub_add_cancel hlo, wordBit_eq_testBit]
    simp only [show i - lo < n by omega, decide_true, Bool.true_and]
  rw [hz, Nat.zero_testBit, h] at bit
  cases bit

variable {w : Nat}

theorem decodeSa_of_reservedBit (hen : wordBit w 23 = true) (h : wordBit w 22 = true) :
    decodeSa w = .error .reservedBits :=
  (if_pos hen).trans (if_pos h)

theorem decodeMa_of_reservedBit (hen : wordBit w 31 = true) (h : w / 2 ^ 29 % 4 ≠ 0) :
    decodeMa w = .error .reservedBits :=
  (if_pos hen).trans (if_pos h)

theorem decodeCmp_of_reservedBit (unit : CmpUnit) (h : wordBit w 15 = true) :
    decodeCmp unit w = .error .reservedBits := if_pos h

theorem decodeAu_of_reservedBit (half : Half) (h : wordBit w 15 = true) :
    decodeAu half w = .error .reservedBits := if_pos h

theorem decodeOut_of_reservedBit (h : w / 2 ^ 8 % 256 ≠ 0) : decodeOut w = .error .reservedBits := if_pos h

theorem decodeMisc_of_reservedBit (h : w / 2 ^ 14 % 4 ≠ 0) : decodeMisc w = .error .reservedBits := if_pos h

theorem decodeMiscDiv_of_reservedBit (h : w / 2 ^ 14 % 4 ≠ 0) : decodeMiscDiv w = .error .reservedBits := if_pos h

theorem decodeMm_of_reservedBit (h : w / 2 ^ 6 % 4 ≠ 0) : decodeMm w = .error .reservedBits := if_pos h

theorem decodeOp_of_reservedBit (h : w / 2 ^ 5 % 8 ≠ 0) : decodeOp w = .error .reservedBits := if_pos h

theorem miscReserved_ne_zero (h : wordBit w 14 = true ∨ wordBit w 15 = true) : w / 2 ^ 14 % 4 ≠ 0 :=
  h.elim (bits_ne_zero 14 2 · (by decide) (by decide)) (bits_ne_zero 14 2 · (by decide) (by decide))

/-! ### Reserved codes (R120) -/

theorem decodeMa_of_reservedCode (hen : wordBit w 31 = true) (hz : w / 2 ^ 29 % 4 = 0) (h : 4 ≤ w / 2 ^ 24 % 8) :
    decodeMa w = .error .reservedCode := by
  refine (if_pos hen).trans ((if_neg (not_not.2 hz)).trans ?_)
  have hlt : w / 2 ^ 24 % 8 < 8 := Nat.mod_lt _ (by decide)
  interval_cases w / 2 ^ 24 % 8 <;> rfl

theorem decodeCmp_of_reservedCode (unit : CmpUnit) (hz : wordBit w 15 = false) (h : w % 16 = 3) :
    decodeCmp unit w = .error .reservedCode := by
  simp only [decodeCmp, hz, h]
  rfl

theorem decodeAu_of_reservedCode (half : Half) (hz : wordBit w 15 = false) (h : 30 ≤ w % 32) :
    decodeAu half w = .error .reservedCode := by
  have codes : w % 32 = 30 ∨ w % 32 = 31 := by omega
  rcases codes with h | h <;> (simp only [decodeAu, hz, h]; rfl)

theorem decodeOut_of_reservedCode (hz : w / 2 ^ 8 % 256 = 0) (h : 13 ≤ w % 16) :
    decodeOut w = .error .reservedCode := by
  have codes : w % 16 = 13 ∨ w % 16 = 14 ∨ w % 16 = 15 := by omega
  rcases codes with h | h | h <;> (simp only [decodeOut, hz, h]; rfl)

theorem decodeMisc_of_reservedMode (hz : w / 2 ^ 14 % 4 = 0) (h : w % 4 = 3) :
    decodeMisc w = .error .reservedCode := by
  simp only [decodeMisc, hz, h]
  rfl

theorem decodeMisc_of_reservedBitOp (hz : w / 2 ^ 14 % 4 = 0) (hmode : w % 4 = 1) (h : w / 2 ^ 11 % 8 = 7) :
    decodeMisc w = .error .reservedCode := by
  simp only [decodeMisc, hz, hmode, h]
  rfl

theorem decodeMiscDiv_of_off (hz : w / 2 ^ 14 % 4 = 0) (h : wordBit w 4 = false) :
    decodeMiscDiv w = .error .reservedCode := by
  simp only [decodeMiscDiv, hz, h]
  rfl

theorem decodeOp_of_reservedCode (hz : w / 2 ^ 5 % 8 = 0) (h : 8 ≤ w % 16) : decodeOp w = .error .reservedCode := by
  refine (if_neg (not_not.2 hz)).trans ?_
  have hlt : w % 16 < 16 := Nat.mod_lt _ (by decide)
  interval_cases w % 16 <;> rfl

theorem decodeHc_of_unknown {code : Nat} (args : HostArgs) (h : ¬ (1 ≤ code ∧ code ≤ 7))
    (h' : ¬ (0x10 ≤ code ∧ code ≤ 0x14)) (h'' : ¬ (0x20 ≤ code ∧ code ≤ 0x24)) :
    decodeHc code args = .error .unknownCommand := by
  unfold decodeHc
  split
  case h_18 => rfl
  all_goals omega

/-- Settles O2: a set reserved bit is tested before the code, and a reserved code matches no row. -/
theorem reservedEncodingsAreRefused : Obligations.ReservedEncodingsAreRefused := by
  refine ⟨fun w _ hen h => decodeSa_of_reservedBit hen h, fun w _ hen h => decodeMa_of_reservedBit hen ?ma,
    fun u w h => decodeCmp_of_reservedBit u h, fun u w h => decodeAu_of_reservedBit u h,
    fun w i h8 h16 h => decodeOut_of_reservedBit (bits_ne_zero 8 8 h h8 h16),
    fun w h => decodeMisc_of_reservedBit (miscReserved_ne_zero h), fun w h => decodeMm_of_reservedBit ?mm,
    fun w h => decodeOp_of_reservedBit ?op, fun u w hz h => decodeCmp_of_reservedCode u hz h,
    fun u w hz h => decodeAu_of_reservedCode u hz h, fun w hw h => decodeOut_of_reservedCode (by omega) h,
    fun w hw h => decodeMisc_of_reservedMode (by omega) h,
    fun w hw hmode h => decodeMisc_of_reservedBitOp (by omega) hmode h,
    fun w hen h29 h30 h => decodeMa_of_reservedCode hen ?zero h, fun w hz h => decodeOp_of_reservedCode hz h,
    fun w h => decodeMiscDiv_of_reservedBit (miscReserved_ne_zero h), fun w hw h => decodeMiscDiv_of_off (by omega) h,
    fun code args h h' h'' => decodeHc_of_unknown args h h' h''⟩
  case ma => exact h.elim (bits_ne_zero 29 2 · (by decide) (by decide)) (bits_ne_zero 29 2 · (by decide) (by decide))
  case mm => exact h.elim (bits_ne_zero 6 2 · (by decide) (by decide)) (bits_ne_zero 6 2 · (by decide) (by decide))
  case op =>
    rcases h with h | h | h
    all_goals exact bits_ne_zero 5 3 h (by decide) (by decide)
  case zero =>
    rw [wordBit_eq_false] at h29 h30
    omega
/-! ### Words of the tables (R104 to R116) -/

/-- Settles O3, by running the decoder on each word. -/
theorem writtenWordsDecode : Obligations.WrittenWordsDecode := by
  refine ⟨?_, ?_, ?_, ?_, ?_, ?_, ?_, ?_⟩ <;> rfl

end Sys2Proof
end

section
/-! A step runs the line that is next: the rights of the formats, a bare word as bytes, and the step itself
(R11, R119, R122, R500). -/

namespace Sys2Proof.Machine

section
variable {s : State} {i : Instr} {c : Coded}

/-! ### The rights of a format (R119, R500) -/

/-- The right to the operations of a format. -/
def formatRight : Format → Right
  | .hc => .host
  | .op => .sweeper
  | _ => .stage

theorem rightTo_of_encode (h : encode i = some c) : rightTo i = formatRight c.format := by
  cases i <;> cases h <;> rfl

theorem hasRight_formatRight (f : Format) : hasRight s (formatRight f) = true ↔ s.act.agent = formatAgent s f := by
  cases f <;> exact beq_iff_eq

theorem mayTake_of_encode (h : encode i = some c) :
    mayTake s i = true ↔ s.act.agent = formatAgent s c.format := by
  rw [mayTake, rightTo_of_encode h, hasRight_formatRight]

/-! ### An operation in its turn (R490, R500) -/

theorem mayRun_of_running (h : Running s) (i : Instr) : mayRun s i = true := by
  simp only [mayRun, show s.err.faulted = none from h, Option.isNone_none, Bool.true_or]

theorem runInstr_of_mayTake (h : Running s) (hw : i.wellFormed = true) (hm : mayTake s i = true) :
    runInstr i s = exec i s := by
  simp only [runInstr, mayRun_of_running h, hw, hm, Bool.not_true, Bool.false_eq_true, if_false]

theorem runInstr_of_not_mayTake (h : Running s) (hw : i.wellFormed = true) (hm : mayTake s i = false) :
    runInstr i s = .refused .notPermitted := by
  simp only [runInstr, mayRun_of_running h, hw, hm, Bool.not_true, Bool.not_false, Bool.false_eq_true, if_false, if_true]

/-! ### The next line (R122) -/

theorem step_of_agenda {l : Line} {rest : List Line} (h : s.agenda = l :: rest) :
    step s = runBody l.body (enterLine l rest s) := by
  rw [step, h]

theorem runBody_coded (h : decode c = .ok i) (s : State) : runBody (.coded c) s = runInstr i s := by
  simp only [runBody, h]

theorem step_of_coded {l : Line} {rest : List Line} (h : s.agenda = l :: rest) (hb : l.body = .coded c)
    (hd : decode c = .ok i) : step s = runInstr i (enterLine l rest s) := by
  rw [step_of_agenda h, hb, runBody_coded hd]

/-- With nothing laid down, the step is that of a line with the step that the schedule names: which agent the line is
given does not matter, since a step of its own has its own agent. -/
theorem step_of_empty_agenda (h : s.agenda = []) :
    step s = step ((s.setDraws (s.draws + 1)).setAgenda [{ body := .auto (Config.schedule s.draws) }]) := by
  let l : Line := { body := .auto (Config.schedule s.draws) }
  have entered : enterAuto (Config.schedule s.draws)
      (enterLine l [] ((s.setDraws (s.draws + 1)).setAgenda [l])) =
      enterAuto (Config.schedule s.draws) (s.setDraws (s.draws + 1)) := by
    rw [← h]
    rfl
  calc step s = runBody l.body (s.setDraws (s.draws + 1)) := by rw [step, h]
    _ = runBody l.body (enterLine l [] ((s.setDraws (s.draws + 1)).setAgenda [l])) :=
        congrArg (runAuto (Config.schedule s.draws)) entered.symm
    _ = step ((s.setDraws (s.draws + 1)).setAgenda [l]) := (step_of_agenda rfl).symm

/-! ### A bare word of the opcode table, as bytes -/

theorem length_bytesOfWord : ∀ n w, (bytesOfWord n w).length = n
  | 0, _ => rfl
  | n + 1, w => congrArg (· + 1) (length_bytesOfWord n (w / 256))

theorem wordOfBytes_bytesOfWord : ∀ n w, w < 256 ^ n → wordOfBytes (bytesOfWord n w) = w
  | 0, w, h => by
    simp only [Nat.pow_zero, Nat.lt_one_iff] at h
    rw [h]
    rfl
  | n + 1, w, h => by
    have hdiv : w / 256 < 256 ^ n := Nat.div_lt_of_lt_mul (by rw [Nat.pow_succ'] at h; exact h)
    simp only [bytesOfWord, wordOfBytes, wordOfBytes_bytesOfWord n _ hdiv, BitVec.toNat_ofNat]
    omega

theorem formatAmong_mem {rows : List OpcodeRow} {w : Nat} {f : Format} (h : formatAmong rows w = some f) :
    ∃ r ∈ rows, r.format = f := by
  unfold formatAmong at h
  split at h
  · rename_i r hr
    exact ⟨r, List.mem_of_find?_eq_some hr, Option.some.inj h⟩
  · obtain ⟨r, hr, hf⟩ := Option.map_eq_some_iff.1 h
    exact ⟨r, List.mem_of_find?_eq_some hr, hf⟩

theorem opcodeRows16_width : ∀ r ∈ opcodeRows16, r.format.width = 16 := by decide

theorem opcodeRows32_width : ∀ r ∈ opcodeRows32, r.format.width = 32 := by decide

/-- A bare word is read in a format of its width, which is whole bytes. -/
theorem width_of_tableFormat {nbits w : Nat} {f : Format} (h : tableFormat nbits w = some f) :
    f.width = nbits ∧ 256 ^ (nbits / 8) = 2 ^ nbits := by
  unfold tableFormat at h
  split at h
  · cases h
    exact ⟨rfl, rfl⟩
  · obtain ⟨r, hr, rfl⟩ := formatAmong_mem h
    exact ⟨opcodeRows16_width r hr, by norm_num⟩
  · cases h
    exact ⟨rfl, by norm_num⟩
  · obtain ⟨r, hr, rfl⟩ := formatAmong_mem h
    exact ⟨opcodeRows32_width r hr, by norm_num⟩
  · cases h
    exact ⟨rfl, by norm_num⟩
  · cases h

/-- What the table's decoder reads from a bare word is what the word decodes to in its format. -/
theorem decode_of_decodeTableWord {nbits w : Nat} (hw : w < 2 ^ nbits) (h : decodeTableWord nbits w = some i) :
    ∃ f, tableFormat nbits w = some f ∧ decode { format := f, word := w } = .ok i := by
  unfold decodeTableWord at h
  split at h
  · cases h
  rename_i f hf
  obtain ⟨hwidth, hpow⟩ := width_of_tableFormat hf
  refine ⟨f, hf, ?_⟩
  have whole : wordOfBytes ((bytesOfWord (f.width / 8) w).take (f.width / 8)) = w := by
    rw [List.take_of_length_le (length_bytesOfWord _ _).le]
    exact wordOfBytes_bytesOfWord _ _ (by rw [hwidth, hpow]; exact hw)
  simp only [decodeBytes, length_bytesOfWord, whole, Nat.lt_irrefl, if_false] at h
  cases hd : decode { format := f, word := w } with
  | ok j =>
    rw [hd] at h
    cases h
    rfl
  | error e =>
    rw [hd] at h
    cases h

theorem step_withFetchWord {nbits w : Nat} (hw : w < 2 ^ nbits) (h : decodeTableWord nbits w = some i)
    (hwf : i.wellFormed = true) (hs : Running s) :
    step (s.withFetchWord nbits w) = exec i (enterLine (wordLine s nbits w) s.agenda s) := by
  obtain ⟨f, hf, hd⟩ := decode_of_decodeTableWord hw h
  obtain ⟨args, he⟩ := encode_of_decode hd
  have line : wordLine s nbits w = { agent := formatAgent s f, body := .coded { format := f, word := w } } := by
    simp only [wordLine, hf]
  rw [step_of_coded (l := wordLine s nbits w) (rest := s.agenda) rfl (by rw [line]) hd]
  refine runInstr_of_mayTake hs hwf ((mayTake_of_encode he).2 ?_)
  rw [line]
  cases f <;> rfl

end

/-- Settles O4, clause by clause: the next line, a bare word, the rights of each format, the open schedule. -/
theorem stepRunsTheDecodedOperation : Obligations.StepRunsTheDecodedOperation := by
  refine ⟨fun s l rest c i ha hb hd hw hs => ⟨fun hm => ?_, fun hm => ?_, rfl, rfl, rfl, rfl, rfl, rfl, rfl, rfl⟩,
    fun s nbits w i hw hd hwf hs => step_withFetchWord hw hd hwf hs,
    fun s i c he => (mayTake_of_encode he).trans ?_, fun s h => step_of_empty_agenda h⟩
  · exact (step_of_coded ha hb hd).trans (runInstr_of_mayTake hs hw hm)
  · exact (step_of_coded ha hb hd).trans (runInstr_of_not_mayTake hs hw hm)
  · cases c.format <;> rfl

end Sys2Proof.Machine
end

section
/-! The reads of stats and stateful words, and the output select of a stateful instruction. -/

namespace Sys2Proof.Machine

/-! ### The counts of a sub-entry (R194 to R197) -/

section
variable {f : StatsFormat} {k : Nat}

/-- A field that ends inside the word, as a quotient and a remainder. -/
theorem wordBits_of_le (w : Word) {off n : Nat} (h : off + n ≤ 128) : wordBits w off n = w.toNat / 2 ^ off % 2 ^ n := by
  rcases Nat.eq_zero_or_pos n with rfl | hn
  · rw [Nat.pow_zero, Nat.mod_one, wordBits, getBits, if_pos (.inl rfl)]
  · exact wordBits_of_lt w n (by omega)

/-- The fields of a sub-entry end inside the word. -/
theorem pktOff_add_le (h : FormatHas f k) : pktOff f k + f.pktW ≤ 128 := by
  obtain ⟨hk, hfit, hsum, -, -⟩ := h
  have := Nat.mul_le_mul_right f.stride (Nat.succ_le_of_lt hk)
  rw [Nat.succ_mul] at this
  unfold pktOff
  omega

theorem byteOff_add_le (h : FormatHas f k) : byteOff f k + f.byteW ≤ 128 := by
  have := pktOff_add_le h
  unfold pktOff at this
  unfold byteOff
  omega

theorem pktOf_eq (h : FormatHas f k) (w : Word) : pktOf f w k = pktField f k w := wordBits_of_le w (pktOff_add_le h)

theorem byteOf_eq (h : FormatHas f k) (w : Word) : byteOf f w k = byteField f k w :=
  wordBits_of_le w (byteOff_add_le h)

theorem atReserved_iff (h : FormatHas f k) (w : Word) :
    atReserved f (pktOf f w k) (byteOf f w k) = true ↔ Reserved f k w := by
  simp only [atReserved, ones, pktOf_eq h, byteOf_eq h, Bool.and_eq_true, beq_iff_eq, and_assoc]

/-- Counts that are written read back, and nothing else of the word changes (R197). -/
theorem countsWritten_setCounts (h : FormatHas f k) (w : Word) {pkt byt : Nat} (hp : pkt < 2 ^ f.pktW)
    (hb : byt < 2 ^ f.byteW) : CountsWritten f k w (setCounts f w k pkt byt) pkt byt := by
  have above : byteOff f k + f.byteW = pktOff f k := rfl
  refine ⟨?_, ?_, fun i hi => ?_⟩
  · rw [← pktOf_eq h, pktOf, setCounts, wordBits_wordSet_same _ _ _ _ (pktOff_add_le h), Nat.mod_eq_of_lt hp]
  · rw [← byteOf_eq h, byteOf, setCounts, wordBits_wordSet_other _ _ _ _ _ _ (.inl above.le),
      wordBits_wordSet_same _ _ _ _ (byteOff_add_le h), Nat.mod_eq_of_lt hb]
  · have outside : ¬ (pktOff f k ≤ i ∧ i < pktOff f k + f.pktW) ∧ ¬ (byteOff f k ≤ i ∧ i < byteOff f k + f.byteW) := by
      simp only [pktOff, byteOff]
      omega
    rw [setCounts, getLsbD_wordSet, if_neg outside.1, getLsbD_wordSet, if_neg outside.2]
    by_cases h128 : i < 128
    · simp only [h128, decide_true, Bool.true_and]
    · simp only [h128, decide_false, Bool.false_and, BitVec.getLsbD_of_ge w i (by omega)]

/-- `EW` of a sub-entry: the packet count above the byte count (R117). -/
theorem entryWord_eq (h : FormatHas f k) (w : Word) :
    entryWord f w k = BitVec.ofNat 128 (2 ^ 64 * pktField f k w + byteField f k w) := by
  have hpkt : pktField f k w < 2 ^ 64 :=
    (Nat.mod_lt _ (Nat.two_pow_pos _)).trans_le (Nat.pow_le_pow_right two_pos h.2.2.2.1)
  have hbyt : byteField f k w < 2 ^ 64 :=
    (Nat.mod_lt _ (Nat.two_pow_pos _)).trans_le (Nat.pow_le_pow_right two_pos h.2.2.2.2)
  rw [entryWord, evictWordOf, pktOf_eq h, byteOf_eq h, Nat.mod_eq_of_lt hpkt, Nat.mod_eq_of_lt hbyt, Nat.add_comm]

end

/-! ### The reads (R204 to R207, R543) -/

section
variable {s : State} {p st a : Nat}

/-- A stats address delivered alone answers what its run answers. -/
theorem outcome_statsOp {op : StatsOp} {sa : SaFields} {o : AluOut} {t : State} (hat : AtStats s p st a)
    (h : statsRun p st a op sa s.act.io.byteLen s = .ok o t) :
    outcome (statsOp op sa) s = .next (t.setResult (.alu o)) :=
  outcome_of_ok ((atStats_apply hat _).trans (bind_of_ok s (fun o => pure (Ret.alu o)) h))

section
variable {sa : SaFields} (hat : AtStats s p st a) (hf : FormatHas (s.statsFmt p st a) sa.subword.toNat)
  (hw : sa.word.toNat < s.params.statsRamWords)
include hat hf hw

/-- A read that passes its checks goes on with the addressed word. -/
theorem statsRun_cfgRd (len : Nat) : statsRun p st a .cfgRd sa len s
    = readData p st .stats a (s.mem.read (statsAddr p st a sa.word.toNat)) s :=
  (bind_of_ok s _ (statsValidate_of_has _ hf)).trans (bind_of_ok s _ (memRead_of_inRange (statsAddr_inRange hat hw)))

theorem statsRun_cfgRdclr (len : Nat) : statsRun p st a .cfgRdclr sa len s
    = (statsClear p st a (s.statsFmt p st a) sa (s.mem.read (statsAddr p st a sa.word.toNat)) >>= fun _ =>
        readData p st .stats a (s.mem.read (statsAddr p st a sa.word.toNat))) s :=
  (bind_of_ok s _ (statsValidate_of_has _ hf)).trans (bind_of_ok s _ (memRead_of_inRange (statsAddr_inRange hat hw)))

/-- Away from the reserved value the clear zeroes both counts (R205). -/
theorem statsClear_of_not_reserved
    (hr : ¬ Reserved (s.statsFmt p st a) sa.subword.toNat (s.mem.read (statsAddr p st a sa.word.toNat))) :
    statsClear p st a (s.statsFmt p st a) sa (s.mem.read (statsAddr p st a sa.word.toNat)) s
      = .ok () (s.setMem (s.mem.write (statsAddr p st a sa.word.toNat) (setCounts (s.statsFmt p st a)
          (s.mem.read (statsAddr p st a sa.word.toNat)) sa.subword.toNat 0 0))) := by
  have notAt := mt (atReserved_iff hf _).1 hr
  simp only [statsClear, notAt, Bool.not_false, if_true]
  exact memWrite_of_inRange _ (statsAddr_inRange hat hw)

theorem exec_cfgRd : exec (.cfgRd sa) s
    = .next ((s.emit (.cfgData p st .stats a (s.mem.read (statsAddr p st a sa.word.toNat)))).setResult
        (.alu (.data (s.mem.read (statsAddr p st a sa.word.toNat))))) :=
  outcome_statsOp hat (statsRun_cfgRd hat hf hw _)

theorem exec_cfgRdclr
    (hr : ¬ Reserved (s.statsFmt p st a) sa.subword.toNat (s.mem.read (statsAddr p st a sa.word.toNat))) :
    exec (.cfgRdclr sa) s = .next (((s.setMem (s.mem.write (statsAddr p st a sa.word.toNat)
        (setCounts (s.statsFmt p st a) (s.mem.read (statsAddr p st a sa.word.toNat)) sa.subword.toNat 0 0))).emit
          (.cfgData p st .stats a (s.mem.read (statsAddr p st a sa.word.toNat)))).setResult
        (.alu (.data (s.mem.read (statsAddr p st a sa.word.toNat))))) :=
  outcome_statsOp hat ((statsRun_cfgRdclr hat hf hw _).trans (bind_of_ok s _ (statsClear_of_not_reserved hat hf hw hr)))

end

theorem entryRead_of_has {w k : Nat} (hat : AtStats s p st a) (hf : FormatHas (s.statsFmt p st a) k)
    (hw : w < s.params.statsRamWords) :
    entryRead p st a w k s = .ok (some (s.statsFmt p st a, s.mem.read (statsAddr p st a w))) s :=
  (bind_of_ok s _ (statsValidate_of_has _ hf)).trans (bind_of_ok s _ (memRead_of_inRange (statsAddr_inRange hat hw)))

theorem exec_statsDumpEntry {w k : Nat} (hat : AtStats s p st a) (hf : FormatHas (s.statsFmt p st a) k)
    (hw : w < s.params.statsRamWords) : exec (.statsDumpEntry w k) s
      = .next (s.setResult (.word (entryWord (s.statsFmt p st a) (s.mem.read (statsAddr p st a w)) k))) := by
  have dump : dumpEntry p st a w k s
      = .ok (some (entryWord (s.statsFmt p st a) (s.mem.read (statsAddr p st a w)) k)) s :=
    bind_of_ok s _ (entryRead_of_has hat hf hw)
  exact outcome_of_ok ((atStats_apply hat _).trans (bind_of_ok s _ dump))

theorem exec_maCfgRd {ma : MaFields} (hat : AtSalu s p st a) (hw : ma.word.toNat < s.params.saluRamWords) :
    exec (.maCfgRd ma) s
      = .next ((s.emit (.cfgData p st .salu a (s.mem.read (saluAddr p st a ma.word.toNat)))).setResult
          (.alu (.data (s.mem.read (saluAddr p st a ma.word.toNat))))) := by
  have read : maRead p st .salu a ma s
      = readData p st .salu a (s.mem.read (saluAddr p st a ma.word.toNat)) s :=
    bind_of_ok s _ (memRead_of_inRange (saluAddr_inRange hat hw))
  exact outcome_of_ok ((atSalu_apply hat _).trans (bind_of_ok s _ read))

theorem exec_statsNop (hat : AtStats s p st a) (f : SaFields) :
    exec (.statsNop f) s = .next (s.setResult (.alu .none)) := outcome_of_ok (atStats_apply hat _)

theorem exec_statsDisabled (hat : AtStats s p st a) (rest : BitVec 23) :
    exec (.statsDisabled rest) s = .next (s.setResult (.alu .none)) := outcome_of_ok (atStats_apply hat _)

theorem exec_maNop (hat : AtSalu s p st a) (f : MaFields) :
    exec (.maNop f) s = .next (s.setResult (.alu .none)) := outcome_of_ok (atSalu_apply hat _)

theorem exec_maDisabled (hat : AtSalu s p st a) (rest : BitVec 31) :
    exec (.maDisabled rest) s = .next (s.setResult (.alu .none)) := outcome_of_ok (atSalu_apply hat _)

end

/-- Settles O23: a read that passes its checks answers the word and reports it; the clear writes counts of 0. -/
theorem readsReturnAndClear : Obligations.ReadsReturnAndClear := by
  refine fun s p st a => ⟨?stats, fun ma hat hw => exec_maCfgRd hat hw,
    fun hat => ⟨exec_statsNop hat, exec_statsDisabled hat⟩, fun hat => ⟨exec_maNop hat, exec_maDisabled hat⟩⟩
  case stats =>
    rintro sa f hat rfl hf hw
    refine ⟨exec_cfgRd hat hf hw, fun hr => ?_, ?_⟩
    · exact ⟨_, countsWritten_setCounts hf _ (Nat.two_pow_pos _) (Nat.two_pow_pos _), exec_cfgRdclr hat hf hw hr⟩
    · rw [exec_statsDumpEntry hat hf hw, entryWord_eq hf]

/-! ### The output select (R326) -/

section
variable {s : State} {p st a : Nat} {sel : OutSel} {o : OutFields}

/-- The state and the answer of an output `v`. -/
abbrev State.outputs (s : State) (p st a v : Nat) : State :=
  (s.putSaluRun p st a { s.saluRun p st a with action := v }).setResult (.nat v)

theorem outcome_outRow {v : Nat} {t : State} (hat : AtSalu s p st a)
    (h : outputSelect p st a sel o s = .ok v t) : outcome (outRow sel o) s = .next (t.setResult (.nat v)) :=
  outcome_of_ok ((atSalu_apply hat _).trans (bind_of_ok s (fun v => pure (Ret.nat v)) h))

theorem outRow_of_not_holds (hat : AtSalu s p st a) (hp : ¬ PredHolds (s.saluRun p st a) o.pred) :
    outcome (outRow sel o) s = .next (s.outputs p st a 0) := by
  refine outcome_outRow hat ?_
  simp only [outputSelect, runOf_bind, predicate_of_not hp]
  rfl

theorem outRow_of_value {v : Nat} (hat : AtSalu s p st a) (hp : PredHolds (s.saluRun p st a) o.pred)
    (hv : outValue sel (s.saluRun p st a) = some v) : outcome (outRow sel o) s = .next (s.outputs p st a v) := by
  refine outcome_outRow hat ?_
  simp only [outputSelect, runOf_bind, predicate_of_holds hp, hv]
  rfl

/-- The error of a divide output without the divide unit (R319). -/
abbrev divErr (s : State) (p st a : Nat) : Err := .divNotEnabled a (s.saluRun p st a).slot

theorem outRow_of_relaxed (hat : AtSalu s p st a) (hp : PredHolds (s.saluRun p st a) o.pred)
    (hv : outValue sel (s.saluRun p st a) = none) (hd : s.strict.divideEnable = true) :
    outcome (outRow sel o) s = .next (((s.afterRaise (some (p, st)) (divErr s p st a)).putSaluRun p st a
      { s.saluRun p st a with action := 0 }).setResult (.nat 0)) := by
  have relaxed : fatal s.strict (divErr s p st a) = false := by rw [fatal, hd]; rfl
  have goesOn : (raise (some (p, st)) (divErr s p st a) >>= fun _ => (pure 0 : M Nat)) s
      = .ok 0 (s.afterRaise (some (p, st)) (divErr s p st a)) := by
    rw [State.afterRaise_of_relaxed _ relaxed]
    exact bind_of_ok s _ (raise_of_relaxed _ relaxed)
  refine outcome_outRow hat ?_
  simp only [outputSelect, runOf_bind, predicate_of_holds hp, hv, if_true]
  exact bind_of_ok s _ goesOn

theorem outRow_of_fatal (hat : AtSalu s p st a) (hp : PredHolds (s.saluRun p st a) o.pred)
    (hv : outValue sel (s.saluRun p st a) = none) (hd : s.strict.divideEnable = false) :
    outcome (outRow sel o) s = .next (s.afterRaise (some (p, st)) (divErr s p st a)) := by
  have stops : fatal s.strict (divErr s p st a) = true := by rw [fatal, hd]; rfl
  have raises : (raise (some (p, st)) (divErr s p st a) >>= fun _ => (pure 0 : M Nat)) s
      = .error .faulted (s.afterRaise (some (p, st)) (divErr s p st a)) := by
    rw [State.afterRaise_of_fatal _ stops]
    exact bind_of_error s _ (raise_of_fatal _ stops)
  refine outcome_of_faulted ((atSalu_apply hat _).trans (bind_of_error s (fun v => pure (Ret.nat v)) ?_))
  simp only [outputSelect, runOf_bind, predicate_of_holds hp, hv, if_true]
  exact bind_of_error s _ raises

/-- Both errors in one: a relaxed one goes on with 0. -/
theorem outRow_of_no_value (hat : AtSalu s p st a) (hp : PredHolds (s.saluRun p st a) o.pred)
    (hv : outValue sel (s.saluRun p st a) = none) :
    outcome (outRow sel o) s = if s.strict.divideEnable then
        .next (((s.afterRaise (some (p, st)) (divErr s p st a)).putSaluRun p st a
          { s.saluRun p st a with action := 0 }).setResult (.nat 0))
      else .next (s.afterRaise (some (p, st)) (divErr s p st a)) := by
  split
  · exact outRow_of_relaxed hat hp hv ‹_›
  · exact outRow_of_fatal hat hp hv (Bool.eq_false_of_not_eq_true ‹_›)

/-- The thirteen rows are the thirteen selections (R111). -/
theorem exec_out_row {i : Instr}
    (hi : i ∈ [Instr.oNone o, .oRamLo o, .oRamHi o, .oPhvLo o, .oPhvHi o, .oAluLo o, .oAluHi o, .oPred o, .oDiv o,
      .oMod o, .oMmValue o, .oMmIndex o, .oBitOld o]) : ∃ sel, exec i s = outcome (outRow sel o) s := by
  simp only [List.mem_cons, List.not_mem_nil, or_false] at hi
  rcases hi with rfl | rfl | rfl | rfl | rfl | rfl | rfl | rfl | rfl | rfl | rfl | rfl | rfl
  all_goals exact ⟨_, rfl⟩

end

/-- Settles O32: a predicate that holds answers the named value, a half of a word by its bits; a divide output has
none without the divide unit; a predicate that is false answers 0 whatever is named. -/
theorem outputSelectsItsSource : Obligations.OutputSelectsItsSource := by
  intro s p st a o hat r W bits done err hbase hW
  have base (w : Word) : wordBits w r.base W = bits w r.base := wordBits_of_lt w W (by omega)
  have above (w : Word) : wordBits w (r.base + W) W = bits w (r.base + W) := wordBits_of_lt w W hbase
  refine ⟨fun hp => ?holds, fun hp i hi => ?fails⟩
  case fails =>
    obtain ⟨sel, hsel⟩ := exec_out_row hi
    exact hsel.trans (outRow_of_not_holds hat hp)
  case holds =>
    have row {sel : OutSel} {v : Nat} (hv : outValue sel r = some v) : outcome (outRow sel o) s = done v :=
      outRow_of_value hat hp hv
    refine ⟨row rfl, row (congrArg some (base _)), row (congrArg some (above _)),
      row (congrArg some (wordBits_of_lt _ W (by omega))), row (congrArg some (wordBits_of_lt _ W hW)),
      row (congrArg some (base _)), row (congrArg some (above _)), row rfl,
      fun hd => ⟨row (if_pos hd), row (if_pos hd)⟩, fun hd i hi => ?_, row rfl, row rfl, row rfl⟩
    have off : ¬ r.divRan = true := by rw [hd]; decide
    simp only [List.mem_cons, List.not_mem_nil, or_false] at hi
    rcases hi with rfl | rfl
    · exact outRow_of_no_value (sel := .div) hat hp (if_neg off)
    · exact outRow_of_no_value (sel := .mod) hat hp (if_neg off)

end Sys2Proof.Machine
end

section
/-! The selector ALU: how many members a word has, the three strategies, and the count check of fair mode (R226 to
R234). -/

namespace Sys2Proof.Machine

/-! ### The live members of a word (R221, R227) -/

theorem popcount_eq_countP : ∀ n v, popcount n v = (List.range n).countP (fun i => v.testBit i)
  | 0, _ => rfl
  | n + 1, v => by
    have low : v % 2 = if v.testBit 0 then 1 else 0 := by
      rw [Nat.testBit_zero]
      rcases Nat.mod_two_eq_zero_or_one v with h | h <;> rw [h] <;> rfl
    have rest : (List.range n).countP (fun i => (v / 2).testBit i)
        = (List.range n).countP ((fun i => v.testBit i) ∘ Nat.succ) := by
      simp only [Function.comp_def, Nat.testBit_succ]
    rw [popcount, popcount_eq_countP n, rest, List.range_succ_eq_map, List.countP_cons, List.countP_map, low, Nat.add_comm]

theorem length_positions (pv : Word) : (positions pv.toNat).length = liveCount pv := List.countP_eq_length_filter.symm

theorem word_toNat_eq_zero {pv : Word} : pv.toNat = 0 ↔ pv = 0 := BitVec.toNat_inj (y := 0)

theorem sWordMsb_eq (s : State) (pv : Word) : sWordMsb s.params.selModDef pv.toNat = s.selModulus pv := by
  unfold sWordMsb State.selModulus
  cases s.params.selModDef
  · exact popcount_eq_countP 128 pv.toNat
  · simp only [word_toNat_eq_zero, Nat.add_comm]

theorem eq_zero_of_liveCount {pv : Word} (h : liveCount pv = 0) : pv = 0 := by
  rw [liveCount, List.countP_eq_zero] at h
  refine BitVec.eq_of_getLsbD_eq fun i hi => ?_
  simpa using h i (List.mem_range.2 hi)

theorem liveCount_zero : liveCount 0 = 0 := by decide

theorem selModulus_zero (s : State) : s.selModulus 0 = 0 := by
  unfold State.selModulus
  cases s.params.selModDef
  · exact liveCount_zero
  · rfl

theorem eq_zero_of_selModulus {s : State} {pv : Word} (h : s.selModulus pv = 0) : pv = 0 := by
  unfold State.selModulus at h
  split at h
  · exact eq_zero_of_liveCount h
  · by_contra hne
    rw [if_neg hne] at h
    omega

/-! ### Resilient mode (R226) -/

/-- The scan stops at the first enabled bucket that lands on a live member. -/
theorem firstLive_eq (pv m enable : Nat) (b : Nat → Nat) :
    (∃ k < 3, firstLive pv m enable b [0, 1, 2] = some (b k % m)
      ∧ (enable.testBit k = true ∧ pv.testBit (b k % m) = true)
      ∧ ∀ j < k, ¬ (enable.testBit j = true ∧ pv.testBit (b j % m) = true)) ∨
    (firstLive pv m enable b [0, 1, 2] = none
      ∧ ∀ k < 3, ¬ (enable.testBit k = true ∧ pv.testBit (b k % m) = true)) := by
  simp only [firstLive, Bool.and_eq_true]
  by_cases h0 : enable.testBit 0 = true ∧ pv.testBit (b 0 % m) = true
  · exact .inl ⟨0, by decide, by rw [if_pos h0], h0, nofun⟩
  by_cases h1 : enable.testBit 1 = true ∧ pv.testBit (b 1 % m) = true
  · refine .inl ⟨1, by decide, by rw [if_neg h0, if_pos h1], h1, fun j hj => ?_⟩
    interval_cases j
    exact h0
  by_cases h2 : enable.testBit 2 = true ∧ pv.testBit (b 2 % m) = true
  · refine .inl ⟨2, by decide, by rw [if_neg h0, if_neg h1, if_pos h2], h2, fun j hj => ?_⟩
    interval_cases j <;> assumption
  · refine .inr ⟨by rw [if_neg h0, if_neg h1, if_neg h2], fun k hk => ?_⟩
    interval_cases k <;> assumption

/-! ### Plan-B (R228 to R231) -/

theorem perm_mod_two (h p : Nat) : perm h p % 2 = p % 2 := by
  unfold perm
  omega

theorem perm_div_two (h p : Nat) :
    perm h p / 2 = (p / 2) ^^^ (if p % 2 = 0 then h % 2 ^ 6 else h / 2 ^ 6 % 2 ^ 6) := by
  unfold perm
  omega

/-- `perm` is its own inverse (R231). -/
theorem perm_perm (h p : Nat) : perm h (perm h p) = p := by
  have half : perm h (perm h p) / 2 = p / 2 := by
    rw [perm_div_two, perm_mod_two, perm_div_two, Nat.xor_assoc, Nat.xor_self, Nat.xor_zero]
  have low : perm h (perm h p) % 2 = p % 2 := by rw [perm_mod_two, perm_mod_two]
  omega

theorem perm_lt (h : Nat) {p : Nat} (hp : p < 128) : perm h p < 128 := by
  have half : perm h p / 2 < 2 ^ 6 := by
    rw [perm_div_two]
    refine Nat.xor_lt_two_pow (by omega) ?_
    split <;> exact Nat.mod_lt _ (by decide)
  omega

theorem testBit_foldl_or (pv q : Nat) (f : Nat → Nat) : ∀ (l : List Nat) (acc : Nat),
    (l.foldl (fun acc p => if pv.testBit p then acc ||| 2 ^ f p else acc) acc).testBit q
      = (acc.testBit q || l.any fun p => pv.testBit p && f p == q)
  | [], acc => (Bool.or_false _).symm
  | p :: l, acc => by
    rw [List.foldl_cons, testBit_foldl_or pv q f l, List.any_cons, ← Bool.or_assoc]
    cases pv.testBit p
    · simp only [Bool.false_eq_true, if_false, Bool.false_and, Bool.or_false]
    · simp only [if_true, Nat.testBit_or, Nat.testBit_two_pow, Bool.true_and, beq_eq_decide]

/-- The permuted word has the members at their permuted places (R229). -/
theorem testBit_permute (pv h q : Nat) :
    (permute pv h).testBit q = true ↔ ∃ p < 128, pv.testBit p = true ∧ perm h p = q := by
  rw [permute, testBit_foldl_or, Nat.zero_testBit, Bool.false_or]
  simp only [List.any_eq_true, List.mem_range, Bool.and_eq_true, beq_iff_eq]

theorem scanDown_some {pv q : Nat} : ∀ {n}, scanDown pv n = some q → pv.testBit q = true
  | 0, h => by
    unfold scanDown at h
    split at h <;> cases h
    assumption
  | n + 1, h => by
    unfold scanDown at h
    split at h
    · cases h
      assumption
    · exact scanDown_some h

theorem scanDown_none {pv : Nat} : ∀ {n}, scanDown pv n = none → ∀ q ≤ n, pv.testBit q = false
  | 0, h, q, hq => by
    unfold scanDown at h
    split at h <;> cases h
    rw [Nat.le_zero.1 hq]
    exact Bool.eq_false_of_not_eq_true ‹_›
  | n + 1, h, q, hq => by
    unfold scanDown at h
    split at h
    · cases h
    · rcases Nat.le_succ_iff.1 hq with hq | rfl
      · exact scanDown_none h q hq
      · exact Bool.eq_false_of_not_eq_true ‹_›

theorem circularEncode_some {pv h q : Nat} (e : circularEncode pv h = some q) : pv.testBit q = true := by
  unfold circularEncode at e
  split at e
  · cases e
    exact scanDown_some ‹_›
  · exact scanDown_some e

theorem circularEncode_none {pv h : Nat} (e : circularEncode pv h = none) {q : Nat} (hq : q < 128) :
    pv.testBit q = false := by
  unfold circularEncode at e
  split at e
  · cases e
  · exact scanDown_none e q (by omega)

theorem exists_live {pv : Word} (h : pv ≠ 0) : ∃ m < 128, pv.getLsbD m = true := by
  by_contra none
  push Not at none
  refine h (BitVec.eq_of_getLsbD_eq fun i hi => ?_)
  simpa using none i hi

/-- Plan-B finds a live member whenever there is one: the place that the encoder finds is that of a live member. -/
theorem planBIndex_live (params : Params) {pv : Word} (hash : Nat) (h : pv ≠ 0) :
    planBIndex params pv.toNat hash < 128 ∧ pv.getLsbD (planBIndex params pv.toNat hash) = true := by
  have nonzero : pv.toNat ≠ 0 := mt word_toNat_eq_zero.1 h
  obtain ⟨m, hm, hlive⟩ := exists_live h
  simp only [planBIndex, if_neg nonzero]
  generalize sbox18 params (hash / 2 ^ 34 % 2 ^ 18) = x
  split
  · rename_i hnone
    have found : (permute pv.toNat x).testBit (perm x m) = true := (testBit_permute _ _ _).2 ⟨m, hm, hlive, rfl⟩
    rw [circularEncode_none hnone (perm_lt x hm)] at found
    cases found
  · rename_i q hq
    obtain ⟨p, hp, hlive, rfl⟩ := (testBit_permute _ _ _).1 (circularEncode_some hq)
    rw [perm_perm]
    exact ⟨hp, hlive⟩

/-! ### Fair mode (R233) -/

/-- The member at place `j` of the position table is live, and `j` live members are below it. -/
theorem getD_filter_range (f : Nat → Bool) (d : Nat) : ∀ n j, j < ((List.range n).filter f).length →
    f (((List.range n).filter f).getD j d) = true
      ∧ (List.range (((List.range n).filter f).getD j d)).countP f = j
  | 0, j, h => absurd h (Nat.not_lt_zero j)
  | n + 1, j, h => by
    rw [List.range_succ, List.filter_append] at h ⊢
    rcases Nat.lt_or_ge j ((List.range n).filter f).length with hj | hj
    · rw [List.getD_append _ _ _ _ hj]
      exact getD_filter_range f d n j hj
    · rw [List.getD_append_right _ _ _ _ hj]
      cases hf : f n
      · simp only [List.length_append, List.filter_cons, hf, Bool.false_eq_true, if_false, List.filter_nil,
          List.length_nil] at h
        omega
      · simp only [List.length_append, List.filter_cons, hf, List.filter_nil, if_true, List.length_singleton] at h ⊢
        have last : j = ((List.range n).filter f).length := by omega
        rw [last, Nat.sub_self]
        exact ⟨hf, List.countP_eq_length_filter⟩

section
variable {s : State} {p st a : Nat} {pv : Word}

/-- The member that fair mode answers. -/
def State.fairMember (s : State) (p st a : Nat) (pv : Word) (hash : Nat) : Nat :=
  (positions pv.toNat).getD (hashBucket s p st a hash (s.field .fairBucketSel [p, st, a]) % liveCount pv) noMember

theorem positions_zero : positions (0 : Word).toNat = [] := List.eq_nil_of_length_eq_zero (length_positions 0)

theorem fairAnswer_fairMember (hash : Nat) : FairAnswer s p st a pv hash (s.fairMember p st a pv hash) := by
  constructor
  · rintro rfl
    rw [State.fairMember, positions_zero]
    rfl
  · intro h
    have some : 0 < liveCount pv := Nat.pos_of_ne_zero fun hz => h (eq_zero_of_liveCount hz)
    exact getD_filter_range (fun m => pv.toNat.testBit m) noMember 128 _
      ((Nat.mod_lt _ some).trans_eq (length_positions pv).symm)

/-- What fair mode does after its check: nothing is read of a word without members (R234). -/
def fairPick (s : State) (p st a : Nat) (pv : Word) (hash : Nat) : M Nat :=
  if liveCount pv = 0 then pure noMember
  else if s.field .fairBucketSel [p, st, a] < 3 then pure (s.fairMember p st a pv hash)
  else refuse (.illegalConfig .fairBucketSel)

theorem fairPick_of_legal (hash : Nat) (h : s.field .fairBucketSel [p, st, a] < 3 ∨ pv = 0) (u : State) :
    fairPick s p st a pv hash u = .ok (s.fairMember p st a pv hash) u := by
  by_cases hz : liveCount pv = 0
  · have none : s.fairMember p st a pv hash = noMember := by
      rw [eq_zero_of_liveCount hz, State.fairMember, positions_zero]
      rfl
    rw [fairPick, if_pos hz, none]
    rfl
  · have legal := h.resolve_right fun h0 => hz (by rw [h0, liveCount_zero])
    rw [fairPick, if_neg hz, if_pos legal]
    rfl

theorem fairPick_of_illegal (hash : Nat) (h : 3 ≤ s.field .fairBucketSel [p, st, a]) (hpv : pv ≠ 0) (u : State) :
    fairPick s p st a pv hash u = .error (.refuse (.illegalConfig .fairBucketSel)) u := by
  rw [fairPick, if_neg (mt eq_zero_of_liveCount hpv), if_neg (Nat.not_lt.2 h)]
  rfl

/-- The error of fair mode where the modulus is not the number of live members (R233). -/
abbrev countErr (s : State) (pv : Word) : Err := .selCountMismatch (liveCount pv) (s.selModulus pv)

theorem fairIndex_of_count (hash : Nat) (h : s.selModulus pv = liveCount pv) :
    fairIndex p st a pv.toNat hash s = fairPick s p st a pv hash s := by
  simp only [fairIndex, look_bind, id, length_positions, sWordMsb_eq]
  rw [if_neg (not_not.2 h.symm)]
  rfl

theorem fairIndex_of_mismatch (hash : Nat) (h : s.selModulus pv ≠ liveCount pv) :
    fairIndex p st a pv.toNat hash s
      = (raise (some (p, st)) (countErr s pv) >>= fun _ => fairPick s p st a pv hash) s := by
  simp only [fairIndex, look_bind, id, length_positions, sWordMsb_eq]
  rw [if_pos h.symm]
  rfl

theorem fairIndex_of_relaxed (hash : Nat) (h : s.selModulus pv ≠ liveCount pv) (hf : s.strict.selectorCount = true) :
    fairIndex p st a pv.toNat hash s
      = fairPick s p st a pv hash (s.afterRaise (some (p, st)) (countErr s pv)) := by
  have relaxed : fatal s.strict (countErr s pv) = false := by rw [fatal, hf]; rfl
  rw [fairIndex_of_mismatch _ h, bind_of_ok s _ (raise_of_relaxed _ relaxed), State.afterRaise_of_relaxed _ relaxed]

theorem fairIndex_of_fatal (hash : Nat) (h : s.selModulus pv ≠ liveCount pv) (hf : s.strict.selectorCount = false) :
    fairIndex p st a pv.toNat hash s = .error .faulted (s.afterRaise (some (p, st)) (countErr s pv)) := by
  have stops : fatal s.strict (countErr s pv) = true := by rw [fatal, hf]; rfl
  rw [fairIndex_of_mismatch _ h, bind_of_error s _ (raise_of_fatal _ stops), State.afterRaise_of_fatal _ stops]

/-! ### The rows of the strategies -/

variable {h : BitVec 52} (hat : AtSel s p st a)
include hat

theorem exec_selResilient : exec (.selResilient pv h) s
    = .next (s.setResult (.nat (resilientAt s p st a pv.toNat h.toNat))) := outcome_of_ok (atSel_apply hat _)

theorem exec_selPlanB : exec (.selPlanB pv h) s
    = .next (s.setResult (.nat (planBIndex s.params pv.toNat h.toNat))) := outcome_of_ok (atSel_apply hat _)

theorem exec_selFair_of_ok {m : Nat} {t : State} (e : fairIndex p st a pv.toNat h.toNat s = .ok m t) :
    exec (.selFair pv h) s = .next (t.setResult (.nat m)) :=
  outcome_of_ok ((atSel_apply hat _).trans (bind_of_ok s (fun m => pure (Ret.nat m)) e))

theorem exec_selFair_of_faulted {t : State} (e : fairIndex p st a pv.toNat h.toNat s = .error .faulted t) :
    exec (.selFair pv h) s = .next t :=
  outcome_of_faulted ((atSel_apply hat _).trans (bind_of_error s (fun m => pure (Ret.nat m)) e))

theorem exec_selFair_of_refused {r : Refusal} {t : State}
    (e : fairIndex p st a pv.toNat h.toNat s = .error (.refuse r) t) : exec (.selFair pv h) s = .refused r :=
  outcome_of_refused ((atSel_apply hat _).trans (bind_of_error s (fun m => pure (Ret.nat m)) e))

/-- A reserved bucket code is refused, after the check where it lets the mode go on. -/
theorem exec_selFair_of_illegal (hgo : s.selModulus pv = liveCount pv ∨ s.strict.selectorCount = true)
    (hsel : 3 ≤ s.field .fairBucketSel [p, st, a]) (hpv : pv ≠ 0) :
    exec (.selFair pv h) s = .refused (.illegalConfig .fairBucketSel) := by
  by_cases hm : s.selModulus pv = liveCount pv
  · exact exec_selFair_of_refused hat ((fairIndex_of_count _ hm).trans (fairPick_of_illegal _ hsel hpv _))
  · exact exec_selFair_of_refused hat
      ((fairIndex_of_relaxed _ hm (hgo.resolve_left hm)).trans (fairPick_of_illegal _ hsel hpv _))

end

/-- What resilient mode answers (R226). -/
theorem resilientAt_cases (s : State) (p st a : Nat) (pv : Word) (hash : Nat) :
    let b := fun k => hashBucket s p st a hash k % s.selModulus pv
    let on := fun k => (s.field .hashEnable [p, st, a]).testBit k = true
    let m := resilientAt s p st a pv.toNat hash
    (m = 255 ∧ (pv = 0 ∨ ∀ k < 3, on k → ¬ pv.getLsbD (b k) = true)) ∨
      (pv ≠ 0 ∧ ∃ k < 3, m = b k ∧ on k ∧ pv.getLsbD m = true ∧ ∀ j < k, on j → ¬ pv.getLsbD (b j) = true) := by
  intro b on m
  by_cases hpv : pv = 0
  · refine .inl ⟨?_, .inl hpv⟩
    simp only [m, hpv, resilientAt, resilientIndex, sWordMsb_eq, selModulus_zero, if_true]
    rfl
  have hmod : s.selModulus pv ≠ 0 := mt eq_zero_of_selModulus hpv
  have scan : m = (firstLive pv.toNat (s.selModulus pv) (s.field .hashEnable [p, st, a])
      (hashBucket s p st a hash) [0, 1, 2]).getD noMember := by
    simp only [m, resilientAt, resilientIndex, sWordMsb_eq, if_neg hmod]
    rfl
  rcases firstLive_eq pv.toNat (s.selModulus pv) (s.field .hashEnable [p, st, a]) (hashBucket s p st a hash)
    with ⟨k, hk, found, ⟨hon, hlive⟩, before⟩ | ⟨none, never⟩
  · rw [found] at scan
    exact .inr ⟨hpv, k, hk, scan, hon, scan ▸ hlive, fun j hj hjon hjlive => before j hj ⟨hjon, hjlive⟩⟩
  · rw [none] at scan
    exact .inl ⟨scan, .inr fun k hk hkon hklive => never k hk ⟨hkon, hklive⟩⟩

/-- Settles O25, a strategy at a time. -/
theorem selectionAnswersLiveMembers : Obligations.SelectionAnswersLiveMembers := by
  intro s p st a pv h hat live err sel
  refine ⟨⟨_, exec_selResilient hat, resilientAt_cases s p st a pv h.toNat⟩,
    ⟨_, exec_selPlanB hat, fun hz => ?_, planBIndex_live s.params h.toNat⟩, fun hd => ?_, fun hm hok => ?_,
    exec_selFair_of_illegal hat, fun hm hf => ?_, fun hm hf hsel => ?_⟩
  · rw [hz]
    rfl
  · rw [State.selModulus, hd]
  · exact ⟨_, exec_selFair_of_ok hat ((fairIndex_of_count _ hm).trans (fairPick_of_legal _ hok _)),
      fairAnswer_fairMember _⟩
  · exact exec_selFair_of_faulted hat (fairIndex_of_fatal _ hm hf)
  · exact ⟨_, exec_selFair_of_ok hat ((fairIndex_of_relaxed _ hm hf).trans (fairPick_of_legal _ (.inl hsel) _)),
      fairAnswer_fairMember _⟩

end Sys2Proof.Machine
end

section
/-! SUPPORT. The clear sweep of a counter as a function of the state: one step, the loop, how it ends and what it
zeroes (R343 to R349). -/

namespace Sys2Proof.Machine

/-! ### The flag byte (R46, R350) -/

theorem hasFlag_start (f : BitVec 8) : hasFlag f flStartPending = f.getLsbD 0 := by
  rw [hasFlag, show flStartPending = BitVec.twoPow 8 0 from rfl, BitVec.and_twoPow]
  cases f.getLsbD 0 <;> rfl

theorem hasFlag_running (f : BitVec 8) : hasFlag f flRunning = f.getLsbD 1 := by
  rw [hasFlag, show flRunning = BitVec.twoPow 8 1 from rfl, BitVec.and_twoPow]
  cases f.getLsbD 1 <;> rfl

theorem getLsbD_zero_emptied (f : BitVec 8) : ((f &&& ~~~flStartPending) ||| flRunning).getLsbD 0 = false := by
  simp [flStartPending, flRunning]

theorem getLsbD_one_emptied (f : BitVec 8) : ((f &&& ~~~flStartPending) ||| flRunning).getLsbD 1 = true := by
  simp [flRunning]

theorem getLsbD_zero_stopped (f : BitVec 8) : (f &&& ~~~flRunning).getLsbD 0 = f.getLsbD 0 := by
  simp [flRunning]

theorem getLsbD_one_stopped (f : BitVec 8) : (f &&& ~~~flRunning).getLsbD 1 = false := by
  simp [flRunning]

theorem ctrActive_eq (f : BitVec 8) : ctrActive f = (f.getLsbD 0 || f.getLsbD 1) := by
  rw [ctrActive, hasFlag_start, hasFlag_running]

/-! ### One step (R346) -/

/-- The counter that a step of the clear works on: emptied where the clear begins. -/
def clearBegun (b : Bounds) (v : Counter) : Counter := if v.flags.getLsbD 0 then emptied b v else v

/-- The counter after the step: not running at the end of the region, else a unit on. -/
def clearMoved (b : Bounds) (v : Counter) : Counter :=
  if b.hi ≤ v.clearPtr then { v with flags := v.flags &&& ~~~flRunning } else { v with clearPtr := v.clearPtr + b.unit }

/-- The memory with the unit at a pointer zeroed. -/
def zeroUnit (p st c : Nat) (b : Bounds) (ptr : Nat) (m : Memory) : Memory :=
  m.write (saluAddr p st c (ptrWord ptr)) (wordSet (m.read (saluAddr p st c (ptrWord ptr))) 0 (ptrSub ptr) b.unit)

/-- The state after a step. -/
def State.clearStepped (s : State) (p st c : Nat) : State :=
  let b := boundsAt s p st c
  let v := clearBegun b (s.counter p st c)
  (s.setMem (zeroUnit p st c b v.clearPtr s.mem)).putCounter p st c (clearMoved b v)

section
variable {s t u : State} {p st c : Nat}

/-- The counter can be swept to its end: its bounds are legal, its region lies in the RAM, and so does its pointer
unless the first step sets it. -/
structure Sweepable (s : State) (p st c : Nat) : Prop where
  ready : CounterReady s p st c
  region : RegionInRam s p st c
  ptr : (s.counter p st c).flags.getLsbD 0 = true ∨ (s.counter p st c).clearPtr < s.params.saluRamWords * 2 ^ 7

theorem State.counter_putCounter_same (s : State) (p st c : Nat) (v : Counter) :
    (s.putCounter p st c v).counter p st c = v := by
  rw [State.counter_putCounter, if_pos rfl]

theorem State.putCounter_putCounter (s : State) (p st c : Nat) (v w : Counter) :
    (s.putCounter p st c v).putCounter p st c w = s.putCounter p st c w := by
  have same : Store.set {} (Store.set {} s.ctr.ctrs [p, st, c] v) [p, st, c] w = Store.set {} s.ctr.ctrs [p, st, c] w :=
    Store.set_set _ _ _ _ _
  exact congrArg (fun ctrs => s.setCtr { s.ctr with ctrs := ctrs }) same

theorem saluWord_inRange (hat : AtStage s p st) (hc : c < s.params.numSalu) {w : Nat} (hw : w < s.params.saluRamWords) :
    ramInRange s.params (saluAddr p st c w) = true := by
  obtain ⟨-, -, hp, hst⟩ := hat
  simp only [ramInRange, saluAddr, spaceUnits, spaceCols, spaceSize, hp, hst, hc, hw, decide_true, Bool.and_self,
    Nat.lt_one_iff]

/-! ### The region of a counter (R331, R332) -/

theorem boundsAt_unit_pos : 0 < (boundsAt s p st c).unit := Nat.two_pow_pos _

theorem Sweepable.unit_dvd (h : Sweepable s p st c) : (boundsAt s p st c).unit ∣ 2 ^ 7 := by
  obtain ⟨-, -, -, hshift⟩ := h.ready
  exact Nat.pow_dvd_pow 2 hshift

theorem Sweepable.unit_le (h : Sweepable s p st c) : (boundsAt s p st c).unit ≤ 2 ^ 7 :=
  Nat.le_of_dvd (by decide) h.unit_dvd

/-- The last unit of the region ends where the region ends. -/
theorem Sweepable.hi_add_unit (h : Sweepable s p st c) : (boundsAt s p st c).hi + (boundsAt s p st c).unit
    = (s.field .vpnLimit [p, st, c] + 1) * 2 ^ 17 := by
  have hle := h.unit_le
  have hhi : (boundsAt s p st c).hi
    = (s.field .vpnLimit [p, st, c] + 1) * 2 ^ 17 - (boundsAt s p st c).unit := rfl
  omega

theorem Sweepable.lo_le_hi (h : Sweepable s p st c) : (boundsAt s p st c).lo ≤ (boundsAt s p st c).hi := by
  have hle := h.unit_le
  have hend := h.hi_add_unit
  obtain ⟨-, -, hbase, -⟩ := h.ready
  have hlo : (boundsAt s p st c).lo = s.field .vpnBase [p, st, c] * 2 ^ 17 := rfl
  omega

theorem Sweepable.hi_lt (h : Sweepable s p st c) :
    (boundsAt s p st c).hi + (boundsAt s p st c).unit ≤ s.params.saluRamWords * 2 ^ 7 := by
  have hend := h.hi_add_unit
  have hregion := h.region.2
  omega

theorem Sweepable.lo_aligned (h : Sweepable s p st c) : (boundsAt s p st c).unit ∣ (boundsAt s p st c).lo :=
  (h.unit_dvd.trans (Nat.pow_dvd_pow 2 (by decide))).trans (Nat.dvd_mul_left (2 ^ 17) _)

theorem Sweepable.hi_aligned (h : Sweepable s p st c) : (boundsAt s p st c).unit ∣ (boundsAt s p st c).hi :=
  Nat.dvd_sub ((h.unit_dvd.trans (Nat.pow_dvd_pow 2 (by decide))).trans (Nat.dvd_mul_left (2 ^ 17) _)) (Nat.dvd_refl _)

theorem Sweepable.begun_lt (h : Sweepable s p st c) :
    (clearBegun (boundsAt s p st c) (s.counter p st c)).clearPtr < s.params.saluRamWords * 2 ^ 7 := by
  unfold clearBegun
  split
  · have := h.lo_le_hi
    have := h.hi_lt
    have : 0 < (boundsAt s p st c).unit := boundsAt_unit_pos
    simp only [emptied]
    omega
  · exact h.ptr.resolve_left ‹_›

/-- A step of a counter that can be swept runs to its end. -/
theorem clearStep_apply (h : Sweepable s p st c) : clearStep p st c s = .ok () (s.clearStepped p st c) := by
  obtain ⟨hat, hctr, hbase, hshift⟩ := h.ready
  have begun : (if hasFlag (s.counter p st c).flags flStartPending = true
      then emptied (boundsAt s p st c) (s.counter p st c) else s.counter p st c)
      = clearBegun (boundsAt s p st c) (s.counter p st c) := by
    rw [clearBegun, hasFlag_start]
  have hword : ptrWord (clearBegun (boundsAt s p st c) (s.counter p st c)).clearPtr < s.params.saluRamWords :=
    Nat.div_lt_of_lt_mul (by rw [Nat.mul_comm]; exact h.begun_lt)
  have inRange := saluWord_inRange hat h.region.1 hword
  unfold clearStep
  rw [bind_of_ok _ _ (readBounds_of_le hbase), counterOf_bind]
  simp only [begun]
  rw [putCtr_bind, bind_of_ok _ _ (memRead_of_inRange (by exact inRange)),
    bind_of_ok _ _ (memWrite_of_inRange _ (by exact inRange))]
  have moved (v' : Counter) (hv : v' = clearMoved (boundsAt s p st c) (clearBegun (boundsAt s p st c) (s.counter p st c))) :
      ((s.setMem (zeroUnit p st c (boundsAt s p st c) (clearBegun (boundsAt s p st c) (s.counter p st c)).clearPtr
        s.mem)).putCounter p st c (clearBegun (boundsAt s p st c) (s.counter p st c))).putCounter p st c v'
      = s.clearStepped p st c := by
    rw [State.putCounter_putCounter, hv]
    rfl
  split
  · exact congrArg (EStateM.Result.ok ()) (moved _ (if_pos ‹_›).symm)
  · exact congrArg (EStateM.Result.ok ()) (moved _ (if_neg ‹_›).symm)

/-! ### The loop (R347, R349) -/

/-- The time of the next step, a period later. -/
def clearLater (period : Nat) (v : Counter) : Counter := { v with tClearNext := v.tClearNext + period }

/-- One round of a sweep: a step, and the time of the next one a period later. -/
def sweepPass (p st c period : Nat) (s : State) : State :=
  (s.clearStepped p st c).putCounter p st c (clearLater period ((s.clearStepped p st c).counter p st c))

/-- At most `n` rounds, as long as the counter is one to go on with. -/
def sweepWhile (p st c : Nat) (go : Counter → Bool) (period : Nat) : Nat → State → State
  | 0, s => s
  | n + 1, s => if go (s.counter p st c) then sweepWhile p st c go period n (sweepPass p st c period s) else s

/-- The sweep up to a time goes on while the counter is active and due. -/
def dueBy (tStop : Nat) (v : Counter) : Bool := ctrActive v.flags && decide (v.tClearNext ≤ tStop)

theorem counter_clearStepped : (s.clearStepped p st c).counter p st c
    = clearMoved (boundsAt s p st c) (clearBegun (boundsAt s p st c) (s.counter p st c)) :=
  State.counter_putCounter_same _ _ _ _ _

theorem counter_sweepPass (period : Nat) : (sweepPass p st c period s).counter p st c
    = clearLater period (clearMoved (boundsAt s p st c) (clearBegun (boundsAt s p st c) (s.counter p st c))) := by
  rw [sweepPass, State.counter_putCounter_same, counter_clearStepped]

@[simp] theorem clearLater_clearPtr (v : Counter) (period : Nat) : (clearLater period v).clearPtr = v.clearPtr := rfl
@[simp] theorem clearLater_zero (v : Counter) : clearLater 0 v = v := rfl

/-- Without a period a round is a step. -/
theorem sweepPass_zero : sweepPass p st c 0 s = s.clearStepped p st c := by
  rw [sweepPass, clearLater_zero, counter_clearStepped]
  exact State.putCounter_putCounter _ _ _ _ _ _

/-! A round keeps the launch record, the configuration and where the step is addressed. -/

@[simp] theorem params_sweepPass (period : Nat) : (sweepPass p st c period s).params = s.params := rfl
@[simp] theorem cfg_sweepPass (period : Nat) : (sweepPass p st c period s).cfg = s.cfg := rfl
@[simp] theorem act_sweepPass (period : Nat) : (sweepPass p st c period s).act = s.act := rfl

@[simp] theorem field_sweepPass (period : Nat) (name : FieldName) (idx : List Nat) :
    (sweepPass p st c period s).field name idx = s.field name idx := State.field_eq_of_cfg (cfg_sweepPass period) _ _

@[simp] theorem boundsAt_sweepPass (period : Nat) : boundsAt (sweepPass p st c period s) p st c = boundsAt s p st c := by
  simp only [boundsAt, field_sweepPass]

theorem clearPtr_clearMoved_le (b : Bounds) (v : Counter) :
    (clearMoved b v).clearPtr = v.clearPtr ∨ (v.clearPtr < b.hi ∧ (clearMoved b v).clearPtr = v.clearPtr + b.unit) := by
  unfold clearMoved
  split
  · exact .inl rfl
  · exact .inr ⟨Nat.not_le.1 ‹_›, rfl⟩

theorem Sweepable.sweepPass (h : Sweepable s p st c) (period : Nat) : Sweepable (sweepPass p st c period s) p st c := by
  have moved := clearPtr_clearMoved_le (boundsAt s p st c) (clearBegun (boundsAt s p st c) (s.counter p st c))
  have begun := h.begun_lt
  have last := h.hi_lt
  obtain ⟨ready, region, -⟩ := h
  refine ⟨?_, ?_, .inr ?_⟩
  · simpa only [CounterReady, AtStage, params_sweepPass, act_sweepPass, field_sweepPass] using ready
  · simpa only [RegionInRam, params_sweepPass, field_sweepPass] using region
  · rw [counter_sweepPass, clearLater_clearPtr, params_sweepPass]
    omega

theorem clearAllLoop_eq : ∀ n {s}, Sweepable s p st c → clearAllLoop p st c n s
    = .ok () (sweepWhile p st c (fun v => ctrActive v.flags) 0 n s)
  | 0, _, _ => rfl
  | n + 1, s, h => by
    rw [clearAllLoop, counterOf_bind, sweepWhile]
    split
    · rw [bind_of_ok s _ (clearStep_apply h), ← sweepPass_zero]
      exact clearAllLoop_eq n (h.sweepPass 0)
    · rfl

theorem clearTillLoop_eq (tStop : Nat) : ∀ n {s}, Sweepable s p st c → clearTillLoop p st c tStop n s
    = .ok () (sweepWhile p st c (dueBy tStop) s.params.ctrClearPeriod n s)
  | 0, _, _ => rfl
  | n + 1, s, h => by
    rw [clearTillLoop, counterOf_bind, sweepWhile, dueBy]
    split
    · rw [bind_of_ok s _ (clearStep_apply h), counterOf_bind, look_bind, putCtr_bind]
      have rest := clearTillLoop_eq tStop n (h.sweepPass s.params.ctrClearPeriod)
      rw [params_sweepPass] at rest
      exact rest
    · rfl

/-! ### How a sweep ends -/

/-- How many rounds a sweep can still take, a unit at a time. -/
def roundsLeft (b : Bounds) (v : Counter) : Nat :=
  if v.flags.getLsbD 0 then b.hi - b.lo + 1 else if v.flags.getLsbD 1 then b.hi - v.clearPtr + 1 else 0

theorem roundsLeft_clearLater (b : Bounds) (v : Counter) (period : Nat) : roundsLeft b (clearLater period v) = roundsLeft b v := rfl

theorem active_of_roundsLeft {b : Bounds} {v : Counter} : roundsLeft b v ≠ 0 ↔ ctrActive v.flags = true := by
  rw [ctrActive_eq, roundsLeft]
  cases v.flags.getLsbD 0 <;> cases v.flags.getLsbD 1 <;> simp

/-- A step of a counter that has begun and is not pending takes a round. -/
theorem roundsLeft_clearMoved {b : Bounds} (hb : 0 < b.unit) {v : Counter} (h0 : v.flags.getLsbD 0 = false)
    (h1 : v.flags.getLsbD 1 = true) : roundsLeft b (clearMoved b v) < roundsLeft b v := by
  unfold clearMoved
  split
  · simp only [roundsLeft, getLsbD_zero_stopped, getLsbD_one_stopped, h0, h1]
    simp
  · simp only [roundsLeft, h0, h1, Bool.false_eq_true, if_false, if_true]
    omega

theorem roundsLeft_step {b : Bounds} (hb : 0 < b.unit) {v : Counter} (h : ctrActive v.flags = true) :
    roundsLeft b (clearMoved b (clearBegun b v)) < roundsLeft b v := by
  cases h0 : v.flags.getLsbD 0
  · have h1 : v.flags.getLsbD 1 = true := by simpa only [ctrActive_eq, h0, Bool.false_or] using h
    rw [clearBegun, if_neg (by rw [h0]; decide)]
    exact roundsLeft_clearMoved hb h0 h1
  · have first : roundsLeft b v = roundsLeft b (emptied b v) := by
      simp only [roundsLeft, h0, emptied, getLsbD_zero_emptied, getLsbD_one_emptied, if_true, Bool.false_eq_true, if_false]
    rw [clearBegun, if_pos h0, first]
    exact roundsLeft_clearMoved hb (getLsbD_zero_emptied _) (getLsbD_one_emptied _)

theorem roundsLeft_sweepPass (period : Nat) (h : ctrActive (s.counter p st c).flags = true) :
    roundsLeft (boundsAt s p st c) ((sweepPass p st c period s).counter p st c)
      < roundsLeft (boundsAt s p st c) (s.counter p st c) := by
  rw [counter_sweepPass, roundsLeft_clearLater]
  exact roundsLeft_step boundsAt_unit_pos h

theorem roundsLeft_le_clearFuel : roundsLeft (boundsAt s p st c) (s.counter p st c) ≤ clearFuel s p st c := by
  simp only [roundsLeft, clearFuel]
  split
  · omega
  · split <;> omega

section
variable {go : Counter → Bool} {period : Nat}

theorem sweepWhile_of_not {n : Nat} (h : go (s.counter p st c) = false) : sweepWhile p st c go period n s = s := by
  cases n
  · rfl
  · rw [sweepWhile, h]
    rfl

variable (hgo : ∀ v, go v = true → ctrActive v.flags = true)
include hgo

theorem not_go_of_roundsLeft (h0 : roundsLeft (boundsAt s p st c) (s.counter p st c) ≤ 0) :
    go (s.counter p st c) = false := by
  by_contra h
  exact active_of_roundsLeft.2 (hgo _ (Bool.eq_true_of_not_eq_false h)) (Nat.le_zero.1 h0)

/-- With enough rounds a sweep ends at a counter that is not one to go on with. -/
theorem sweepWhile_ends (n : Nat) (hn : roundsLeft (boundsAt s p st c) (s.counter p st c) ≤ n) :
    go ((sweepWhile p st c go period n s).counter p st c) = false := by
  induction n generalizing s with
  | zero => exact not_go_of_roundsLeft hgo hn
  | succ n ih =>
    cases hg : go (s.counter p st c)
    · rw [sweepWhile_of_not hg, hg]
    · have step := (roundsLeft_sweepPass period (hgo _ hg)).trans_le hn
      rw [sweepWhile, if_pos hg]
      exact ih (by rw [boundsAt_sweepPass]; exact Nat.le_of_lt_succ step)

/-- More rounds than enough change nothing. -/
theorem sweepWhile_enough (n m : Nat) (hn : roundsLeft (boundsAt s p st c) (s.counter p st c) ≤ n)
    (hm : roundsLeft (boundsAt s p st c) (s.counter p st c) ≤ m) :
    sweepWhile p st c go period n s = sweepWhile p st c go period m s := by
  induction n generalizing s m with
  | zero => rw [sweepWhile_of_not (not_go_of_roundsLeft hgo hn), sweepWhile_of_not (not_go_of_roundsLeft hgo hn)]
  | succ n ih =>
    cases hg : go (s.counter p st c)
    · rw [sweepWhile_of_not hg, sweepWhile_of_not hg]
    cases m with
    | zero => rw [not_go_of_roundsLeft hgo hm] at hg; cases hg
    | succ m =>
      have step := roundsLeft_sweepPass period (hgo _ hg)
      rw [sweepWhile, sweepWhile, if_pos hg, if_pos hg]
      rw [← boundsAt_sweepPass period] at step
      exact ih m (Nat.le_of_lt_succ (step.trans_le hn)) (Nat.le_of_lt_succ (step.trans_le hm))

end

theorem dueBy_active {tStop : Nat} (v : Counter) (h : dueBy tStop v = true) : ctrActive v.flags = true :=
  ((Bool.and_eq_true _ _).mp h).1

/-! ### What a sweep leaves alone -/

/-- Only the memory and the one counter differ. -/
structure OnlySwept (p st c : Nat) (s t : State) : Prop where
  state : t = (s.setMem t.mem).setCtr t.ctr
  others : ∀ q u d, [q, u, d] ≠ [p, st, c] → t.counter q u d = s.counter q u d

theorem OnlySwept.refl (s : State) : OnlySwept p st c s s := ⟨rfl, fun _ _ _ _ => rfl⟩

theorem OnlySwept.trans (h : OnlySwept p st c s t) (h' : OnlySwept p st c t u) : OnlySwept p st c s u := by
  refine ⟨?_, fun q w d hne => (h'.others q w d hne).trans (h.others q w d hne)⟩
  have e := h'.state
  rw [h.state] at e
  exact e

theorem onlySwept_putCounter (s : State) (m : Memory) (v : Counter) :
    OnlySwept p st c s ((s.setMem m).putCounter p st c v) :=
  ⟨rfl, fun _ _ _ hne => (State.counter_putCounter _ _ _ _ _ _ _ _).trans (if_neg hne)⟩

theorem onlySwept_putSpin (s : State) (b : Bool) : OnlySwept p st c s (s.putSpin p st b) := ⟨rfl, fun _ _ _ _ => rfl⟩

theorem onlySwept_sweepPass (period : Nat) (s : State) : OnlySwept p st c s (sweepPass p st c period s) :=
  (onlySwept_putCounter s _ _).trans (onlySwept_putCounter (s.clearStepped p st c) _ _)

theorem onlySwept_sweepWhile (go : Counter → Bool) (period : Nat) : ∀ n s, OnlySwept p st c s (sweepWhile p st c go period n s)
  | 0, s => .refl s
  | n + 1, s => by
    rw [sweepWhile]
    split
    · exact (onlySwept_sweepPass period s).trans (onlySwept_sweepWhile go period n _)
    · exact .refl s

theorem tClearNext_clearStep (b : Bounds) (v : Counter) : (clearMoved b (clearBegun b v)).tClearNext = v.tClearNext := by
  unfold clearMoved clearBegun
  split <;> split <;> rfl

/-- Without a period the time of the next step stays. -/
theorem tClearNext_sweepWhile (go : Counter → Bool) : ∀ n s,
    ((sweepWhile p st c go 0 n s).counter p st c).tClearNext = (s.counter p st c).tClearNext
  | 0, _ => rfl
  | n + 1, s => by
    rw [sweepWhile]
    split
    · rw [tClearNext_sweepWhile go n, counter_sweepPass, clearLater_zero, tClearNext_clearStep]
    · rfl

/-! A sweep reads neither the spinlock nor what the last operation answered. -/

theorem boundsAt_putSpin (b : Bool) : boundsAt (s.putSpin p st b) p st c = boundsAt s p st c := rfl
theorem State.counter_putSpin (b : Bool) : (s.putSpin p st b).counter p st c = s.counter p st c := rfl
theorem State.putCounter_putSpin (b : Bool) (v : Counter) :
    (s.putSpin p st b).putCounter p st c v = (s.putCounter p st c v).putSpin p st b := rfl

theorem clearStepped_putSpin (b : Bool) :
    (s.putSpin p st b).clearStepped p st c = (s.clearStepped p st c).putSpin p st b := by
  simp only [State.clearStepped, boundsAt_putSpin, State.counter_putSpin]
  exact State.putCounter_putSpin (s := s.setMem _) _ _

theorem sweepPass_putSpin (b : Bool) (period : Nat) :
    sweepPass p st c period (s.putSpin p st b) = (sweepPass p st c period s).putSpin p st b := by
  rw [sweepPass, clearStepped_putSpin, State.counter_putSpin, State.putCounter_putSpin, ← sweepPass]

theorem sweepWhile_putSpin (go : Counter → Bool) (period : Nat) (b : Bool) : ∀ n s,
    sweepWhile p st c go period n (s.putSpin p st b) = (sweepWhile p st c go period n s).putSpin p st b
  | 0, _ => rfl
  | n + 1, s => by
    rw [sweepWhile, sweepWhile, State.counter_putSpin, sweepPass_putSpin]
    split
    · exact sweepWhile_putSpin go period b n _
    · rfl

theorem boundsAt_setResult (r : Ret) : boundsAt (s.setResult r) p st c = boundsAt s p st c := rfl
theorem State.counter_setResult (r : Ret) : (s.setResult r).counter p st c = s.counter p st c := rfl
theorem State.putCounter_setResult (r : Ret) (v : Counter) :
    (s.setResult r).putCounter p st c v = (s.putCounter p st c v).setResult r := rfl

theorem clearStepped_setResult (r : Ret) :
    (s.setResult r).clearStepped p st c = (s.clearStepped p st c).setResult r := by
  simp only [State.clearStepped, boundsAt_setResult, State.counter_setResult]
  exact State.putCounter_setResult (s := s.setMem _) _ _

theorem sweepPass_setResult (r : Ret) (period : Nat) :
    sweepPass p st c period (s.setResult r) = (sweepPass p st c period s).setResult r := by
  rw [sweepPass, clearStepped_setResult, State.counter_setResult, State.putCounter_setResult, ← sweepPass]

theorem sweepWhile_setResult (go : Counter → Bool) (period : Nat) (r : Ret) : ∀ n s,
    sweepWhile p st c go period n (s.setResult r) = (sweepWhile p st c go period n s).setResult r
  | 0, _ => rfl
  | n + 1, s => by
    rw [sweepWhile, sweepWhile, State.counter_setResult, sweepPass_setResult]
    split
    · exact sweepWhile_setResult go period r n _
    · rfl

end
end Sys2Proof.Machine
end

section
/-! SUPPORT. What a whole clear leaves: the counter emptied and at its end, the bits of its region zero (R343, R346,
R349). -/

namespace Sys2Proof.Machine

section
variable {s t : State} {p st c : Nat}

/-! ### Zeroed bits -/

/-- The bits from `a` up to `b` of a stateful ALU's RAM are zero, every other bit of its words is as it was, and so is
every word that holds none of them. -/
structure Zeroes (p st c a b : Nat) (m m' : Memory) : Prop where
  bits : ∀ w i, i < 128 → (m'.read (saluAddr p st c w)).getLsbD i
    = (!decide (a ≤ 128 * w + i ∧ 128 * w + i < b) && (m.read (saluAddr p st c w)).getLsbD i)
  frame : ∀ x, (∀ w, a < 128 * (w + 1) → 128 * w < b → x.key ≠ (saluAddr p st c w).key) → m'.read x = m.read x

/-- Zeroing on from where the first zeroing ended. -/
theorem Zeroes.trans {a b d : Nat} {m m' m'' : Memory} (hab : a ≤ b) (hbd : b ≤ d) (h : Zeroes p st c a b m m')
    (h' : Zeroes p st c b d m' m'') : Zeroes p st c a d m m'' where
  bits w i hi := by
    have joined : decide (a ≤ 128 * w + i ∧ 128 * w + i < d)
        = (decide (b ≤ 128 * w + i ∧ 128 * w + i < d) || decide (a ≤ 128 * w + i ∧ 128 * w + i < b)) := by
      rw [← Bool.decide_or]
      exact decide_eq_decide.2 (by omega)
    rw [h'.bits w i hi, h.bits w i hi, joined, Bool.not_or, Bool.and_assoc]
  frame x hx :=
    (h'.frame x fun w hb hd => hx w (hab.trans_lt hb) hd).trans (h.frame x fun w ha hb => hx w ha (hb.trans_le hbd))

theorem saluAddr_key_inj {w w' : Nat} : (saluAddr p st c w).key = (saluAddr p st c w').key ↔ w = w' := by
  simp [saluAddr, RamAddr.key]

/-- A unit at a whole number of units lies in one word. -/
theorem unit_in_word {unit ptr : Nat} (hu : unit ∣ 2 ^ 7) (hp : unit ∣ ptr) : ptr % 2 ^ 7 + unit ≤ 2 ^ 7 := by
  obtain ⟨n, hn⟩ := hu
  obtain ⟨k, rfl⟩ := hp
  have hpos : 0 < n := Nat.pos_of_ne_zero fun h => by simp [h] at hn
  rw [hn, Nat.mul_mod_mul_left, ← Nat.mul_succ]
  exact Nat.mul_le_mul_left unit (Nat.mod_lt k hpos)

theorem zeroes_zeroUnit {b : Bounds} {ptr : Nat} (hpos : 0 < b.unit) (hu : b.unit ∣ 2 ^ 7) (hp : b.unit ∣ ptr)
    (m : Memory) : Zeroes p st c ptr (ptr + b.unit) m (zeroUnit p st c b ptr m) := by
  have fits : ptr % 2 ^ 7 + b.unit ≤ 2 ^ 7 := unit_in_word hu hp
  have split : 2 ^ 7 * (ptr / 2 ^ 7) + ptr % 2 ^ 7 = ptr := Nat.div_add_mod ptr _
  refine ⟨fun w i hi => ?_, fun x hx => Memory.read_write_other m _ (hx (ptrWord ptr) ?_ ?_)⟩
  · rw [zeroUnit, Memory.read_write]
    by_cases hw : w = ptrWord ptr
    · have place : (ptrSub ptr ≤ i ∧ i < ptrSub ptr + b.unit) ↔ (ptr ≤ 128 * w + i ∧ 128 * w + i < ptr + b.unit) := by
        rw [hw, ptrWord, ptrSub]
        omega
      rw [if_pos (saluAddr_key_inj.2 hw), getLsbD_wordSet, decide_eq_true hi, ← hw]
      simp only [place, Nat.zero_testBit, Bool.true_and]
      split
      · rw [decide_eq_true ‹_›]
        rfl
      · rw [decide_eq_false ‹_›]
        rfl
    · have outside : ¬ (ptr ≤ 128 * w + i ∧ 128 * w + i < ptr + b.unit) := by
        rw [ptrWord] at hw
        omega
      rw [if_neg (mt saluAddr_key_inj.1 hw), decide_eq_false outside]
      rfl
  · rw [ptrWord]
    omega
  · rw [ptrWord]
    omega

/-- A region of whole pages that is zeroed from its first bit to its last. -/
theorem regionCleared_of_zeroes {lo hi : Nat} (hlo : lo = s.field .vpnBase [p, st, c] * 2 ^ 17)
    (hhi : hi = (s.field .vpnLimit [p, st, c] + 1) * 2 ^ 17) (h : Zeroes p st c lo hi s.mem t.mem) :
    RegionCleared s t p st c := by
  refine ⟨fun w hw => BitVec.eq_of_getLsbD_eq fun i hi' => ?_, fun x hx => h.frame x fun w ha hb => hx w (by omega)⟩
  have inside : lo ≤ 128 * w + i ∧ 128 * w + i < hi := by omega
  rw [h.bits w i hi', decide_eq_true inside]
  exact (BitVec.getLsbD_zero).symm

/-! ### The whole clear -/

/-- The counter at the end of its clear. -/
def clearDone (b : Bounds) (v : Counter) : Counter := { v with flags := v.flags &&& ~~~flRunning, clearPtr := b.hi }

theorem clearBegun_not_pending (b : Bounds) (v : Counter) : (clearBegun b v).flags.getLsbD 0 = false := by
  unfold clearBegun
  split
  · exact getLsbD_zero_emptied _
  · exact Bool.eq_false_of_not_eq_true ‹_›

theorem clearBegun_of_not_pending (b : Bounds) {v : Counter} (h : v.flags.getLsbD 0 = false) : clearBegun b v = v :=
  if_neg (by rw [h]; decide)

theorem clearBegun_running (b : Bounds) {v : Counter} (h : ctrActive v.flags = true) :
    (clearBegun b v).flags.getLsbD 1 = true := by
  cases h0 : v.flags.getLsbD 0
  · rw [clearBegun_of_not_pending b h0]
    simpa only [ctrActive_eq, h0, Bool.false_or] using h
  · rw [clearBegun, if_pos h0]
    exact getLsbD_one_emptied _

theorem clearMoved_last {b : Bounds} {v : Counter} (h : v.clearPtr = b.hi) : clearMoved b v = clearDone b v := by
  rw [clearMoved, if_pos h.ge, clearDone, ← h]

theorem clearMoved_next {b : Bounds} {v : Counter} (h : v.clearPtr < b.hi) :
    clearMoved b v = { v with clearPtr := v.clearPtr + b.unit } :=
  if_neg (Nat.not_le.2 h)

theorem clearDone_moved (b : Bounds) (v : Counter) (ptr : Nat) :
    clearDone b { v with clearPtr := ptr } = clearDone b v := rfl

theorem mem_sweepPass (period : Nat) : (sweepPass p st c period s).mem
    = zeroUnit p st c (boundsAt s p st c) (clearBegun (boundsAt s p st c) (s.counter p st c)).clearPtr s.mem := rfl

/-- One unit below the end, the next unit is not past it. -/
theorem next_unit_le {unit ptr hi : Nat} (hp : unit ∣ ptr) (hh : unit ∣ hi) (h : ptr < hi) : ptr + unit ≤ hi := by
  have := Nat.le_of_dvd (Nat.sub_pos_of_lt h) (Nat.dvd_sub hh hp)
  omega

/-- The sweep of an active counter whose pointer stands at a whole unit of its region ends at the last unit, and zeroes
every unit from the pointer on. -/
theorem sweepWhile_clears (n : Nat) (h : Sweepable s p st c) (active : ctrActive (s.counter p st c).flags = true)
    (aligned : (boundsAt s p st c).unit ∣ (clearBegun (boundsAt s p st c) (s.counter p st c)).clearPtr)
    (le : (clearBegun (boundsAt s p st c) (s.counter p st c)).clearPtr ≤ (boundsAt s p st c).hi)
    (hn : roundsLeft (boundsAt s p st c) (s.counter p st c) ≤ n) :
    (sweepWhile p st c (fun v => ctrActive v.flags) 0 n s).counter p st c
        = clearDone (boundsAt s p st c) (clearBegun (boundsAt s p st c) (s.counter p st c))
      ∧ Zeroes p st c (clearBegun (boundsAt s p st c) (s.counter p st c)).clearPtr
        ((boundsAt s p st c).hi + (boundsAt s p st c).unit) s.mem
        (sweepWhile p st c (fun v => ctrActive v.flags) 0 n s).mem := by
  induction n generalizing s with
  | zero => exact absurd (Nat.le_zero.1 hn) (active_of_roundsLeft.2 active)
  | succ n ih =>
    have rounds := Nat.le_of_lt_succ ((roundsLeft_sweepPass 0 active).trans_le hn)
    have running := clearBegun_running (boundsAt s p st c) active
    have notPending := clearBegun_not_pending (boundsAt s p st c) (s.counter p st c)
    have counter : (sweepPass p st c 0 s).counter p st c
        = clearMoved (boundsAt s p st c) (clearBegun (boundsAt s p st c) (s.counter p st c)) := by
      rw [counter_sweepPass, clearLater_zero]
    have zeroed : Zeroes p st c (clearBegun (boundsAt s p st c) (s.counter p st c)).clearPtr
        ((clearBegun (boundsAt s p st c) (s.counter p st c)).clearPtr + (boundsAt s p st c).unit) s.mem
        (sweepPass p st c 0 s).mem := by
      rw [mem_sweepPass]
      exact zeroes_zeroUnit boundsAt_unit_pos h.unit_dvd aligned s.mem
    rw [sweepWhile, if_pos active]
    generalize clearBegun (boundsAt s p st c) (s.counter p st c) = v at *
    rcases le.eq_or_lt with last | next
    · rw [clearMoved_last last] at counter
      rw [sweepWhile_of_not (by rw [counter, ctrActive_eq, clearDone, getLsbD_zero_stopped, getLsbD_one_stopped, notPending]; rfl),
        counter]
      exact ⟨rfl, last ▸ zeroed⟩
    · have nextLe := next_unit_le aligned h.hi_aligned next
      have ih := @ih (sweepPass p st c 0 s) (h.sweepPass 0)
      rw [clearMoved_next next] at counter
      rw [boundsAt_sweepPass, counter, clearBegun_of_not_pending _ (by exact notPending), clearDone_moved] at ih
      rw [counter] at rounds
      obtain ⟨done, rest⟩ := ih (by rw [ctrActive_eq, running, Bool.or_true]) (aligned.add (Nat.dvd_refl _)) nextLe rounds
      exact ⟨done, zeroed.trans (Nat.le_add_right _ _) (by omega) rest⟩

/-- A clear that begins empties the counter and zeroes its whole region. -/
theorem sweepWhile_clears_started (n : Nat) (h : Sweepable s p st c)
    (pending : (s.counter p st c).flags.getLsbD 0 = true)
    (hn : roundsLeft (boundsAt s p st c) (s.counter p st c) ≤ n) :
    (sweepWhile p st c (fun v => ctrActive v.flags) 0 n s).counter p st c
        = s.clearedCounter p st c (s.counter p st c).tClearNext
      ∧ RegionCleared s (sweepWhile p st c (fun v => ctrActive v.flags) 0 n s) p st c := by
  have begun : clearBegun (boundsAt s p st c) (s.counter p st c) = emptied (boundsAt s p st c) (s.counter p st c) :=
    if_pos pending
  have clears := sweepWhile_clears n h (by rw [ctrActive_eq, pending, Bool.true_or])
  rw [begun] at clears
  obtain ⟨counter, zeroed⟩ := clears h.lo_aligned h.lo_le_hi hn
  have flags : ∀ f : BitVec 8, ((f &&& ~~~flStartPending) ||| flRunning) &&& ~~~flRunning = f &&& 0xFC#8 := by
    decide
  refine ⟨counter.trans ?_, regionCleared_of_zeroes rfl h.hi_add_unit zeroed⟩
  simp only [clearDone, emptied, flags]
  rfl

end
end Sys2Proof.Machine
end

section
/-! PROOF. Starting a clear, the sweep, the synchronous clear, and the watermark (R342, R345 to R351). -/

namespace Sys2Proof.Machine

section
variable {s t : State} {p st c : Nat}

/-! ### The operations of a counter -/

theorem outcome_counterOp {f : Nat → Nat → M Unit} (hat : AtStage s p st) (hc : c < s.params.numCtrs)
    (h : f p st s = .ok () t) : outcome (counterOp c f) s = .next (t.setResult .none) :=
  outcome_of_ok (by rw [counterOp, atStage_apply hat, withCounter_apply hc, bind_of_ok s _ h]; rfl)

theorem watermarkStep_eq (pop : Bool) : watermarkStep s p st c pop (s.counter p st c)
    = { s.counter p st c with wmCount := s.watermarked p st c pop } := by
  unfold watermarkStep State.watermarked
  cases s.flag .wmEnable [p, st, c]
  · rfl
  generalize s.flag .wmCountPops [p, st, c] = kind
  by_cases counted : kind = pop
  · have both : true = true ∧ kind = pop := ⟨rfl, counted⟩
    rw [if_pos both, counted, bne_self_eq_false, if_neg (by decide), show 2 ^ 7 = 128 from rfl]
    split <;> rfl
  · have other : (!true || (pop != kind)) = true := bne_iff_ne.2 (Ne.symm counted)
    rw [if_pos other, if_neg fun both => counted both.2]

theorem exec_ctrWatermark (hat : AtStage s p st) (hc : c < s.params.numCtrs) (pop : Bool) :
    exec (.ctrWatermark c pop) s
      = .next ((s.putCounter p st c { s.counter p st c with wmCount := s.watermarked p st c pop }).setResult .none) := by
  have step : (look id >>= fun s => putCtr p st c (watermarkStep s p st c pop (s.counter p st c))) s
      = .ok () (s.putCounter p st c { s.counter p st c with wmCount := s.watermarked p st c pop }) := by
    rw [look_bind, id, watermarkStep_eq, putCtr_apply]
  exact outcome_counterOp hat hc step

theorem exec_ctrMaybeSynchronousClear (hat : AtStage s p st) (hc : c < s.params.numCtrs)
    (h : maybeSynchronousClear p st c s = .ok () t) :
    exec (.ctrMaybeSynchronousClear c) s = .next (t.setResult .none) :=
  outcome_counterOp hat hc h

theorem exec_ctrContinueClearTill {tStop : Nat} (hat : AtStage s p st) (hc : c < s.params.numCtrs)
    (h : continueClearTill p st c tStop s = .ok () t) :
    exec (.ctrContinueClearTill c tStop) s = .next (t.setResult .none) :=
  outcome_counterOp hat hc h

/-- Both operations that start a clear do so, at the time given or at the pipe's clock. -/
theorem exec_starts (hat : AtStage s p st) (hc : c < s.params.numCtrs) {t0 : Nat} {e : Instr × Nat}
    (he : e ∈ [(Instr.ctrStartClearAt c t0, t0), (Instr.ctrStartClear p st c, (s.pipe p).cycle)])
    (h : startClearAt p st c e.2 s = .ok () t) : exec e.1 s = .next (t.setResult .none) := by
  rw [List.mem_cons, List.mem_singleton] at he
  rcases he with rfl | rfl
  · exact outcome_counterOp hat hc h
  · refine outcome_of_ok ?_
    rw [look_bind, id, if_pos (stageExists_of_at hat), withCounter_apply hc, bind_of_ok s _ h]
    rfl

/-! ### The spinlock (R351) -/

theorem State.putSpin_putSpin (s : State) (b b' : Bool) : (s.putSpin p st b).putSpin p st b' = s.putSpin p st b' := by
  have same : Store.set false (Store.set false s.ctr.spin [p, st] b) [p, st] b' = Store.set false s.ctr.spin [p, st] b' :=
    Store.set_set _ _ _ _ _
  exact congrArg (fun spin => s.setCtr { s.ctr with spin := spin }) same

theorem spin_putSpin (s : State) (b : Bool) : Store.get false (s.putSpin p st b).ctr.spin [p, st] = b :=
  Store.get_set_same _ _ _ _

theorem Sweepable.putSpin (h : Sweepable s p st c) (b : Bool) : Sweepable (s.putSpin p st b) p st c :=
  ⟨h.ready, h.region, h.ptr⟩

theorem Sweepable.setResult (h : Sweepable s p st c) (r : Ret) : Sweepable (s.setResult r) p st c :=
  ⟨h.ready, h.region, h.ptr⟩

theorem clearFuel_putSpin (b : Bool) : clearFuel (s.putSpin p st b) p st c = clearFuel s p st c := by
  rw [clearFuel, boundsAt_putSpin, State.counter_putSpin, clearFuel]

theorem params_putSpin (b : Bool) : (s.putSpin p st b).params = s.params := rfl

/-! ### The two sweeps (R347, R349) -/

/-- The state after the whole sweep of a counter. -/
def State.sweptAll (s : State) (p st c : Nat) : State :=
  sweepWhile p st c (fun v => ctrActive v.flags) 0 (clearFuel s p st c) s

/-- The state after the sweep of a counter up to a time. -/
def State.sweptTill (s : State) (p st c tStop : Nat) : State :=
  sweepWhile p st c (dueBy tStop) s.params.ctrClearPeriod (clearFuel s p st c) s

theorem maybeSynchronousClear_of_off (hf : s.flag .syncClear [p, st] = false) :
    maybeSynchronousClear p st c s = .ok () s := by
  rw [maybeSynchronousClear, look_bind, id, hf]
  rfl

theorem maybeSynchronousClear_of_on (hf : s.flag .syncClear [p, st] = true) (h : Sweepable s p st c) :
    maybeSynchronousClear p st c s = .ok () ((s.sweptAll p st c).putSpin p st false) := by
  rw [maybeSynchronousClear, look_bind, id, hf, if_pos rfl, spinLock, change_bind,
    bind_of_ok _ _ (clearAllLoop_eq _ (h.putSpin true)), sweepWhile_putSpin, spinUnlock, change_apply,
    State.putSpin_putSpin, ← State.sweptAll]

theorem continueClearTill_apply (tStop : Nat) (h : Sweepable s p st c) :
    continueClearTill p st c tStop s = .ok () ((s.sweptTill p st c tStop).putSpin p st false) := by
  rw [continueClearTill, spinLock, change_bind, look_bind, bind_of_ok _ _ (clearTillLoop_eq tStop _ (h.putSpin true)),
    sweepWhile_putSpin, spinUnlock, change_apply, State.putSpin_putSpin, clearFuel_putSpin, params_putSpin,
    ← State.sweptTill]

/-- Both leave an inactive counter alone, and the spinlock as it was or free. -/
theorem maybeSynchronousClear_of_inactive (h : ctrActive (s.counter p st c).flags = false) :
    maybeSynchronousClear p st c s = .ok () s ∨ maybeSynchronousClear p st c s = .ok () (s.putSpin p st false) := by
  cases hf : s.flag .syncClear [p, st]
  · exact .inl (maybeSynchronousClear_of_off hf)
  · refine .inr ?_
    rw [maybeSynchronousClear, look_bind, id, hf, if_pos rfl, spinLock, change_bind,
      bind_of_ok _ _ (clearAllLoop_of_inactive (by exact h) _), spinUnlock, change_apply, State.putSpin_putSpin]

theorem continueClearTill_of_inactive (tStop : Nat) (h : ctrActive (s.counter p st c).flags = false) :
    continueClearTill p st c tStop s = .ok () (s.putSpin p st false) := by
  rw [continueClearTill, spinLock, change_bind, look_bind, bind_of_ok _ _ (clearTillLoop_of_inactive (by exact h) _ _),
    spinUnlock, change_apply, State.putSpin_putSpin]

theorem dueBy_iff {tStop : Nat} {v : Counter} :
    dueBy tStop v = true ↔ ctrActive v.flags = true ∧ v.tClearNext ≤ tStop := by
  rw [dueBy, Bool.and_eq_true, decide_eq_true_iff]

theorem ctrActive_sweptAll : ctrActive ((s.sweptAll p st c).counter p st c).flags = false :=
  sweepWhile_ends (go := fun v => ctrActive v.flags) (fun _ h => h) _ roundsLeft_le_clearFuel

theorem dueBy_sweptTill (tStop : Nat) : dueBy tStop ((s.sweptTill p st c tStop).counter p st c) = false :=
  sweepWhile_ends dueBy_active _ roundsLeft_le_clearFuel

/-- A sweep up to a time is a step, the period, and the sweep again while the counter is due. -/
theorem sweptTill_of_due {tStop : Nat} (h : dueBy tStop (s.counter p st c) = true) :
    s.sweptTill p st c tStop = (sweepPass p st c s.params.ctrClearPeriod s).sweptTill p st c tStop := by
  have enough := roundsLeft_le_clearFuel (s := s) (p := p) (st := st) (c := c)
  have step := (roundsLeft_sweepPass s.params.ctrClearPeriod (dueBy_active _ h)).le.trans enough
  rw [← boundsAt_sweepPass s.params.ctrClearPeriod] at step
  rw [State.sweptTill, sweepWhile_enough dueBy_active _ _ enough (Nat.le_succ_of_le enough), sweepWhile, if_pos h,
    State.sweptTill, params_sweepPass]
  exact sweepWhile_enough dueBy_active _ _ step roundsLeft_le_clearFuel

theorem sweptTill_setResult (r : Ret) (tStop : Nat) :
    (s.setResult r).sweptTill p st c tStop = (s.sweptTill p st c tStop).setResult r :=
  sweepWhile_setResult _ _ _ _ _

/-! ### Starting a clear (R345) -/

/-- The counter with its clear pending, to begin at a time. -/
def clearPending (t0 : Nat) (v : Counter) : Counter := { v with flags := v.flags ||| flStartPending, tClearNext := t0 }

/-- The state in which a clear has been started. -/
def State.clearStarted (s : State) (p st c t0 : Nat) : State :=
  (s.putCounter p st c (clearPending t0 (s.counter p st c))).putSpin p st false

theorem startClearAt_apply (t0 : Nat) :
    startClearAt p st c t0 s = maybeSynchronousClear p st c (s.clearStarted p st c t0) := by
  rw [startClearAt, spinLock, change_bind, counterOf_bind, putCtr_bind, spinUnlock, change_bind,
    State.putCounter_putSpin, State.putSpin_putSpin]
  rfl

theorem counter_clearStarted (t0 : Nat) :
    (s.clearStarted p st c t0).counter p st c = clearPending t0 (s.counter p st c) :=
  State.counter_putCounter_same _ _ _ _ _

theorem getLsbD_zero_clearPending (t0 : Nat) (v : Counter) : (clearPending t0 v).flags.getLsbD 0 = true := by
  simp [clearPending, flStartPending]

theorem onlySwept_clearStarted (t0 : Nat) : OnlySwept p st c s (s.clearStarted p st c t0) :=
  (onlySwept_putCounter s s.mem _).trans (onlySwept_putSpin _ false)

theorem sweepable_clearStarted (ready : CounterReady s p st c) (region : RegionInRam s p st c) (t0 : Nat) :
    Sweepable (s.clearStarted p st c t0) p st c :=
  ⟨ready, region, .inl (by rw [counter_clearStarted, getLsbD_zero_clearPending])⟩

/-- Clearing a counter whose clear was just started is clearing the counter. -/
theorem clearedCounter_clearStarted (t0 t1 : Nat) :
    (s.clearStarted p st c t0).clearedCounter p st c t1 = s.clearedCounter p st c t1 := by
  have flags : ∀ f : BitVec 8, (f ||| flStartPending) &&& 0xFC#8 = f &&& 0xFC#8 := by decide
  rw [State.clearedCounter, counter_clearStarted]
  simp only [clearPending, flags]
  rfl

/-! ### What the obligation says of a sweep -/

/-- The operation answers nothing, and only the memory, the counter and the spinlock, now free, differ. -/
def SweptBy (p st c : Nat) (s : State) (i : Instr) (t : State) : Prop :=
  exec i s = .next t ∧ t = ((s.setMem t.mem).setCtr t.ctr).setResult .none ∧
    (∀ q u d, [q, u, d] ≠ [p, st, c] → t.counter q u d = s.counter q u d) ∧
    Store.get false t.ctr.spin [p, st] = false

theorem regionCleared_congr {u : State} (h : RegionCleared s t p st c) (hm : u.mem = t.mem) :
    RegionCleared s u p st c := by
  unfold RegionCleared
  rw [hm]
  exact h

theorem OnlySwept.sweptBy {i : Instr} (h : OnlySwept p st c s t)
    (hex : exec i s = .next ((t.putSpin p st false).setResult .none)) :
    ∃ t', SweptBy p st c s i t' ∧ t'.counter p st c = t.counter p st c ∧ t'.mem = t.mem := by
  obtain ⟨state, others⟩ := h.trans (onlySwept_putSpin t false)
  exact ⟨_, ⟨hex, congrArg (fun u => u.setResult .none) state, others, spin_putSpin t false⟩, rfl, rfl⟩

theorem onlySwept_sweptAll : OnlySwept p st c s (s.sweptAll p st c) := onlySwept_sweepWhile _ _ _ s

theorem onlySwept_sweptTill (tStop : Nat) : OnlySwept p st c s (s.sweptTill p st c tStop) :=
  onlySwept_sweepWhile _ _ _ s

theorem tClearNext_sweptAll : ((s.sweptAll p st c).counter p st c).tClearNext = (s.counter p st c).tClearNext :=
  tClearNext_sweepWhile _ _ s

theorem exec_ctrMaybeSynchronousClear_of_sweepable (hf : s.flag .syncClear [p, st] = true) (h : Sweepable s p st c) :
    exec (.ctrMaybeSynchronousClear c) s = .next (((s.sweptAll p st c).putSpin p st false).setResult .none) := by
  obtain ⟨hat, hc, -⟩ := h.ready
  exact exec_ctrMaybeSynchronousClear hat hc (maybeSynchronousClear_of_on hf h)

theorem exec_ctrContinueClearTill_of_sweepable (tStop : Nat) (h : Sweepable s p st c) :
    exec (.ctrContinueClearTill c tStop) s = .next (((s.sweptTill p st c tStop).putSpin p st false).setResult .none) := by
  obtain ⟨hat, hc, -⟩ := h.ready
  exact exec_ctrContinueClearTill hat hc (continueClearTill_apply tStop h)

theorem exec_ctrClearStep (h : Sweepable s p st c) :
    exec (.ctrClearStep c) s = .next ((s.clearStepped p st c).setResult .none) := by
  obtain ⟨hat, hc, -⟩ := h.ready
  exact outcome_counterOp hat hc (clearStep_apply h)

theorem State.setResult_putSpin_setResult (t : State) (r r' : Ret) (b : Bool) :
    ((t.setResult r).putSpin p st b).setResult r' = (t.putSpin p st b).setResult r' := rfl

/-- The round of a sweep, said with the state that `CTR_CLEAR_STEP` answers. -/
theorem sweepPass_of_clearStepped (period : Nat) :
    ((s.clearStepped p st c).setResult .none).putCounter p st c
        (clearLater period (((s.clearStepped p st c).setResult .none).counter p st c))
      = (sweepPass p st c period s).setResult .none := by
  rw [State.counter_setResult, State.putCounter_setResult, ← sweepPass]

/-- A sweep that is due is a step, the period, and the sweep again (R347). -/
theorem exec_ctrContinueClearTill_of_due {tStop : Nat} (h : Sweepable s p st c)
    (due : dueBy tStop (s.counter p st c) = true) :
    exec (.ctrContinueClearTill c tStop) s = exec (.ctrContinueClearTill c tStop)
      (((s.clearStepped p st c).setResult .none).putCounter p st c
        (clearLater s.params.ctrClearPeriod (((s.clearStepped p st c).setResult .none).counter p st c))) := by
  rw [sweepPass_of_clearStepped, exec_ctrContinueClearTill_of_sweepable tStop h,
    exec_ctrContinueClearTill_of_sweepable tStop ((h.sweepPass _).setResult .none), sweptTill_setResult, sweptTill_of_due due,
    State.setResult_putSpin_setResult]

/-- A pending counter is cleared whole (R346, R349). -/
theorem sweptAll_of_pending (h : Sweepable s p st c) (pending : (s.counter p st c).flags.getLsbD 0 = true) :
    (s.sweptAll p st c).counter p st c = s.clearedCounter p st c (s.counter p st c).tClearNext
      ∧ RegionCleared s (s.sweptAll p st c) p st c :=
  sweepWhile_clears_started _ h pending roundsLeft_le_clearFuel

theorem regionCleared_clearStarted {t0 : Nat} (h : RegionCleared (s.clearStarted p st c t0) t p st c) :
    RegionCleared s t p st c := h

/-- A counter whose clear is started in a state to be swept is cleared whole (R345, R349). -/
theorem sweptAll_of_clearStarted (ready : CounterReady s p st c) (region : RegionInRam s p st c) (t0 : Nat) :
    ((s.clearStarted p st c t0).sweptAll p st c).counter p st c = s.clearedCounter p st c t0
      ∧ RegionCleared s ((s.clearStarted p st c t0).sweptAll p st c) p st c
      ∧ OnlySwept p st c s ((s.clearStarted p st c t0).sweptAll p st c) := by
  obtain ⟨counter, zeroed⟩ := sweptAll_of_pending (sweepable_clearStarted ready region t0)
    (by rw [counter_clearStarted, getLsbD_zero_clearPending])
  refine ⟨?_, regionCleared_clearStarted zeroed, (onlySwept_clearStarted t0).trans onlySwept_sweptAll⟩
  rw [counter, clearedCounter_clearStarted, counter_clearStarted, clearPending]

theorem startClearAt_of_on (ready : CounterReady s p st c) (region : RegionInRam s p st c) (t0 : Nat)
    (hf : s.flag .syncClear [p, st] = true) : startClearAt p st c t0 s
      = .ok () (((s.clearStarted p st c t0).sweptAll p st c).putSpin p st false) := by
  rw [startClearAt_apply]
  exact maybeSynchronousClear_of_on hf (sweepable_clearStarted ready region t0)

end

/-- Settles O40: the sweep is run as a function of the state, round by round; each round takes one of the units that are
left, so that the bound on the rounds is never what ends it, and a whole sweep zeroes the region unit after unit. -/
theorem clearsStartAndRest : Obligations.ClearsStartAndRest := by
  intro s p st c hat hc
  refine ⟨fun t0 hf e he => ?_, fun hrest tStop => ?_, exec_ctrWatermark hat hc, fun hf => ?_, fun ready region => ?_⟩
  · have started : startClearAt p st c e.2 s = .ok () (s.clearStarted p st c e.2) := by
      rw [startClearAt_apply, maybeSynchronousClear_of_off (by exact hf)]
    exact ⟨_, exec_starts hat hc he started, rfl, rfl, counter_clearStarted e.2, (onlySwept_clearStarted e.2).others,
      spin_putSpin _ false⟩
  · have continued := exec_ctrContinueClearTill hat hc (continueClearTill_of_inactive tStop hrest)
    simp only [List.mem_cons, List.not_mem_nil, or_false, forall_eq_or_imp, forall_eq]
    refine ⟨⟨_, continued, rfl, rfl, rfl, fun _ => spin_putSpin s false⟩, ?_⟩
    rcases maybeSynchronousClear_of_inactive hrest with kept | freed
    · exact ⟨_, exec_ctrMaybeSynchronousClear hat hc kept, rfl, rfl, rfl, id⟩
    · exact ⟨_, exec_ctrMaybeSynchronousClear hat hc freed, rfl, rfl, rfl, fun _ => spin_putSpin s false⟩
  · exact exec_ctrMaybeSynchronousClear hat hc (maybeSynchronousClear_of_off hf)
  · refine ⟨fun hf t0 e he => ?_, fun hf pending => ?_, fun inRam => ?_⟩
    · obtain ⟨counter, zeroed, kept⟩ := sweptAll_of_clearStarted ready region e.2
      obtain ⟨t, swept, hcounter, hmem⟩ := kept.sweptBy (exec_starts hat hc he (startClearAt_of_on ready region e.2 hf))
      exact ⟨t, swept, hcounter.trans counter, regionCleared_congr zeroed hmem⟩
    · have h : Sweepable s p st c := ⟨ready, region, .inl pending⟩
      obtain ⟨counter, zeroed⟩ := sweptAll_of_pending h pending
      obtain ⟨t, swept, hcounter, hmem⟩ := onlySwept_sweptAll.sweptBy (exec_ctrMaybeSynchronousClear_of_sweepable hf h)
      exact ⟨t, swept, hcounter.trans counter, regionCleared_congr zeroed hmem⟩
    · have h : Sweepable s p st c := ⟨ready, region, .inr inRam⟩
      refine ⟨fun hf => ?_, fun tStop => ⟨?_, fun ⟨active, time⟩ => ?_⟩⟩
      · obtain ⟨t, swept, hcounter, -⟩ := onlySwept_sweptAll.sweptBy (exec_ctrMaybeSynchronousClear_of_sweepable hf h)
        exact ⟨t, swept, by rw [hcounter, ctrActive_sweptAll], by rw [hcounter, tClearNext_sweptAll]⟩
      · obtain ⟨t, swept, hcounter, -⟩ :=
          (onlySwept_sweptTill tStop).sweptBy (exec_ctrContinueClearTill_of_sweepable tStop h)
        refine ⟨t, swept, fun ⟨active, time⟩ => ?_⟩
        exact absurd (dueBy_iff.2 ⟨active, time⟩) (by rw [hcounter, dueBy_sweptTill]; decide)
      · exact ⟨_, exec_ctrClearStep h, exec_ctrContinueClearTill_of_due h (dueBy_iff.2 ⟨active, time⟩)⟩

end Sys2Proof.Machine
end

section
/-! SUPPORT. The BitVector primitives of `40_bitvector.md`, bit by bit: what a written field reads back as, when a
compare accepts, and the vector that is built from words (R142 to R148). -/

namespace Sys2Proof

/-! ### Reading back a field that was written (R141, R142) -/

theorem getBits_setBits_same {N v : Nat} (hv : v < 2 ^ N) (x : Nat) {off n : Nat} (h : off + n ≤ N) :
    getBits N (setBits N v x off n) off n = x % 2 ^ n := by
  refine Nat.eq_of_testBit_eq fun i => ?_
  rw [testBit_getBits (setBits_lt hv x off n), Nat.testBit_mod_two_pow]
  by_cases hi : i < n
  · rw [testBit_setBits v x off n (by omega), if_pos (by omega), Nat.add_sub_cancel_left]
  · simp [hi]

/-! ### The compares (R144, R147, R148) -/

/-- How every compare ends: no bit of the mismatch is set. -/
theorem mod_two_pow_beq_zero_iff (n v : Nat) : (v % 2 ^ n == 0) = true ↔ ∀ i < n, v.testBit i = false := by
  rw [beq_iff_eq]
  constructor
  · intro h i hi
    have low := Nat.testBit_mod_two_pow v n i
    rw [h, Nat.zero_testBit, decide_eq_true hi, Bool.true_and] at low
    exact low.symm
  · intro h
    refine Nat.zero_of_testBit_eq_false fun i => ?_
    rw [Nat.testBit_mod_two_pow]
    by_cases hi : i < n
    · rw [h i hi, Bool.and_false]
    · rw [decide_eq_false hi, Bool.false_and]

theorem tcamCompare_iff (N w0 w1 s0 s1 : Nat) : tcamCompare N w0 w1 s0 s1 = true ↔
    ∀ i < N, (s0.testBit i = true → w0.testBit i = true) ∧ (s1.testBit i = true → w1.testBit i = true) := by
  rw [tcamCompare, mod_two_pow_beq_zero_iff]
  refine forall₂_congr fun i hi => ?_
  rw [Nat.testBit_or, Nat.testBit_and, Nat.testBit_and, testBit_notBits, testBit_notBits, decide_eq_true hi,
    Bool.or_eq_false_iff]
  cases w0.testBit i <;> cases w1.testBit i <;> simp

theorem asymmetricEquals_iff (N stored query m01 m10 : Nat) : asymmetricEquals N stored query m01 m10 = true ↔
    ∀ i < N, (m01.testBit i = true → query.testBit i = true → stored.testBit i = true)
      ∧ (m10.testBit i = true → stored.testBit i = true → query.testBit i = true) := by
  rw [asymmetricEquals, mod_two_pow_beq_zero_iff]
  refine forall₂_congr fun i hi => ?_
  simp only [Nat.testBit_or, Nat.testBit_and, testBit_notBits, decide_eq_true hi, Bool.or_eq_false_iff]
  cases stored.testBit i <;> cases query.testBit i <;> simp

theorem maskedEquals_iff {N m : Nat} (hm : m < 2 ^ N) (v w : Nat) : maskedEquals v w m = true ↔
    ∀ i < N, m.testBit i = true → v.testBit i = w.testBit i := by
  have cut : maskedEquals v w m = (((v ^^^ w) &&& m) % 2 ^ N == 0) := by
    rw [maskedEquals, Nat.mod_eq_of_lt (Nat.and_lt_two_pow _ hm)]
  rw [cut, mod_two_pow_beq_zero_iff]
  refine forall₂_congr fun i _ => ?_
  rw [Nat.testBit_and, Nat.testBit_xor]
  cases v.testBit i <;> cases w.testBit i <;> simp

/-- Only the bits of the query that the width has are compared. -/
theorem asymmetricEquals_mod (N stored query m01 m10 : Nat) :
    asymmetricEquals N stored (query % 2 ^ N) m01 m10 = asymmetricEquals N stored query m01 m10 := by
  rw [Bool.eq_iff_iff, asymmetricEquals_iff, asymmetricEquals_iff]
  refine forall₂_congr fun i hi => ?_
  rw [Nat.testBit_mod_two_pow, decide_eq_true hi, Bool.true_and]

/-- The search pattern of a key asks `w1` to accept its ones and `w0` its zeros (R145). -/
theorem tcamCompare_searchEncode_iff (N w0 w1 key : Nat) :
    tcamCompare N w0 w1 (searchEncode N key).1 (searchEncode N key).2 = true ↔
      ∀ i < N, if key.testBit i then w1.testBit i = true else w0.testBit i = true := by
  rw [tcamCompare_iff]
  refine forall₂_congr fun i hi => ?_
  rw [searchEncode, testBit_notBits, Nat.testBit_mod_two_pow, decide_eq_true hi]
  cases key.testBit i <;> simp

/-! ### Construction from words (R143) -/

theorem testBit_foldr_words : ∀ (ws : List (BitVec 64)) (i : Nat),
    (ws.foldr (fun (w : BitVec 64) acc => w.toNat + 2 ^ 64 * acc) 0).testBit i
      = (ws.getD (i / 64) 0).getLsbD (i % 64)
  | [], i => by simp
  | w :: ws, i => by
    rw [List.foldr_cons, Nat.add_comm, Nat.testBit_two_pow_mul_add _ w.isLt]
    by_cases hi : i < 64
    · rw [if_pos hi, Nat.div_eq_of_lt hi, Nat.mod_eq_of_lt hi]
      rfl
    · have next : i / 64 = (i - 64) / 64 + 1 := by omega
      have same : i % 64 = (i - 64) % 64 := by omega
      rw [if_neg hi, testBit_foldr_words ws (i - 64), next, same, List.getD_cons_succ]

theorem testBit_fromWords (N : Nat) (ws : List (BitVec 64)) (i : Nat) :
    (fromWords N ws).testBit i = (decide (i < N) && (ws.getD (i / 64) 0).getLsbD (i % 64)) := by
  rw [fromWords, Nat.testBit_mod_two_pow, testBit_foldr_words]

/-! ### Byte shifts (R150) -/

/-- A shift of all the bytes is no case of its own: two to the shift is then a multiple of two to the width. -/
theorem byteShiftLeft_eq (N v k : Nat) : byteShiftLeft N v k = v * 2 ^ (8 * k) % 2 ^ N := by
  unfold byteShiftLeft
  split
  · rename_i h
    exact (Nat.mod_eq_zero_of_dvd ((pow_dvd_pow 2 h).mul_left v)).symm
  · rfl

theorem byteShiftRight_eq {N v : Nat} (hv : v < 2 ^ N) (k : Nat) : byteShiftRight N v k = v / 2 ^ (8 * k) := by
  unfold byteShiftRight
  split
  · rename_i h
    exact (Nat.div_eq_of_lt (hv.trans_le (Nat.pow_le_pow_right two_pos h))).symm
  · rfl

theorem lt_of_isBits {n v : Nat} (h : isBits n v = true) : v < 2 ^ n := by
  rw [isBits, Bool.and_eq_true, decide_eq_true_eq, decide_eq_true_eq] at h
  exact h.2

end Sys2Proof
end

section
/-! PROOF. The BitVector operations answer what the primitives say, at the width that the vector has (R140 to R152). -/

namespace Sys2Proof.Machine

theorem answer_eq (r : Ret) (s : State) : answer r s = .next (s.setResult r) := rfl

theorem answerWithin64_of_le {len : Nat} (h : len ≤ 64) (r : Ret) (s : State) :
    answerWithin64 len r s = .next (s.setResult r) := if_pos h

theorem answerWithin64_of_gt {len : Nat} (h : 64 < len) (r : Ret) (s : State) :
    answerWithin64 len r s = .refused .wordTooWide := if_neg (Nat.not_le.2 h)

/-- Settles O13: each operation answers its primitive, of which `Laws/Bits` says every bit. -/
theorem bitFieldsReadAndWrite : Obligations.BitFieldsReadAndWrite := by
  constructor
  · intro s n v off len hv
    have bits := testBit_getBits (lt_of_isBits hv) off len
    exact ⟨⟨_, answer_eq _ s, bits⟩, fun hlen => ⟨_, answerWithin64_of_le hlen _ s, bits⟩,
      fun hlen => answerWithin64_of_gt hlen _ s⟩
  · intro s n v x off len hv
    have below := setBits_lt (lt_of_isBits hv) x off len
    have bits : ∀ i < n, _ := fun i hi => testBit_setBits v x off len hi
    refine ⟨fun hlen => ⟨_, answerWithin64_of_le hlen _ s, below, bits, fun inside => ?_⟩,
      fun hlen => answerWithin64_of_gt hlen _ s, fun _ => ⟨_, answer_eq _ s, below, bits⟩⟩
    rw [← getBits_setBits_same (lt_of_isBits hv) x inside]
    exact answerWithin64_of_le hlen _ s

/-- Settles O14: each compare is the absence of a mismatching bit. -/
theorem bitComparesDecidePerBit : Obligations.BitComparesDecidePerBit := by
  intro s n a b c d ha _ hc _
  refine ⟨⟨_, answer_eq _ s, tcamCompare_iff n a b c d⟩, ⟨_, answer_eq _ s, asymmetricEquals_iff n a b c d⟩,
    ⟨_, answer_eq _ s, maskedEquals_iff (lt_of_isBits hc) a b⟩, ⟨notBits n a, ?_, notBits_lt n a, fun i hi => ?_⟩⟩
  · have pattern : searchEncode n a = (notBits n a, a) := by rw [searchEncode, Nat.mod_eq_of_lt (lt_of_isBits ha)]
    have answered : exec (.bvSearchEncode n a) s
        = .next (s.setResult (.pair (searchEncode n a).1 (searchEncode n a).2)) := rfl
    rw [answered, pattern]
  · rw [testBit_notBits, decide_eq_true hi, Bool.true_and]

/-- Settles O15: a shift past the width agrees with the quotient and the remainder of the general case. -/
theorem bitVectorsBuildCountAndShift : Obligations.BitVectorsBuildCountAndShift := by
  intro s n v k ws hv
  refine ⟨⟨_, answer_eq _ s, testBit_fromWords n ws⟩, ⟨popcount n v, answer_eq _ s, ?_⟩, ?_, ?_⟩
  · rw [popcount_eq_countP, List.countP_eq_length_filter]
  · rw [← byteShiftLeft_eq]
    rfl
  · rw [← byteShiftRight_eq (lt_of_isBits hv)]
    rfl

end Sys2Proof.Machine
end

section
/-! SUPPORT. The ternary array and the gateway as lookups of entries: which entries accept, which one is answered, and
what the lookups of a row do with the answer (R166 to R169). -/

namespace Sys2Proof.Machine

section
variable {s : State} {p st r lt c e : Nat}

/-! ### The entries that accept (R166, R169) -/

theorem tcamHit_iff : tcamHit s p st lt (tcamKey s.params p st lt s.act.phv) e = true ↔ TcamAccepts s p st lt e := by
  rw [tcamHit, Bool.and_eq_true, Bool.and_eq_true, beq_iff_eq, tcamCompare_searchEncode_iff, TcamAccepts, and_assoc]

theorem mem_ternaryHits : e ∈ ternaryHits s p st lt ↔ e < s.params.numTcam ∧ TcamAccepts s p st lt e := by
  rw [ternaryHits, List.mem_filter, List.mem_range, tcamHit_iff]

theorem gwHit_iff : gwHit s p st r (gwKey s.params p st r s.act.phv % 2 ^ s.params.gwW) e = true
    ↔ GatewayAccepts s p st r e := by
  rw [gwHit, Bool.and_eq_true, asymmetricEquals_mod, asymmetricEquals_iff, GatewayAccepts]

/-! ### The hit vector and the winner of the ternary array (R166, R167) -/

theorem testBit_foldl_or_two_pow : ∀ (hits : List Nat) (v e : Nat),
    (hits.foldl (fun v e => v ||| 2 ^ e) v).testBit e = (v.testBit e || decide (e ∈ hits))
  | [], v, e => by simp
  | h :: hits, v, e => by
    rw [List.foldl_cons, testBit_foldl_or_two_pow hits, Nat.testBit_or, Nat.testBit_two_pow, Bool.or_assoc,
      ← Bool.decide_or]
    simp only [List.mem_cons, eq_comm]

theorem testBit_hitVector (hits : List Nat) (e : Nat) : (hitVector hits).testBit e = true ↔ e ∈ hits := by
  rw [hitVector, testBit_foldl_or_two_pow, Nat.zero_testBit, Bool.false_or, decide_eq_true_eq]

/-- The hits are listed from the lowest entry to the highest. -/
theorem ternaryHits_sorted (s : State) (p st lt : Nat) : (ternaryHits s p st lt).Pairwise (· ≤ ·) :=
  List.pairwise_le_range.filter _

theorem ternaryHits_eq_nil (h : ∀ e < s.params.numTcam, ¬ TcamAccepts s p st lt e) : ternaryHits s p st lt = [] := by
  refine List.eq_nil_iff_forall_not_mem.2 fun e he => ?_
  obtain ⟨hlt, accepts⟩ := mem_ternaryHits.1 he
  exact h e hlt accepts

theorem getLast?_ternaryHits_of_winner (h : TernaryWinner s p st lt e) : (ternaryHits s p st lt).getLast? = some e := by
  obtain ⟨hlt, accepts, highest⟩ := h
  have hit : e ∈ ternaryHits s p st lt := mem_ternaryHits.2 ⟨hlt, accepts⟩
  have some_hit : ternaryHits s p st lt ≠ [] := List.ne_nil_of_mem hit
  rw [List.getLast?_eq_some_getLast some_hit, Option.some_inj]
  obtain ⟨last_lt, last_accepts⟩ := mem_ternaryHits.1 (List.getLast_mem some_hit)
  exact Nat.le_antisymm (highest _ last_lt last_accepts) ((ternaryHits_sorted s p st lt).rel_getLast hit)

theorem tcamIllegal_of_legal (h : TcamTablesLegal s p st) : tcamIllegal s p st = false := by
  rw [tcamIllegal, List.any_eq_false]
  intro e he
  rw [Bool.and_eq_true, decide_eq_true_eq]
  rintro ⟨valid, absent⟩
  exact absurd (h e (List.mem_range.1 he) valid) (Nat.not_lt.2 absent)

theorem ternaryLookup_apply (h : TcamTablesLegal s p st) (lt : Nat) :
    ternaryLookup p st lt s = .ok (ternaryHits s p st lt).getLast? s := by
  rw [ternaryLookup, look_bind, id, tcamIllegal_of_legal h]
  rfl

theorem exec_rowTernaryLookup (hat : AtRow s p st r) (h : TcamTablesLegal s p st) (lt : Nat) :
    exec (.rowTernaryLookup lt) s = .next (s.setResult
      (.ternary (hitVector (ternaryHits s p st lt)) (ternaryHits s p st lt).getLast?)) :=
  outcome_of_ok (by rw [atRow_apply hat, bind_of_ok s _ (ternaryLookup_apply h lt), look_apply])

/-! ### The tind lookup (R168, R170) -/

/-- A first write of a bus lands (R170). -/
theorem setOutputBus_of_free {k : BusKind} {bus col idx : Nat} (out : Nat)
    (free : (s.bus k [p, st, r, bus]).inUse = false) :
    setOutputBus k p st r bus out col idx s = .ok () (s.putBus k [p, st, r, bus]
      { inUse := true, value := out % 2 ^ busWidth s.params k, prio := s.params.priority.getD col 0,
        group := s.params.prigroup.getD col 0, hit := hitAddress col idx }) :=
  setOutputBus_of_land (by rw [busWrite, free]; rfl)

theorem tindLookup_of_no_winner (hlt : s.field .colLt [p, st, r, c] < s.params.numLt) (legal : TcamTablesLegal s p st)
    (h : ∀ e < s.params.numTcam, ¬ TcamAccepts s p st (s.field .colLt [p, st, r, c]) e) :
    tindLookup p st r c s = .ok none s := by
  simp only [tindLookup, look_bind, id]
  rw [bind_of_ok s _ (legalField_of_lt hlt), bind_of_ok s _ (ternaryLookup_apply legal _), ternaryHits_eq_nil h]
  rfl

/-- The output of a column: the field of the word at the bus's width, driven at the word's address (R165, R168). -/
theorem tindLookup_of_winner (hat : AtRow s p st r) (hc : c < numCols) (depth : 0 < s.params.sramDepth)
    (hlt : s.field .colLt [p, st, r, c] < s.params.numLt) (legal : TcamTablesLegal s p st)
    (winner : TernaryWinner s p st (s.field .colLt [p, st, r, c]) e)
    (hbus : s.field .colTindBus [p, st, r, c] < s.params.numTindBuses) (width : s.params.tindBusW ≤ 64)
    (hoff : s.field .tindOutOff [p, st, r, c] < 128)
    (free : (s.bus .tindBus [p, st, r, s.field .colTindBus [p, st, r, c]]).inUse = false) :
    tindLookup p st r c s = .ok (some (e % s.params.sramDepth)) (markHit p st (s.field .colLt [p, st, r, c])
      (s.putBus .tindBus [p, st, r, s.field .colTindBus [p, st, r, c]]
        { inUse := true,
          value := (s.mem.read (sramAddr p st r c (e % s.params.sramDepth))).toNat
            / 2 ^ s.field .tindOutOff [p, st, r, c] % 2 ^ s.params.tindBusW,
          prio := s.params.priority.getD c 0, group := s.params.prigroup.getD c 0,
          hit := hitAddress c (e % s.params.sramDepth) })) := by
  have read := memRead_of_inRange (sramAddr_inRange hat hc (Nat.mod_lt e depth))
  simp only [tindLookup, look_bind, id]
  rw [bind_of_ok s _ (legalField_of_lt hlt), bind_of_ok s _ (ternaryLookup_apply legal _),
    getLast?_ternaryHits_of_winner winner]
  simp only
  rw [bind_of_ok s _ read, bind_of_ok s _ (getWordOp_of_le width), bind_of_ok s _ (legalField_of_lt hbus),
    bind_of_ok s _ (setOutputBus_of_free _ free), change_bind, pure_apply, busWidth, getBits_of_lt _ _ hoff, Nat.mod_mod]

theorem exec_rowTindLookup_of_tind {x : Option Nat} {t : State} (hat : AtRow s p st r)
    (mode : s.field .colMode [p, st, r, c] = 2) (h : tindLookup p st r c s = .ok x t) :
    exec (.rowTindLookup c) s = .next (t.setResult (lookupRet (some x))) :=
  outcome_of_ok (by rw [atRow_apply hat, look_bind, if_pos mode, bind_of_ok s _ h, pure_apply])

theorem exec_rowTindLookup_of_other (hat : AtRow s p st r)
    (mode : s.field .colMode [p, st, r, c] = 0 ∨ s.field .colMode [p, st, r, c] = 1) :
    exec (.rowTindLookup c) s = .next (s.setResult .none) :=
  outcome_of_ok (by rw [atRow_apply hat, look_bind, if_neg (by omega), if_neg (by omega), pure_apply])

/-! ### The gateway (R169) -/

theorem gatewayMatch_eq_none (h : ∀ e < s.params.gwEntries, ¬ GatewayAccepts s p st r e) :
    gatewayMatch s p st r = none := by
  rw [gatewayMatch, List.find?_eq_none]
  intro e he
  rw [gwHit_iff]
  exact h e (List.mem_range.1 he)

theorem gatewayMatch_eq_some (hlt : e < s.params.gwEntries) (accepts : GatewayAccepts s p st r e)
    (lowest : ∀ e' < e, ¬ GatewayAccepts s p st r e') : gatewayMatch s p st r = some e := by
  rw [gatewayMatch, List.find?_range_eq_some]
  refine ⟨gwHit_iff.2 accepts, List.mem_range.2 hlt, fun e' he' => ?_⟩
  rw [Bool.not_eq_true', ← Bool.not_eq_true, gwHit_iff]
  exact lowest e' he'

theorem gatewayLookup_of_none (h : gatewayMatch s p st r = none) :
    gatewayLookup p st r s = .ok .miss (putGateway p st r .miss s) := by
  rw [gatewayLookup, look_bind, id, h]
  rfl

theorem gatewayLookup_of_some (h : gatewayMatch s p st r = some e)
    (hlt : s.field .gwLt [p, st, r] < s.params.numLt) :
    gatewayLookup p st r s
      = .ok (.hit e) (markInhibit p st (s.field .gwLt [p, st, r]) (putGateway p st r (.hit e) s)) := by
  rw [gatewayLookup, look_bind, id, h]
  exact bind_of_ok s _ (legalField_of_lt hlt)

theorem exec_rowGatewayLookup_of_enabled {g : GwResult} {t : State} (hat : AtRow s p st r)
    (enabled : s.flag .gwEnable [p, st, r] = true) (h : gatewayLookup p st r s = .ok g t) :
    exec .rowGatewayLookup s = .next (t.setResult (gwRet g)) := by
  have run : runGateway p st r s = .ok g t := by rw [runGateway, look_bind, if_pos enabled, h]
  exact outcome_of_ok (by rw [atRow_apply hat, bind_of_ok s _ run, pure_apply])

theorem exec_rowGatewayLookup_of_disabled (hat : AtRow s p st r) (disabled : s.flag .gwEnable [p, st, r] = false) :
    exec .rowGatewayLookup s = .next (s.setResult .none) := by
  have skipped : runGateway p st r s = .ok .notRun s := by rw [runGateway, look_bind, disabled]; rfl
  exact outcome_of_ok (by rw [atRow_apply hat, bind_of_ok s _ skipped]; rfl)

end

end Sys2Proof.Machine
end

section
/-! PROOF. The ternary array answers its highest entry, the gateway its lowest (R166 to R169). -/

namespace Sys2Proof.Machine

/-- Settles O18: the hits are listed in rising order, so the last of them is the winner, by which the tind lookup
reads its word. -/
theorem ternaryLookupAnswersTheHighest : Obligations.TernaryLookupAnswersTheHighest := by
  refine ⟨fun s p st r lt hat legal => ⟨fun e winner => ?_, fun none_accepts => ?_⟩, fun s p st r c hat hc depth => ?_⟩
  · refine ⟨hitVector (ternaryHits s p st lt), ?_, fun e' => (testBit_hitVector _ e').trans mem_ternaryHits⟩
    rw [exec_rowTernaryLookup hat legal, getLast?_ternaryHits_of_winner winner]
  · rw [exec_rowTernaryLookup hat legal, ternaryHits_eq_nil none_accepts]
    rfl
  · refine ⟨fun mode hlt legal none_accepts => ?_, fun e mode hlt legal winner hbus width hoff free => ?_,
      exec_rowTindLookup_of_other hat⟩
    · exact exec_rowTindLookup_of_tind hat mode (tindLookup_of_no_winner hlt legal none_accepts)
    · have address (idx : Nat) : hitAddress c idx = BitVec.ofNat 32 (c * 2 ^ 20 ||| idx) := by
        rw [hitAddress, Nat.shiftLeft_eq]
      have run := tindLookup_of_winner hat hc depth hlt legal winner hbus width hoff free
      rw [address] at run
      exact exec_rowTindLookup_of_tind hat mode run

/-- Settles O19: the search goes up the entries, so the first that it finds is the lowest. -/
theorem gatewayAnswersTheLowest : Obligations.GatewayAnswersTheLowest := by
  intro s p st r hat
  refine ⟨fun enabled none_accepts => ?_, fun e hlt enabled accepts lowest table => ?_,
    exec_rowGatewayLookup_of_disabled hat⟩
  · have run := gatewayLookup_of_none (gatewayMatch_eq_none none_accepts)
    exact exec_rowGatewayLookup_of_enabled hat enabled run
  · have run := gatewayLookup_of_some (gatewayMatch_eq_some hlt accepts lowest) table
    exact exec_rowGatewayLookup_of_enabled hat enabled run

end Sys2Proof.Machine
end

section
/-! SUPPORT. The SRAM row: its numbers in 32-bit places, its input data, its reset, the write of an output bus and the
exact lookup (R162 to R176). -/

namespace Sys2Proof

/-! ### Numbers laid side by side, the first lowest -/

theorem sum_places_succ (f : Nat → Nat) (w n : Nat) :
    ((List.range (n + 1)).map (fun b => f b * 2 ^ (w * b))).sum
      = f 0 + 2 ^ w * ((List.range n).map (fun b => f (b + 1) * 2 ^ (w * b))).sum := by
  have shifted : (fun b => f b * 2 ^ (w * b)) ∘ Nat.succ = fun b => 2 ^ w * (f (b + 1) * 2 ^ (w * b)) := by
    funext b
    rw [Function.comp_apply, Nat.succ_eq_add_one, Nat.mul_succ, Nat.pow_add]
    ring
  rw [List.range_succ_eq_map, List.map_cons, List.map_map, List.sum_cons, shifted, List.sum_map_mul_left,
    Nat.mul_zero, Nat.pow_zero, Nat.mul_one]

/-- Each number is read back from its place. -/
theorem sum_places_div_mod {w : Nat} : ∀ (n : Nat) (f : Nat → Nat) (b : Nat), (∀ i, f i < 2 ^ w) → b < n →
    ((List.range n).map (fun i => f i * 2 ^ (w * i))).sum / 2 ^ (w * b) % 2 ^ w = f b
  | n + 1, f, 0, hf, _ => by
    rw [sum_places_succ, Nat.mul_zero, Nat.pow_zero, Nat.div_one, Nat.add_mul_mod_self_left, Nat.mod_eq_of_lt (hf 0)]
  | n + 1, f, b + 1, hf, hb => by
    have higher := sum_places_div_mod n (fun i => f (i + 1)) b (fun i => hf (i + 1)) (Nat.lt_of_succ_lt_succ hb)
    rw [sum_places_succ, Nat.mul_succ, Nat.add_comm (w * b), Nat.pow_add, ← Nat.div_div_eq_div_mul,
      Nat.add_mul_div_left _ _ (Nat.two_pow_pos w), Nat.div_eq_of_lt (hf 0), Nat.zero_add, higher]

/-- Two vectors of the width agree beyond it, whatever the mask holds there. -/
theorem maskedEquals_iff_of_lt {N v w : Nat} (hv : v < 2 ^ N) (hw : w < 2 ^ N) (m : Nat) :
    maskedEquals v w m = true ↔ ∀ i < N, m.testBit i = true → v.testBit i = w.testBit i := by
  have cut : maskedEquals v w m = maskedEquals v w (m % 2 ^ N) := by
    have diff : v ^^^ w < 2 ^ N := Nat.xor_lt_two_pow hv hw
    have below : (v ^^^ w) &&& m < 2 ^ N := Nat.and_le_left.trans_lt diff
    rw [maskedEquals, maskedEquals, ← Nat.mod_eq_of_lt below, Nat.and_mod_two_pow, Nat.mod_eq_of_lt diff]
  rw [cut, maskedEquals_iff (Nat.mod_lt m (Nat.two_pow_pos N))]
  refine forall₂_congr fun i hi => ?_
  rw [Nat.testBit_mod_two_pow, decide_eq_true hi, Bool.true_and]

end Sys2Proof

namespace Sys2Proof.Machine

section
variable {s : State} {p st r c : Nat}

/-! ### Index, input data, hit addresses, reset (R162, R165, R175, R176) -/

theorem hashIndex_of_valid {params : Params} {phv : Phv} (h : hashValidFn params p st r c phv = true) :
    hashIndex params p st r c phv = some (hashFn params p st r c phv % params.sramDepth) := if_pos h

theorem hashIndex_of_invalid {params : Params} {phv : Phv} (h : ¬ hashValidFn params p st r c phv = true) :
    hashIndex params p st r c phv = none := if_neg h

theorem exec_rowGetHashIndex (hat : AtRow s p st r) (c : Nat) :
    exec (.rowGetHashIndex c) s = .next (s.setResult (.int
      (if hashValidFn s.params p st r c s.act.phv = true then
        ((hashFn s.params p st r c s.act.phv % s.params.sramDepth : Nat) : Int) else -1))) := by
  refine outcome_of_ok ?_
  rw [atRow_apply hat, look_apply]
  by_cases hashed : hashValidFn s.params p st r c s.act.phv = true
  · rw [hashIndex_of_valid hashed, if_pos hashed]
  · rw [hashIndex_of_invalid hashed, if_neg hashed]

theorem getLsbD_aluDataOf (s : State) (p st r alu i : Nat) : (aluDataOf s p st r alu).getLsbD i
    = ((s.flag .aluDataHashEn [p, st, r] && (xbarHash s.params p st r alu s.act.phv).getLsbD i)
      || (s.flag .aluDataPhvEn [p, st, r] && (xbarPhv s.params p st r alu s.act.phv).getLsbD i)) := by
  rw [aluDataOf, BitVec.getLsbD_or]
  cases s.flag .aluDataHashEn [p, st, r] <;> cases s.flag .aluDataPhvEn [p, st, r] <;> simp

theorem exec_rowAluData (hat : AtRow s p st r) (alu : Nat) :
    exec (.rowAluData alu) s = .next (s.setResult (.word (aluDataOf s p st r alu))) :=
  outcome_of_ok (by rw [atRow_apply hat, look_apply])

theorem exec_rowHitAddress (hat : AtRow s p st r) :
    exec .rowHitAddress s = .next (s.setResult (.nat (((List.range s.params.numMatchBuses).map
      (fun b => (busHitAddr s .matchBus [p, st, r, b]).toNat * 2 ^ (32 * b))).sum))) :=
  outcome_of_ok (by rw [atRow_apply hat, look_apply])

theorem toNat_busHitAddr (s : State) (k : BusKind) (key : List Nat) :
    (busHitAddr s k key).toNat = if (s.bus k key).inUse then (s.bus k key).hit.toNat else 0 := by
  rw [busHitAddr, apply_ite BitVec.toNat]
  rfl

theorem exec_rowResetResources (hat : AtRow s p st r) :
    exec .rowResetResources s = .next ((resetResources p st r s).setResult .none) :=
  outcome_of_ok (by rw [atRow_apply hat, change_bind, pure_apply])

/-- The reset clears the buses of its row, and every other bus is as it was. -/
theorem bus_resetResources (p st r : Nat) (s : State) (k : BusKind) (key : List Nat) :
    (resetResources p st r s).bus k key = if key.take 3 = [p, st, r] then {} else s.bus k key := by
  have row : inRow p st r key = true ↔ key.take 3 = [p, st, r] := beq_iff_eq
  simp only [← row]
  cases k with
  | matchBus => exact Store.get_dropWhere {} (inRow p st r) s.row.matchBus key
  | tindBus => exact Store.get_dropWhere {} (inRow p st r) s.row.tindBus key

/-! ### The write of an output bus (R165, R170, R171) -/

theorem hitAddress_eq (col idx : Nat) : hitAddress col idx = BitVec.ofNat 32 (col * 2 ^ 20 ||| idx) := by
  rw [hitAddress, Nat.shiftLeft_eq]

theorem busWrite_of_group {b : BusRec} {g : Nat} (used : b.inUse = true) (same : g = b.group) (out prio : Nat)
    (h : BitVec 32) : busWrite b out prio g h = .land (busMerge b out prio h) := by
  rw [busWrite, used, if_neg (by decide), if_pos same]

theorem busWrite_of_higher {b : BusRec} {g prio : Nat} (used : b.inUse = true) (other : g ≠ b.group)
    (higher : b.prio < prio) (out : Nat) (h : BitVec 32) : busWrite b out prio g h
      = .override { inUse := true, value := out, prio := prio, group := g, hit := h } := by
  rw [busWrite, used, if_neg (by decide), if_neg other, if_pos higher]

theorem busWrite_of_not_higher {b : BusRec} {g prio : Nat} (used : b.inUse = true) (other : g ≠ b.group)
    (notHigher : prio ≤ b.prio) (out : Nat) (h : BitVec 32) : busWrite b out prio g h = .ignored := by
  rw [busWrite, used, if_neg (by decide), if_neg other, if_neg (Nat.not_lt.2 notHigher)]

/-- A merge that changes nothing is the merge of its own values, with the old hit address. -/
theorem busMerge_eq {b : BusRec} (used : b.inUse = true) (out prio : Nat) (h : BitVec 32) :
    busMerge b out prio h = { inUse := true, value := b.value ||| out, prio := max b.prio prio, group := b.group,
                              hit := if b.value ||| out = b.value ∧ prio ≤ b.prio then b.hit else h } := by
  rw [busMerge]
  split
  next unchanged =>
    obtain ⟨sameValue, notHigher⟩ := unchanged
    rw [sameValue, max_eq_left notHigher, ← used]
  next => rw [← used]

/-- The error is raised before the bus is written (R170, R471). -/
theorem setOutputBus_of_override {k : BusKind} {bus out col idx : Nat} {b' : BusRec}
    (h : busWrite (s.bus k [p, st, r, bus]) (out % 2 ^ busWidth s.params k) (s.params.priority.getD col 0)
      (s.params.prigroup.getD col 0) (hitAddress col idx) = .override b') :
    setOutputBus k p st r bus out col idx s
      = (raise (some (p, st)) (.busOverride r bus col (s.bus k [p, st, r, bus]).prio (s.params.priority.getD col 0))
          >>= fun _ => change (fun s => s.putBus k [p, st, r, bus] b')) s := by
  simp only [setOutputBus, look_bind, id]
  rw [h]

theorem exec_busInstr {k : BusKind} {bus : Nat} (hat : AtRow s p st r) (hbus : bus < busCount s.params k)
    (out col : Nat) : exec (busInstr k bus out col) s
      = outcome (do setOutputBus k p st r bus out col 0; pure .none) s := by
  have alone : exec (busInstr k bus out col) s = outcome (busOp k bus out col) s := by cases k <;> rfl
  rw [alone, outcome, outcome, busOp, atRow_apply hat, look_bind, if_pos hbus]

theorem exec_busInstr_of_ok {k : BusKind} {bus out col : Nat} {t : State} (hat : AtRow s p st r)
    (hbus : bus < busCount s.params k) (h : setOutputBus k p st r bus out col 0 s = .ok () t) :
    exec (busInstr k bus out col) s = .next (t.setResult .none) := by
  rw [exec_busInstr hat hbus]
  exact outcome_of_ok (bind_of_ok s _ h)

theorem exec_busInstr_of_faulted {k : BusKind} {bus out col : Nat} {t : State} (hat : AtRow s p st r)
    (hbus : bus < busCount s.params k) (h : setOutputBus k p st r bus out col 0 s = .error .faulted t) :
    exec (busInstr k bus out col) s = .next t := by
  rw [exec_busInstr hat hbus]
  exact outcome_of_faulted (bind_of_error s _ h)

/-! ### The exact lookup (R164) -/

/-- The word agrees with the key under the mask, and is valid where that is asked for. -/
theorem exactMatches_iff (s : State) (p st r c : Nat) (word : Word) : exactMatches s p st r c word = true ↔
    (∀ i < 128, (s.field .emKeyMask [p, st, r, c]).testBit i = true →
      word.getLsbD i = (matchKey s.params p st r c s.act.phv).getLsbD i) ∧
    (s.flag .emValidEn [p, st, r, c] = true → word.getLsbD (s.field .emValidBit [p, st, r, c]) = true) := by
  rw [exactMatches, Bool.and_eq_true, maskedEquals_iff_of_lt word.isLt (matchKey s.params p st r c s.act.phv).isLt,
    Bool.or_eq_true, Bool.not_eq_true', ← Bool.not_eq_true, ← imp_iff_not_or]
  rfl

theorem exactLookup_of_invalid (h : ¬ hashValidFn s.params p st r c s.act.phv = true) :
    exactLookup p st r c s = .ok none s := by
  rw [exactLookup, look_bind, id, hashIndex_of_invalid h]
  rfl

section
variable {idx : Nat} (hat : AtRow s p st r) (hc : c < numCols) (depth : 0 < s.params.sramDepth)
  (hashed : hashValidFn s.params p st r c s.act.phv = true)
  (hidx : hashFn s.params p st r c s.act.phv % s.params.sramDepth = idx)
include hat hc depth hashed hidx

theorem exactLookup_of_mismatch (h : ¬ exactMatches s p st r c (s.mem.read (sramAddr p st r c idx)) = true) :
    exactLookup p st r c s = .ok none s := by
  subst hidx
  have read := memRead_of_inRange (sramAddr_inRange hat hc (Nat.mod_lt (hashFn s.params p st r c s.act.phv) depth))
  rw [exactLookup, look_bind, id, hashIndex_of_valid hashed]
  simp only
  rw [bind_of_ok s _ read, if_neg h, pure_apply]

/-- The output of a column: the field of the word at the bus's width, driven at the word's address (R164, R165). -/
theorem exactLookup_of_match (h : exactMatches s p st r c (s.mem.read (sramAddr p st r c idx)) = true)
    (hlt : s.field .colLt [p, st, r, c] < s.params.numLt)
    (hbus : s.field .colMatchBus [p, st, r, c] < s.params.numMatchBuses) (width : s.params.matchBusW ≤ 64)
    (hoff : s.field .emOutOff [p, st, r, c] < 128)
    (free : (s.bus .matchBus [p, st, r, s.field .colMatchBus [p, st, r, c]]).inUse = false) :
    exactLookup p st r c s = .ok (some idx) (markHit p st (s.field .colLt [p, st, r, c])
      (s.putBus .matchBus [p, st, r, s.field .colMatchBus [p, st, r, c]]
        { inUse := true,
          value := (s.mem.read (sramAddr p st r c idx)).toNat / 2 ^ s.field .emOutOff [p, st, r, c]
            % 2 ^ s.params.matchBusW,
          prio := s.params.priority.getD c 0, group := s.params.prigroup.getD c 0, hit := hitAddress c idx })) := by
  subst hidx
  have read := memRead_of_inRange (sramAddr_inRange hat hc (Nat.mod_lt (hashFn s.params p st r c s.act.phv) depth))
  rw [exactLookup, look_bind, id, hashIndex_of_valid hashed]
  simp only
  rw [bind_of_ok s _ read, if_pos h, bind_of_ok s _ (legalField_of_lt hlt), bind_of_ok s _ (getWordOp_of_le width),
    bind_of_ok s _ (legalField_of_lt hbus), bind_of_ok s _ (setOutputBus_of_free _ free), change_bind, pure_apply,
    busWidth, getBits_of_lt _ _ hoff, Nat.mod_mod]

end

theorem exec_rowExactLookup_of_exact {x : Option Nat} {t : State} (hat : AtRow s p st r)
    (mode : s.field .colMode [p, st, r, c] = 1) (h : exactLookup p st r c s = .ok x t) :
    exec (.rowExactLookup c) s = .next (t.setResult (lookupRet (some x))) :=
  outcome_of_ok (by rw [atRow_apply hat, look_bind, if_pos mode, bind_of_ok s _ h, pure_apply])

theorem exec_rowExactLookup_of_other (hat : AtRow s p st r)
    (mode : s.field .colMode [p, st, r, c] = 0 ∨ s.field .colMode [p, st, r, c] = 2) :
    exec (.rowExactLookup c) s = .next (s.setResult .none) :=
  outcome_of_ok (by rw [atRow_apply hat, look_bind, if_neg (by omega), if_neg (by omega), pure_apply])

end

end Sys2Proof.Machine
end

section
/-! PROOF. The SRAM row: hash index, input data, reset and hit addresses, the exact lookup, and the arbitration of the
output buses (R162 to R176). -/

namespace Sys2Proof.Machine

/-- Settles O16: a hit address has 32 bits, so each is read back from its place in the one number. -/
theorem rowIndexDataAndReset : Obligations.RowIndexDataAndReset := by
  intro s p st r hat
  refine ⟨exec_rowGetHashIndex hat, fun alu => ⟨_, exec_rowAluData hat alu, getLsbD_aluDataOf s p st r alu⟩,
    ⟨_, exec_rowResetResources hat, rfl, fun kind key => bus_resetResources p st r s kind key, rfl, rfl, rfl⟩,
    ⟨_, exec_rowHitAddress hat, fun b hb => ?_⟩⟩
  rw [sum_places_div_mod _ (fun i => (busHitAddr s .matchBus [p, st, r, i]).toNat) b (fun i => BitVec.isLt _) hb,
    toNat_busHitAddr]

/-- Settles O17: a lookup misses for want of a hash or at a word that does not match; a match drives a free bus. -/
theorem exactLookupDrivesItsBus : Obligations.ExactLookupDrivesItsBus := by
  intro s p st r c hat hc depth
  refine ⟨fun mode failed => ?_, fun mode hashed agrees hlt hbus width hoff free => ?_,
    exec_rowExactLookup_of_other hat⟩
  · by_cases hashed : hashValidFn s.params p st r c s.act.phv = true
    · have mismatch := fun matched => failed ⟨hashed, (exactMatches_iff s p st r c _).1 matched⟩
      exact exec_rowExactLookup_of_exact hat mode (exactLookup_of_mismatch hat hc depth hashed rfl mismatch)
    · exact exec_rowExactLookup_of_exact hat mode (exactLookup_of_invalid hashed)
  · have matched := (exactMatches_iff s p st r c _).2 agrees
    have run := exactLookup_of_match hat hc depth hashed rfl matched hlt hbus width hoff free
    rw [hitAddress_eq] at run
    exact exec_rowExactLookup_of_exact hat mode run

/-- Settles O20: each clause is one branch of the bus write; a lookup's SRAM index is 0 when the write is addressed
alone. -/
theorem outputBusArbitration : Obligations.OutputBusArbitration := by
  intro s p st r kind bus out col hat hbus k b v prio group hit fresh err
  have address : hitAddress col 0 = hit := by rw [hitAddress_eq, Nat.or_zero]
  have override (used : b.inUse = true) (other : group ≠ b.group) (higher : b.prio < prio) :
      setOutputBus kind p st r bus out col 0 s
        = (raise (some (p, st)) err >>= fun _ => change (fun s => s.putBus kind k fresh)) s :=
    setOutputBus_of_override (by rw [address]; exact busWrite_of_higher used other higher v hit)
  refine ⟨fun free => ?_, fun used same => ?_, fun used other higher strict => ?_,
    fun used other higher relaxed => ?_, fun used other notHigher => ?_⟩
  · have run := setOutputBus_of_free (col := col) (idx := 0) out free
    rw [address] at run
    exact exec_busInstr_of_ok hat hbus run
  · refine exec_busInstr_of_ok hat hbus (setOutputBus_of_land ?_)
    rw [address, ← busMerge_eq used v prio hit]
    exact busWrite_of_group used same v prio hit
  · have stops : fatal s.strict err = true := congrArg not strict
    rw [State.afterRaise_of_fatal _ stops]
    exact exec_busInstr_of_faulted hat hbus
      ((override used other higher).trans (bind_of_error s _ (raise_of_fatal _ stops)))
  · have goesOn : fatal s.strict err = false := congrArg not relaxed
    rw [State.afterRaise_of_relaxed _ goesOn]
    exact exec_busInstr_of_ok hat hbus ((override used other higher).trans (bind_of_ok s _ (raise_of_relaxed _ goesOn)))
  · exact exec_busInstr_of_ok hat hbus (setOutputBus_of_ignored (busWrite_of_not_higher used other notHigher v _))

end Sys2Proof.Machine
end

section
/-! SUPPORT. What a stats ALU does with a pair of counts: the LRT check, the shadow pair, the operation `STATS`, and the
errors that a check raises (R192, R197 to R203). -/

namespace Sys2Proof.Machine

/-! ### The eviction test (R200, R202) -/

section
variable {s : State} {p st a k pkt byt : Nat} {f : StatsFormat}

theorem lrtFires_iff : lrtFires s p st a f pkt byt = true ↔ lrtOver s p st a f pkt byt := by
  simp only [lrtFires, lrtOver, atReserved, ones, Bool.and_eq_true, Bool.not_eq_true', ← Bool.not_eq_true, beq_iff_eq,
    decide_eq_true_iff, and_assoc]

theorem lrt_of_over (entry : BitVec 20) (h : lrtOver s p st a f pkt byt) :
    lrt p st a f entry pkt byt s
      = .ok (0, 0) (s.stashEntry p st a { addr := entry, word := evictWordOf pkt byt }) := by
  have fires : lrtFires s p st a f pkt byt = true := lrtFires_iff.2 h
  simp only [lrt, look_bind, id, fires, if_true, change_bind, pure_apply]

theorem lrt_of_not_over (entry : BitVec 20) (h : ¬ lrtOver s p st a f pkt byt) :
    lrt p st a f entry pkt byt s = .ok (pkt, byt) s := by
  have quiet : ¬ lrtFires s p st a f pkt byt = true := mt lrtFires_iff.1 h
  simp only [lrt, look_bind, id, if_neg quiet, pure_apply]

/-- `EW` of a pair of 64-bit counts (R117). -/
theorem evictWordOf_of_lt (hp : pkt < 2 ^ 64) (hb : byt < 2 ^ 64) :
    evictWordOf pkt byt = BitVec.ofNat 128 (2 ^ 64 * pkt + byt) := by
  rw [evictWordOf, Nat.mod_eq_of_lt hp, Nat.mod_eq_of_lt hb, Nat.add_comm]

theorem saEntry_eq (sa : SaFields) : saEntry sa = BitVec.ofNat 20 (8 * sa.word.toNat + sa.subword.toNat) := by
  rw [saEntry, Nat.add_comm]
  rfl

/-- `EW` of a pair of counts that fit their fields. -/
theorem evictWordOf_of_has (h : FormatHas f k) (hp : pkt < 2 ^ f.pktW) (hb : byt < 2 ^ f.byteW) :
    evictWordOf pkt byt = BitVec.ofNat 128 (2 ^ 64 * pkt + byt) := by
  obtain ⟨-, -, -, hpktW, hbyteW⟩ := h
  exact evictWordOf_of_lt (hp.trans_le (Nat.pow_le_pow_right two_pos hpktW))
    (hb.trans_le (Nat.pow_le_pow_right two_pos hbyteW))

end

/-! ### The count of a packet (R197, R198, R203) -/

section
variable {s : State} {p st a : Nat} {sa : SaFields}

theorem byteIncrement_eq (s : State) (p st a : Nat) :
    byteIncrement (s.field .byteAdjust [p, st, a]) s.act.io.byteLen = s.increment p st a := by
  rw [byteIncrement, State.increment, byteAdjust]
  omega

/-- The shadow pair counts where the configuration says so; other parts of the state may have moved on. -/
theorem countShadow_apply {t : State} (hcfg : t.cfg = s.cfg) (w k inc : Nat) :
    (if s.flag .fullResEnable [p, st, a] = true then change (shadowUpdate p st a w k inc) else pure () : M Unit) t
      = .ok () (t.shadowed p st a w k inc) := by
  rw [← State.flag_eq_of_cfg hcfg, State.shadowed]
  split <;> rfl

section
variable {f : StatsFormat} {w : Word}

/-- At the reserved value the RAM is left alone (R196, R197). -/
theorem statsCount_of_reserved (hf : FormatHas f sa.subword.toNat) (hr : Reserved f sa.subword.toNat w) :
    statsCount p st a f sa w s.act.io.byteLen s = .ok () (s.shadowed p st a sa.word.toNat sa.subword.toNat (s.increment p st a)) := by
  have frozen := (atReserved_iff hf w).2 hr
  simp only [statsCount, look_bind, id, frozen, Bool.not_true, Bool.false_eq_true, if_false, byteIncrement_eq]
  exact countShadow_apply rfl _ _ _

/-- Away from it, the counts that the LRT check answers go to the RAM (R197, R200). -/
theorem statsCount_of_not_reserved {t : State} {pkt byt : Nat} (hat : AtStats s p st a)
    (hf : FormatHas f sa.subword.toNat) (hw : sa.word.toNat < s.params.statsRamWords)
    (hr : ¬ Reserved f sa.subword.toNat w)
    (hlrt : lrt p st a f (saEntry sa) ((pktField f sa.subword.toNat w + 1) % 2 ^ f.pktW)
      ((byteField f sa.subword.toNat w + s.increment p st a) % 2 ^ f.byteW) s = .ok (pkt, byt) t)
    (hparams : t.params = s.params) (hcfg : t.cfg = s.cfg) :
    statsCount p st a f sa w s.act.io.byteLen s
      = .ok () ((t.setMem (t.mem.write (statsAddr p st a sa.word.toNat) (setCounts f w sa.subword.toNat pkt byt))).shadowed
          p st a sa.word.toNat sa.subword.toNat (s.increment p st a)) := by
  have notAt := mt (atReserved_iff hf w).1 hr
  have inRange : ramInRange t.params (statsAddr p st a sa.word.toNat) = true :=
    hparams ▸ statsAddr_inRange hat hw
  rw [← pktOf_eq hf, ← byteOf_eq hf] at hlrt
  simp only [statsCount, look_bind, id, notAt, Bool.not_false, if_true, byteIncrement_eq]
  rw [bind_of_ok s _ hlrt]
  refine (bind_of_ok t _ (memWrite_of_inRange _ inRange)).trans ?_
  exact countShadow_apply (t := t.setMem (t.mem.write (statsAddr p st a sa.word.toNat) _)) hcfg _ _ _

end

section
variable (hat : AtStats s p st a) (hf : FormatHas (s.statsFmt p st a) sa.subword.toNat)
  (hw : sa.word.toNat < s.params.statsRamWords)
include hat hf hw

theorem exec_stats_of_count {t : State}
    (h : statsCount p st a (s.statsFmt p st a) sa (s.mem.read (statsAddr p st a sa.word.toNat)) s.act.io.byteLen s
      = .ok () t) : exec (.stats sa) s = .next (t.setResult (.alu .none)) := by
  have run : statsRun p st a .stats sa s.act.io.byteLen s = .ok .none t :=
    (bind_of_ok s _ (statsValidate_of_has _ hf)).trans <|
      (bind_of_ok s _ (memRead_of_inRange (statsAddr_inRange hat hw))).trans (bind_of_ok s _ h)
  exact outcome_statsOp hat run

/-- At the reserved value the clear is none (R205). -/
theorem exec_cfgRdclr_of_reserved
    (hr : Reserved (s.statsFmt p st a) sa.subword.toNat (s.mem.read (statsAddr p st a sa.word.toNat))) :
    exec (.cfgRdclr sa) s = .next ((s.emit (.cfgData p st .stats a (s.mem.read (statsAddr p st a sa.word.toNat)))).setResult
        (.alu (.data (s.mem.read (statsAddr p st a sa.word.toNat))))) := by
  have frozen := (atReserved_iff hf _).2 hr
  have clear : statsClear p st a (s.statsFmt p st a) sa (s.mem.read (statsAddr p st a sa.word.toNat)) s = .ok () s := by
    simp only [statsClear, frozen, Bool.not_true, Bool.false_eq_true, if_false, pure_apply]
  exact outcome_statsOp hat ((statsRun_cfgRdclr hat hf hw _).trans (bind_of_ok s _ clear))

end

/-- The LRT check alone, after the checks of format and subword (R192, R200). -/
theorem exec_statsLrtCheck {pkt byt pkt' byt' : Nat} {t : State} (hat : AtStats s p st a)
    (hf : FormatHas (s.statsFmt p st a) sa.subword.toNat)
    (hlrt : lrt p st a (s.statsFmt p st a) (saEntry sa) pkt byt s = .ok (pkt', byt') t) :
    exec (.statsLrtCheck sa pkt byt) s = .next (t.setResult (.pair pkt' byt')) :=
  outcome_of_ok <| (atStats_apply hat _).trans <| (bind_of_ok s _ (statsValidate_of_has _ hf)).trans (bind_of_ok s _ hlrt)

/-! ### Checks that fail (R192, R330, R473) -/

/-- An operation that raises and then does nothing answers `r` where the error is relaxed. -/
theorem outcome_of_raise {m : M Ret} {place : Option (Nat × Nat)} {e : Err} {r : Ret} {relaxed : Bool}
    (hfatal : fatal s.strict e = !relaxed) (h : m s = (raise place e >>= fun _ => pure r) s) :
    outcome m s = .next (if relaxed then (s.afterRaise place e).setResult r else s.afterRaise place e) := by
  cases relaxed
  · exact State.afterRaise_of_fatal place hfatal ▸
      outcome_of_faulted (h.trans (bind_of_error s _ (raise_of_fatal place hfatal)))
  · exact State.afterRaise_of_relaxed place hfatal ▸
      outcome_of_ok (h.trans (bind_of_ok s _ (raise_of_relaxed place hfatal)))

theorem statsValidate_of_empty {k : Nat} (word : BitVec 24) (h : (s.statsFmt p st a).nEntries = 0) :
    statsValidate p st a k word s
      = (raise (some (p, st)) (.statsBadFormat (s.field .statsFormat [p, st, a])) >>= fun _ => pure none) s := by
  have empty : (statsFormatAt s.params (s.field .statsFormat [p, st, a])).nEntries = 0 := h
  simp only [statsValidate, look_bind, id, if_pos empty]

theorem statsValidate_of_subword {k : Nat} (word : BitVec 24) (h : (s.statsFmt p st a).nEntries ≠ 0)
    (hk : (s.statsFmt p st a).nEntries ≤ k) :
    statsValidate p st a k word s = (raise (some (p, st)) (.statsBadSubword word) >>= fun _ => pure none) s := by
  have nonempty : (statsFormatAt s.params (s.field .statsFormat [p, st, a])).nEntries ≠ 0 := h
  have past : (statsFormatAt s.params (s.field .statsFormat [p, st, a])).nEntries ≤ k := hk
  simp only [statsValidate, look_bind, id, if_neg nonempty, if_pos past]

/-- What follows a raise and has nothing to go on with answers without a change. -/
theorem raise_bind_of_nothing {α β : Type} {m : M α} {k : α → M β} {x : α} {y : β} {place : Option (Nat × Nat)} {e : Err}
    (h : m s = (raise place e >>= fun _ => pure x) s) (hk : ∀ t, k x t = .ok y t) :
    (m >>= k) s = (raise place e >>= fun _ => pure y) s := by
  rw [bind_apply, h, bind_apply, bind_apply]
  cases raise place e s with
  | ok u t => exact hk t
  | error x t => rfl

theorem statsRun_of_raise {op : StatsOp} {e : Err} (hop : op ≠ .nop) (len : Nat)
    (h : statsValidate p st a sa.subword.toNat (saWord op sa) s = (raise (some (p, st)) e >>= fun _ => pure none) s) :
    statsRun p st a op sa len s = (raise (some (p, st)) e >>= fun _ => pure .none) s := by
  cases op with
  | nop => exact absurd rfl hop
  | stats | cfgRd | cfgRdclr => exact raise_bind_of_nothing h fun _ => rfl

/-- Every enabled stats operation runs the checks first. -/
theorem outcome_statsOp_of_raise {op : StatsOp} {e : Err} (hat : AtStats s p st a) (hop : op ≠ .nop)
    (hfatal : fatal s.strict e = !s.strict.statsFormat)
    (h : statsValidate p st a sa.subword.toNat (saWord op sa) s = (raise (some (p, st)) e >>= fun _ => pure none) s) :
    outcome (statsOp op sa) s = .next (if s.strict.statsFormat then (s.afterRaise (some (p, st)) e).setResult (.alu .none)
      else s.afterRaise (some (p, st)) e) :=
  outcome_of_raise hfatal <| (atStats_apply hat _).trans <|
    (look_bind s _ _).trans (raise_bind_of_nothing (statsRun_of_raise hop s.act.io.byteLen h) fun _ => rfl)

theorem saWord_eq (op : StatsOp) (sa : SaFields) :
    saWord op sa = BitVec.ofNat 24 (2 ^ 23 + 2 ^ 20 * statsCode op + 2 ^ 3 * sa.word.toNat + sa.subword.toNat) := by
  rw [saWord]
  congr 1
  omega

theorem withCounter_of_ge {c : Nat} (h : s.params.numCtrs ≤ c) (m : M Ret) :
    withCounter p st c m s = (raise (some (p, st)) (.ctrIndex c) >>= fun _ => pure .none) s := by
  simp only [withCounter, look_bind, id, if_neg (Nat.not_lt.2 h)]

theorem outcome_counterOp_of_ge {c : Nat} (hat : AtStage s p st) (h : s.params.numCtrs ≤ c)
    {m : Nat → Nat → M Ret} :
    outcome (atStage fun p st => withCounter p st c (m p st)) s
      = .next (if s.strict.counterIndex then (s.afterRaise (some (p, st)) (.ctrIndex c)).setResult .none
        else s.afterRaise (some (p, st)) (.ctrIndex c)) :=
  outcome_of_raise rfl ((atStage_apply hat _).trans (withCounter_of_ge h _))

/-- The start of a clear names its counter by itself (R119). -/
theorem exec_ctrStartClear_of_ge {c : Nat} (hat : AtStage s p st) (h : s.params.numCtrs ≤ c) :
    exec (.ctrStartClear p st c) s
      = .next (if s.strict.counterIndex then (s.afterRaise (some (p, st)) (.ctrIndex c)).setResult .none
        else s.afterRaise (some (p, st)) (.ctrIndex c)) := by
  refine outcome_of_raise rfl ?_
  simp only [look_bind, id, if_pos (stageExists_of_at hat)]
  exact withCounter_of_ge h _

end

end Sys2Proof.Machine
end

section
/-! PROOF. `STATS` and its LRT check count or evict, the reserved value stays, and a check that fails comes first (R192,
R196 to R205, R330). -/

namespace Sys2Proof.Machine

/-- Settles O21: what the LRT check answers is what goes to the RAM. -/
theorem statsCountsOrEvicts : Obligations.StatsCountsOrEvicts := by
  refine ⟨?counts, ?check⟩
  case counts =>
    rintro s p st a sa f hat rfl hf hw k addr w pkt byt inc hr
    have hpkt : pkt < 2 ^ (s.statsFmt p st a).pktW := Nat.mod_lt _ (Nat.two_pow_pos _)
    have hbyt : byt < 2 ^ (s.statsFmt p st a).byteW := Nat.mod_lt _ (Nat.two_pow_pos _)
    refine ⟨fun below => ⟨_, countsWritten_setCounts hf w hpkt hbyt, ?_⟩,
      fun above => ⟨_, countsWritten_setCounts hf w (Nat.two_pow_pos _) (Nat.two_pow_pos _), ?_⟩⟩
    · exact exec_stats_of_count hat hf hw
        (statsCount_of_not_reserved hat hf hw hr (lrt_of_not_over (saEntry sa) below) rfl rfl)
    · rw [← saEntry_eq sa, ← evictWordOf_of_has hf hpkt hbyt]
      exact exec_stats_of_count hat hf hw
        (statsCount_of_not_reserved hat hf hw hr (lrt_of_over (saEntry sa) above) rfl rfl)
  case check =>
    rintro s p st a sa f pkt byt hat rfl hf hpkt hbyt
    refine ⟨fun above => ?_, fun below => exec_statsLrtCheck hat hf (lrt_of_not_over _ below)⟩
    rw [← saEntry_eq sa, ← evictWordOf_of_lt hpkt hbyt]
    exact exec_statsLrtCheck hat hf (lrt_of_over _ above)

/-- Settles O22: at the reserved value neither the count nor the clear writes the RAM. -/
theorem reservedValueIsSticky : Obligations.ReservedValueIsSticky := by
  rintro s p st a sa f hat rfl hf hw w hr
  exact ⟨exec_stats_of_count hat hf hw (statsCount_of_reserved hf hr), exec_cfgRdclr_of_reserved hat hf hw hr⟩

/-- Settles O24: the three enabled operations of a stats address, then the ten operations on a counter. -/
theorem failedChecksRaiseFirst : Obligations.FailedChecksRaiseFirst := by
  refine ⟨fun s p st a sa i op hat hi => ?stats, fun s p st c t0 pop hat hc => ?counters⟩
  case stats =>
    obtain ⟨o, hexec, hcode, hop⟩ : ∃ o, exec i = outcome (statsOp o sa) ∧ statsCode o = op ∧ o ≠ .nop := by
      simp only [List.mem_cons, Prod.mk.injEq, List.not_mem_nil, or_false] at hi
      obtain ⟨rfl, rfl⟩ | ⟨rfl, rfl⟩ | ⟨rfl, rfl⟩ := hi
      · exact ⟨.stats, rfl, rfl, nofun⟩
      · exact ⟨.cfgRd, rfl, rfl, nofun⟩
      · exact ⟨.cfgRdclr, rfl, rfl, nofun⟩
    intro f bad sub
    rw [hexec]
    refine ⟨fun empty => outcome_statsOp_of_raise hat hop rfl (statsValidate_of_empty _ empty),
      fun nonempty past => outcome_statsOp_of_raise hat hop rfl ?_⟩
    rw [statsValidate_of_subword _ nonempty past, saWord_eq, hcode]
  case counters =>
    simp only [List.forall_mem_cons]
    have raises {m : Nat → Nat → M Ret} := outcome_counterOp_of_ge (m := m) hat hc
    exact ⟨raises, raises, raises, raises, raises, raises, raises, raises, raises, exec_ctrStartClear_of_ge hat hc,
      List.forall_mem_nil _⟩

end Sys2Proof.Machine
end

section
/-! SUPPORT. The entries of a stats RAM as the sweeper works on them: what a sweep over a list of entries has done to the
counts, the stash and the interrupts, and what the other three kinds of work do (R200 to R207, R411 to R414). -/

namespace Sys2Proof.Machine

section
variable {s : State} {p st a w k : Nat} {f : StatsFormat}

/-! ### The bits of a sub-entry (R194) -/

/-- Bit `i` of a word is a bit of the counts of sub-entry `k`. -/
abbrev InEntry (f : StatsFormat) (k i : Nat) : Prop := k * f.stride ≤ i ∧ i < k * f.stride + f.byteW + f.pktW

/-- The sub-entries do not overlap. -/
theorem not_inEntry_of_ne {k' i : Nat} (hf : FormatHas f k) (hk : k' ≠ k) (hi : InEntry f k i) : ¬ InEntry f k' i := by
  obtain ⟨-, -, hsum, -, -⟩ := hf
  have apart : ∀ {x y : Nat}, x < y → x * f.stride + f.stride ≤ y * f.stride := fun {x y} h => by
    rw [← Nat.succ_mul]
    exact Nat.mul_le_mul_right _ h
  obtain ⟨hlo, hhi⟩ := hi
  rintro ⟨hlo', hhi'⟩
  rcases Nat.lt_or_gt_of_ne hk with h | h <;> have := apart h <;> omega

/-- A field depends on its own bits alone. -/
theorem wordBits_congr {v v' : Word} {off n : Nat} (h : ∀ i, off ≤ i → i < off + n → v.getLsbD i = v'.getLsbD i) :
    wordBits v off n = wordBits v' off n := by
  refine Nat.eq_of_testBit_eq fun i => ?_
  rw [testBit_wordBits, testBit_wordBits]
  by_cases hi : i < n
  · rw [h (off + i) (by omega) (by omega)]
  · simp only [hi, decide_false, Bool.false_and]

/-- And so do the counts of a sub-entry. -/
theorem counts_eq_of_bits {v v' : Word} (hf : FormatHas f k) (h : ∀ i, InEntry f k i → v.getLsbD i = v'.getLsbD i) :
    pktField f k v = pktField f k v' ∧ byteField f k v = byteField f k v' := by
  rw [← pktOf_eq hf, ← pktOf_eq hf, ← byteOf_eq hf, ← byteOf_eq hf]
  refine ⟨wordBits_congr fun i hlo hhi => h i ?_, wordBits_congr fun i hlo hhi => h i ?_⟩
  · exact ⟨(Nat.le_add_right _ _).trans hlo, hhi⟩
  · exact ⟨hlo, hhi.trans_le (Nat.le_add_right _ _)⟩

theorem getLsbD_wordSet_zero (v : Word) (off n i : Nat) :
    (wordSet v 0 off n).getLsbD i = true ↔ v.getLsbD i = true ∧ ¬ (off ≤ i ∧ i < off + n) := by
  rw [getLsbD_wordSet]
  by_cases h128 : i < 128
  · by_cases hi : off ≤ i ∧ i < off + n <;> simp [h128, hi]
  · simp [h128, BitVec.getLsbD_of_ge v i (by omega)]

/-- A clear takes the bits of its own sub-entry and leaves the rest (R197). -/
theorem getLsbD_setCounts_zero (v : Word) (i : Nat) :
    (setCounts f v k 0 0).getLsbD i = true ↔ v.getLsbD i = true ∧ ¬ InEntry f k i := by
  rw [setCounts, getLsbD_wordSet_zero, getLsbD_wordSet_zero, and_assoc]
  refine and_congr_right' ?_
  simp only [pktOff, byteOff, InEntry]
  omega

/-! ### An entry whose place and format are legal (R192, R207) -/

/-- `EW` of an entry as it stands in the RAM (R117). -/
def storedCounts (s : State) (p st a : Nat) (f : StatsFormat) (w k : Nat) : Word :=
  BitVec.ofNat 128 (2 ^ 64 * pktField f k (s.mem.read (statsAddr p st a w))
    + byteField f k (s.mem.read (statsAddr p st a w)))

theorem statsAddr_inRange_of_lt (hp : p < s.params.numPipes) (hst : st < s.params.numStages)
    (ha : a < s.params.numStatsAlu) (hw : w < s.params.statsRamWords) :
    ramInRange s.params (statsAddr p st a w) = true := by
  simp [ramInRange, statsAddr, spaceUnits, spaceCols, spaceSize, *]

section
variable (hf : FormatHas (s.statsFmt p st a) k) (hr : ramInRange s.params (statsAddr p st a w) = true)
include hf hr

theorem entryRead_of_inRange :
    entryRead p st a w k s = .ok (some (s.statsFmt p st a, s.mem.read (statsAddr p st a w))) s :=
  (bind_of_ok s _ (statsValidate_of_has _ hf)).trans (bind_of_ok s _ (memRead_of_inRange hr))

theorem dumpEntry_of_inRange : dumpEntry p st a w k s
    = .ok (some (storedCounts s p st a (s.statsFmt p st a) w k)) s := by
  rw [storedCounts, ← entryWord_eq hf]
  exact bind_of_ok s _ (entryRead_of_inRange hf hr)

theorem evictEntry_of_reserved
    (hres : Reserved (s.statsFmt p st a) k (s.mem.read (statsAddr p st a w))) : evictEntry p st a w k s
      = .ok (some (storedCounts s p st a (s.statsFmt p st a) w k)) s := by
  have frozen := (atReserved_iff hf _).2 hres
  rw [storedCounts, ← entryWord_eq hf]
  refine (bind_of_ok s _ (entryRead_of_inRange hf hr)).trans ?_
  simp only [frozen, Bool.not_true, Bool.false_eq_true, if_false, pure_apply]

theorem evictEntry_of_not_reserved
    (hres : ¬ Reserved (s.statsFmt p st a) k (s.mem.read (statsAddr p st a w))) : evictEntry p st a w k s
      = .ok (some (storedCounts s p st a (s.statsFmt p st a) w k))
          (s.setMem (s.mem.write (statsAddr p st a w)
            (setCounts (s.statsFmt p st a) (s.mem.read (statsAddr p st a w)) k 0 0))) := by
  have notAt := mt (atReserved_iff hf _).1 hres
  rw [storedCounts, ← entryWord_eq hf]
  refine (bind_of_ok s _ (entryRead_of_inRange hf hr)).trans ?_
  simp only [notAt, Bool.not_false, if_true]
  exact bind_of_ok s _ (memWrite_of_inRange _ hr)

end

/-! ### One entry of a sweep (R200, R411) -/

/-- The stored counts of an entry are over the threshold. -/
abbrev EntryOver (s : State) (p st a : Nat) (f : StatsFormat) (e : Nat × Nat) : Prop :=
  lrtOver s p st a f (pktField f e.2 (s.mem.read (statsAddr p st a e.1)))
    (byteField f e.2 (s.mem.read (statsAddr p st a e.1)))

/-- What a sweep stashes for an entry. -/
def evictRecOf (s : State) (p st a : Nat) (f : StatsFormat) (e : Nat × Nat) : EvictRec :=
  { addr := BitVec.ofNat 20 (8 * e.1 + e.2), word := storedCounts s p st a f e.1 e.2 }

/-- The state with an entry stashed and cleared. -/
def State.evicted (s : State) (p st a : Nat) (f : StatsFormat) (e : Nat × Nat) : State :=
  (s.stashEntry p st a (evictRecOf s p st a f e)).setMem (s.mem.write (statsAddr p st a e.1)
    (setCounts f (s.mem.read (statsAddr p st a e.1)) e.2 0 0))

section
variable (hf : FormatHas (s.statsFmt p st a) k) (hr : ramInRange s.params (statsAddr p st a w) = true)
include hf hr

theorem sweepEntry_of_over (hk : k < 8) (h : EntryOver s p st a (s.statsFmt p st a) (w, k)) :
    sweepEntry p st a w k s = .ok () (s.evicted p st a (s.statsFmt p st a) (w, k)) := by
  have fires := lrtFires_iff.2 h
  have addr : BitVec.ofNat 20 (k % 8 + 8 * w) = BitVec.ofNat 20 (8 * w + k) := by rw [Nat.mod_eq_of_lt hk, Nat.add_comm]
  refine (bind_of_ok s _ (entryRead_of_inRange hf hr)).trans ?_
  simp only [look_bind, id, pktOf_eq hf, byteOf_eq hf, fires, if_true, change_bind, addr, entryWord_eq hf]
  exact memWrite_of_inRange _ hr

theorem sweepEntry_of_not_over (h : ¬ EntryOver s p st a (s.statsFmt p st a) (w, k)) :
    sweepEntry p st a w k s = .ok () s := by
  have quiet := mt lrtFires_iff.1 h
  refine (bind_of_ok s _ (entryRead_of_inRange hf hr)).trans ?_
  simp only [look_bind, id, pktOf_eq hf, byteOf_eq hf, if_neg quiet, pure_apply]

end

/-! ### A sweep over a list of entries (R411) -/

/-- The entries of a list that are over the threshold. -/
def overOf (s : State) (p st a : Nat) (f : StatsFormat) (l : List (Nat × Nat)) : List (Nat × Nat) :=
  l.filter fun e => decide (EntryOver s p st a f e)

/-- `u` is `s` after a sweep over the entries `done`: the RAM, the stash and the interrupts alone have moved, and by
what the entries held in `s`. -/
structure Swept (s : State) (p st a : Nat) (f : StatsFormat) (done : List (Nat × Nat)) (u : State) : Prop where
  frame : u = ((s.setMem u.mem).setStats { s.stats with stash := u.stats.stash }).setErr { s.err with irq := u.err.irq }
  stash : u.stash p st a = s.stash p st a ++ (overOf s p st a f done).map (evictRecOf s p st a f)
  otherStash : ∀ p' st' a', [p', st', a'] ≠ [p, st, a] → u.stash p' st' a' = s.stash p' st' a'
  irq : ∀ q, Store.get false u.err.irq (irqKey q)
    = (Store.get false s.err.irq (irqKey q) || decide (q = .statsEvict p st a ∧ overOf s p st a f done ≠ []))
  bits : ∀ w i, (u.mem.read (statsAddr p st a w)).getLsbD i = true ↔
    (s.mem.read (statsAddr p st a w)).getLsbD i = true ∧ ¬ ∃ k, (w, k) ∈ overOf s p st a f done ∧ InEntry f k i
  other : ∀ b : RamAddr, (∀ e ∈ overOf s p st a f done, b.key ≠ (statsAddr p st a e.1).key) → u.mem.read b = s.mem.read b

theorem mem_overOf {l : List (Nat × Nat)} {e : Nat × Nat} :
    e ∈ overOf s p st a f l ↔ e ∈ l ∧ EntryOver s p st a f e := by
  rw [overOf, List.mem_filter, decide_eq_true_iff]

theorem overOf_append (l l' : List (Nat × Nat)) :
    overOf s p st a f (l ++ l') = overOf s p st a f l ++ overOf s p st a f l' := List.filter_append ..

theorem overOf_singleton_of_over {e : Nat × Nat} (h : EntryOver s p st a f e) : overOf s p st a f [e] = [e] :=
  List.filter_cons_of_pos (decide_eq_true h)

theorem overOf_singleton_of_not {e : Nat × Nat} (h : ¬ EntryOver s p st a f e) : overOf s p st a f [e] = [] :=
  List.filter_cons_of_neg (by rwa [decide_eq_true_iff])

theorem Swept.nil (s : State) (p st a : Nat) (f : StatsFormat) : Swept s p st a f [] s where
  frame := rfl
  stash := (List.append_nil _).symm
  otherStash := fun _ _ _ _ => rfl
  irq := fun q => by simp [overOf]
  bits := fun w i => by simp [overOf]
  other := fun _ _ => rfl

section
variable {done : List (Nat × Nat)} {u : State}

theorem Swept.params (h : Swept s p st a f done u) : u.params = s.params := by
  rw [h.frame]
  rfl

theorem Swept.cfg (h : Swept s p st a f done u) : u.cfg = s.cfg := by
  rw [h.frame]
  rfl

theorem Swept.statsFmt (h : Swept s p st a f done u) : u.statsFmt p st a = s.statsFmt p st a := by
  rw [State.statsFmt, State.statsFmt, h.params, State.field_eq_of_cfg h.cfg]

/-- An entry that the sweep has not come to holds its counts still. -/
theorem Swept.counts (h : Swept s p st a f done u) (hf : FormatHas f k) (hnew : (w, k) ∉ done) :
    pktField f k (u.mem.read (statsAddr p st a w)) = pktField f k (s.mem.read (statsAddr p st a w)) ∧
      byteField f k (u.mem.read (statsAddr p st a w)) = byteField f k (s.mem.read (statsAddr p st a w)) := by
  refine counts_eq_of_bits hf fun i hi => Bool.eq_iff_iff.2 ((h.bits w i).trans (and_iff_left ?_))
  rintro ⟨k', hmem, hi'⟩
  have ne : k' ≠ k := fun e => hnew (e ▸ (mem_overOf.1 hmem).1)
  exact not_inEntry_of_ne hf ne hi hi'

theorem Swept.entryOver_iff (h : Swept s p st a f done u) (hf : FormatHas f k) (hnew : (w, k) ∉ done) :
    EntryOver u p st a f (w, k) ↔ EntryOver s p st a f (w, k) := by
  obtain ⟨hpkt, hbyt⟩ := h.counts hf hnew
  simp only [EntryOver, lrtOver, hpkt, hbyt, State.flag_eq_of_cfg h.cfg, State.field_eq_of_cfg h.cfg]

theorem Swept.evictRecOf (h : Swept s p st a f done u) (hf : FormatHas f k) (hnew : (w, k) ∉ done) :
    evictRecOf u p st a f (w, k) = evictRecOf s p st a f (w, k) := by
  obtain ⟨hpkt, hbyt⟩ := h.counts hf hnew
  simp only [Machine.evictRecOf, storedCounts, hpkt, hbyt]

theorem Swept.skip (h : Swept s p st a f done u) {e : Nat × Nat} (hover : ¬ EntryOver s p st a f e) :
    Swept s p st a f (done ++ [e]) u := by
  have same : overOf s p st a f (done ++ [e]) = overOf s p st a f done := by
    rw [overOf_append, overOf_singleton_of_not hover, List.append_nil]
  obtain ⟨frame, stash, otherStash, irq, bits, other⟩ := h
  rw [← same] at stash
  simp only [← same] at irq bits other
  exact ⟨frame, stash, otherStash, irq, bits, other⟩

theorem statsAddr_key_inj {w' : Nat} (h : (statsAddr p st a w).key = (statsAddr p st a w').key) : w = w' := by
  simpa [RamAddr.key, statsAddr] using h

/-- An entry over the threshold is evicted as it stood before the sweep. -/
theorem Swept.evict (h : Swept s p st a f done u) (hf : FormatHas f k) (hnew : (w, k) ∉ done)
    (hover : EntryOver s p st a f (w, k)) : Swept s p st a f (done ++ [(w, k)]) (u.evicted p st a f (w, k)) := by
  have more : overOf s p st a f (done ++ [(w, k)]) = overOf s p st a f done ++ [(w, k)] := by
    rw [overOf_append, overOf_singleton_of_over hover]
  refine ⟨?frame, ?stash, fun p' st' a' hne => ?otherStash, fun q => ?irq, fun w' i => ?bits, fun b hb => ?other⟩
  case frame =>
    rw [h.frame]
    rfl
  case stash =>
    have appended : (u.evicted p st a f (w, k)).stash p st a = u.stash p st a ++ [Machine.evictRecOf u p st a f (w, k)] :=
      (State.stash_putStash u p st a p st a _).trans (if_pos rfl)
    rw [appended, h.stash, h.evictRecOf hf hnew, more, List.map_append, List.append_assoc]
    rfl
  case otherStash =>
    exact ((State.stash_putStash u p st a p' st' a' _).trans (if_neg hne)).trans (h.otherStash p' st' a' hne)
  case irq =>
    have raised : Store.get false (u.evicted p st a f (w, k)).err.irq (irqKey q)
        = if irqKey q = irqKey (.statsEvict p st a) then true else Store.get false u.err.irq (irqKey q) :=
      Store.get_set false u.err.irq _ _ true
    rw [raised, more, h.irq]
    by_cases hq : q = .statsEvict p st a
    · simp [hq]
    · simp [hq, mt irqKey_inj hq]
  case bits =>
    have written : (u.evicted p st a f (w, k)).mem.read (statsAddr p st a w')
        = if (statsAddr p st a w').key = (statsAddr p st a w).key
          then setCounts f (u.mem.read (statsAddr p st a w)) k 0 0 else u.mem.read (statsAddr p st a w') :=
      Memory.read_write _ _ _ _
    rw [written, more]
    by_cases hw : w' = w
    · subst hw
      rw [if_pos rfl, getLsbD_setCounts_zero, h.bits]
      simp only [List.mem_append, List.mem_singleton, Prod.mk.injEq, true_and, or_and_right, exists_or, exists_eq_left,
        not_or, and_assoc]
    · rw [if_neg (mt statsAddr_key_inj hw), h.bits]
      simp [hw]
  case other =>
    rw [more, List.forall_mem_append] at hb
    obtain ⟨hdone, hlast⟩ := hb
    exact (Memory.read_write_other _ _ (hlast _ (List.mem_singleton.2 rfl))).trans (h.other b hdone)

/-- The sweep of a list of entries, each once. -/
theorem forEach_sweepEntry (hr : ∀ w < s.params.statsRamWords, ramInRange s.params (statsAddr p st a w) = true)
    (hf : ∀ k < (s.statsFmt p st a).nEntries, FormatHas (s.statsFmt p st a) k) (h8 : (s.statsFmt p st a).nEntries ≤ 8) :
    ∀ (l : List (Nat × Nat)) {done : List (Nat × Nat)} {u : State}, Swept s p st a (s.statsFmt p st a) done u →
      (∀ e ∈ l, e.1 < s.params.statsRamWords ∧ e.2 < (s.statsFmt p st a).nEntries) → (done ++ l).Nodup →
      ∃ v, forEach l (fun e => sweepEntry p st a e.1 e.2) u = .ok () v ∧ Swept s p st a (s.statsFmt p st a) (done ++ l) v := by
  intro l
  induction l with
  | nil =>
    intro done u h _ _
    exact ⟨u, rfl, (List.append_nil done).symm ▸ h⟩
  | cons e l ih =>
    obtain ⟨w, k⟩ := e
    intro done u h hlegal hnodup
    obtain ⟨⟨hw, hk⟩, hlegal⟩ := List.forall_mem_cons.1 hlegal
    have hnew : (w, k) ∉ done := fun hmem => List.disjoint_of_nodup_append hnodup hmem List.mem_cons_self
    rw [List.append_cons] at hnodup ⊢
    have hfu : FormatHas (u.statsFmt p st a) k := h.statsFmt ▸ hf k hk
    have hru : ramInRange u.params (statsAddr p st a w) = true := h.params ▸ hr w hw
    have over_iff := h.entryOver_iff (hf k hk) hnew
    obtain ⟨t, hrun, hswept⟩ : ∃ t, sweepEntry p st a w k u = .ok () t ∧
        Swept s p st a (s.statsFmt p st a) (done ++ [(w, k)]) t := by
      by_cases hover : EntryOver s p st a (s.statsFmt p st a) (w, k)
      · have run := sweepEntry_of_over hfu hru (hk.trans_le h8) (by rw [h.statsFmt]; exact over_iff.2 hover)
        exact ⟨_, run, h.statsFmt.symm ▸ h.evict (hf k hk) hnew hover⟩
      · exact ⟨u, sweepEntry_of_not_over hfu hru (by rw [h.statsFmt]; exact mt over_iff.1 hover), h.skip hover⟩
    obtain ⟨v, hrest, hv⟩ := ih hswept hlegal hnodup
    exact ⟨v, (bind_of_ok u _ hrun).trans hrest, hv⟩

end

end

end Sys2Proof.Machine
end

section
/-! SUPPORT. How a work operation of the sweeper begins and finishes, and what its work does where its table has a stats
ALU of a legal format (R401, R403, R406, R409 to R414). -/

namespace Sys2Proof.Machine

section
variable {s : State} {op : Op}

/-! ### Beginning and finishing (R401, R403, R409) -/

/-- The operations that are counted while they run. -/
def isWork : OpCode → Bool
  | .sweep | .dump | .dumpWord | .evictWord => true
  | .intervalSet | .lock | .unlock | .barrier => false

/-- The state in which the operation has been counted and put in flight. -/
def State.begun (s : State) (op : Op) : State :=
  let t := opStart op.table op.atype s
  t.setSwp { t.swp with inFlight := t.swp.inFlight ++ [op] }

/-- The state in which the operation has left the flight and has been counted down. -/
def State.finished (s : State) (op : Op) : State :=
  opStop op.table op.atype (s.setSwp { s.swp with inFlight := s.swp.inFlight.erase op })

theorem stale_eq_false (h : op.epoch = (s.ctl op.table op.atype).epoch) : stale s op = false := by
  rw [stale, h, bne_self_eq_false]

theorem stale_eq_true (h : op.epoch ≠ (s.ctl op.table op.atype).epoch) : stale s op = true := bne_iff_ne.2 h

theorem beginOp_of_isWork (h : isWork op.opcode = true) : beginOp op s
    = .ok () (if op.epoch = (s.ctl op.table op.atype).epoch then s.begun op else s) := by
  have begins : beginOp op s = (if stale s op = true then pure () else change fun s => s.begun op : M Unit) s := by
    unfold beginOp
    cases hcode : op.opcode with
    | sweep | dump | dumpWord | evictWord => rfl
    | intervalSet | lock | unlock | barrier => rw [hcode] at h; cases h
  by_cases current : op.epoch = (s.ctl op.table op.atype).epoch
  · rw [begins, stale_eq_false current, if_pos current]
    rfl
  · rw [begins, stale_eq_true current, if_neg current]
    rfl

theorem finishWork_of_stale (h : op.epoch ≠ (s.ctl op.table op.atype).epoch) :
    finishWork op s = .ok () (s.finished op) := by
  simp only [finishWork, look_bind, id, stale_eq_true h, if_true, change_apply]
  rfl

theorem finishWork_of_current (h : op.epoch = (s.ctl op.table op.atype).epoch) :
    finishWork op s = (work op >>= fun _ => change fun s => s.finished op) s := by
  simp only [finishWork, look_bind, id, stale_eq_false h, Bool.false_eq_true, if_false]
  rfl

/-! ### A row and a step of the sweeper (R406, R409) -/

theorem opStep_of_inFlight (ht : TableExists s op.table) (h : op ∈ s.swp.inFlight) : opStep op s = finishWork op s := by
  have table := (tableInRange_iff s.params op.table).2 ht
  simp only [opStep, look_bind, id, table, Bool.not_true, Bool.false_eq_true, if_false,
    if_pos (List.contains_iff_mem.2 h)]

theorem opStep_of_idle (ht : TableExists s op.table) (h : op ∉ s.swp.inFlight) (hl : s.swp.lockWaiting = [])
    (hb : canBegin s op = true) : opStep op s = beginOp op s := by
  have table := (tableInRange_iff s.params op.table).2 ht
  simp only [opStep, look_bind, id, table, hl, hb, Bool.not_true, Bool.false_eq_true, if_false, if_true,
    if_neg (mt List.contains_iff_mem.1 h), List.contains_nil]

theorem canBegin_of_isWork (h : isWork op.opcode = true) (hl : s.swp.lockWaiting = []) : canBegin s op = true := by
  have other : op.opcode ≠ .barrier := fun e => by rw [e] at h; cases h
  simp only [canBegin, hl, List.isEmpty_nil, bne_iff_ne.2 other, Bool.true_or, Bool.and_self]

/-- The state in which the head of the two queues has left its queue. -/
def State.popped (s : State) : State :=
  s.setSwp { s.swp with
    opsHi := s.swp.opsHi.tail, opsLo := if s.swp.opsHi = [] then s.swp.opsLo.tail else s.swp.opsLo }

theorem sweeperBegin_of_head (h : (s.swp.opsHi ++ s.swp.opsLo).head? = some op) (hb : canBegin s op = true) :
    sweeperBegin s = beginOp op s.popped := by
  cases hhi : s.swp.opsHi with
  | cons op' rest =>
    rw [hhi] at h
    cases h
    have popped : s.popped = s.setSwp { s.swp with opsHi := rest } := by rw [State.popped, hhi]; rfl
    simp only [sweeperBegin, look_bind, id, hhi, if_pos hb, change_bind, popped]
  | nil =>
    rw [hhi, List.nil_append] at h
    obtain ⟨rest, hlo⟩ := List.head?_eq_some_iff.1 h
    have popped : s.popped = s.setSwp { s.swp with opsLo := rest } := by
      rw [State.popped, if_pos hhi, hlo, hhi, List.tail_nil, List.tail_cons, ← hhi]
    simp only [sweeperBegin, look_bind, id, hhi, hlo, if_pos hb, change_bind, popped]

@[simp] theorem State.popped_ctl (s : State) (t : TableId) (b : AType) : s.popped.ctl t b = s.ctl t b := rfl

theorem sweeperBegin_of_isWork (h : (s.swp.opsHi ++ s.swp.opsLo).head? = some op) (hwork : isWork op.opcode = true)
    (hl : s.swp.lockWaiting = []) : sweeperBegin s
      = .ok () (if op.epoch = (s.ctl op.table op.atype).epoch then s.popped.begun op else s.popped) := by
  rw [sweeperBegin_of_head h (canBegin_of_isWork hwork hl), beginOp_of_isWork hwork, State.popped_ctl]

theorem sweeperFinish_of_getElem? {k : Nat} (h : s.swp.inFlight[k]? = some op) : sweeperFinish k s = finishWork op s := by
  simp only [sweeperFinish, look_bind, id, h]

theorem step_of_auto {l : Line} {rest : List Line} {act : AutoStep} (h : s.agenda = l :: rest) (hb : l.body = .auto act)
    (hrun : Running s) : step s = outcome (autoMeaning act) (enterAuto act (enterLine l rest s)) := by
  have running : (enterAuto act (enterLine l rest s)).err.faulted = none := hrun
  rw [step_of_agenda h, hb, runBody, runAuto, running]
  rfl

/-! ### The four rows -/

theorem outcome_bind_congr {m m' : M Unit} {k : Unit → M Ret} (h : m s = m' s) :
    outcome (m >>= k) s = outcome (m' >>= k) s := by
  rw [outcome, outcome, bind_apply, bind_apply, h]

/-- The rows of the work operations of an `OP` record, each with its code. -/
def workRows (o : OpFields) : List (Instr × OpCode) :=
  [(Instr.sweep o, OpCode.sweep), (.dump o, .dump), (.dumpWord o, .dumpWord), (.evictWord o, .evictWord)]

theorem mem_workRows (o : OpFields) : (Instr.sweep o, OpCode.sweep) ∈ workRows o ∧
    (Instr.dump o, OpCode.dump) ∈ workRows o ∧ (Instr.dumpWord o, OpCode.dumpWord) ∈ workRows o ∧
    (Instr.evictWord o, OpCode.evictWord) ∈ workRows o := by
  simp [workRows]

section
variable {o : OpFields} {e : Instr × OpCode} (he : e ∈ workRows o)
include he

theorem exec_of_mem_workRows (s : State) : exec e.1 s = outcome (opRow e.2 o) s ∧ isWork e.2 = true := by
  simp only [workRows, List.mem_cons, List.not_mem_nil, or_false] at he
  obtain rfl | rfl | rfl | rfl := he <;> exact ⟨rfl, rfl⟩

/-- A row on an operation that is not in flight begins it, or drops it without trace (R401, R409). -/
theorem exec_work_of_not_inFlight (ht : TableExists s (opOfFields e.2 o).table) (h : opOfFields e.2 o ∉ s.swp.inFlight)
    (hl : s.swp.lockWaiting = []) :
    (o.epoch = (s.ctl (opOfFields e.2 o).table o.atype).epoch →
      exec e.1 s = .next ((s.begun (opOfFields e.2 o)).setResult .none)) ∧
    (o.epoch ≠ (s.ctl (opOfFields e.2 o).table o.atype).epoch → exec e.1 s = .next (s.setResult .none)) := by
  obtain ⟨hexec, hwork⟩ := exec_of_mem_workRows he s
  have steps := (opStep_of_idle ht h hl (canBegin_of_isWork hwork hl)).trans (beginOp_of_isWork hwork)
  refine ⟨fun current => ?_, fun dropped => ?_⟩
  · have current' : (opOfFields e.2 o).epoch = (s.ctl (opOfFields e.2 o).table (opOfFields e.2 o).atype).epoch := current
    rw [if_pos current'] at steps
    exact hexec.trans (outcome_of_ok (bind_of_ok s _ steps))
  · have dropped' : (opOfFields e.2 o).epoch ≠ (s.ctl (opOfFields e.2 o).table (opOfFields e.2 o).atype).epoch := dropped
    rw [if_neg dropped'] at steps
    exact hexec.trans (outcome_of_ok (bind_of_ok s _ steps))

/-- A row on an operation in flight finishes it (R409). -/
theorem exec_work_of_inFlight (ht : TableExists s (opOfFields e.2 o).table) (h : opOfFields e.2 o ∈ s.swp.inFlight) :
    exec e.1 s = outcome (finishWork (opOfFields e.2 o) >>= fun _ => pure .none) s :=
  (exec_of_mem_workRows he s).1.trans (outcome_bind_congr (opStep_of_inFlight ht h))

theorem exec_work_of_finish {t : State} (ht : TableExists s (opOfFields e.2 o).table)
    (h : opOfFields e.2 o ∈ s.swp.inFlight) (hfin : finishWork (opOfFields e.2 o) s = .ok () t) :
    exec e.1 s = .next (t.setResult .none) :=
  (exec_work_of_inFlight he ht h).trans (outcome_of_ok (bind_of_ok s _ hfin))

theorem exec_work_of_work {t : State} (ht : TableExists s (opOfFields e.2 o).table)
    (h : opOfFields e.2 o ∈ s.swp.inFlight) (hepoch : o.epoch = (s.ctl (opOfFields e.2 o).table o.atype).epoch)
    (hwork : work (opOfFields e.2 o) s = .ok () t) :
    exec e.1 s = .next ((t.finished (opOfFields e.2 o)).setResult .none) :=
  exec_work_of_finish he ht h ((finishWork_of_current hepoch).trans (bind_of_ok s _ hwork))

theorem exec_work_of_atype_idle (ht : TableExists s (opOfFields e.2 o).table) (h : opOfFields e.2 o ∈ s.swp.inFlight)
    (hepoch : o.epoch = (s.ctl (opOfFields e.2 o).table o.atype).epoch) (htype : o.atype = .idle) :
    exec e.1 s = .refused .idleSweepNotSupplied := by
  have refused : work (opOfFields e.2 o) s = .error (.refuse .idleSweepNotSupplied) s := by
    have htype' : (opOfFields e.2 o).atype = .idle := htype
    simp only [work, htype', refuse_apply]
  exact (exec_work_of_inFlight he ht h).trans <| outcome_of_refused <|
    bind_of_error s _ <| (finishWork_of_current hepoch).trans (bind_of_error s _ refused)

end

end

/-! ### The work (R411 to R414) -/

section
variable {s : State} {op : Op} {a : Nat}

/-- The operation's table has the stats ALU `a`, and the format of that ALU has entries that fit. -/
structure HasStats (s : State) (t : TableId) (a : Nat) : Prop where
  table : TableExists s t
  alu : s.optField .ltStatsAlu [t.pipe, t.stage, t.lt] = some a
  lt : a < s.params.numStatsAlu
  format : FormatHas (s.statsFmt t.pipe t.stage a) 0

theorem HasStats.entry {t : TableId} (h : HasStats s t a) {k : Nat} (hk : k < (s.statsFmt t.pipe t.stage a).nEntries) :
    FormatHas (s.statsFmt t.pipe t.stage a) k := ⟨hk, h.format.2⟩

theorem HasStats.inRange {t : TableId} (h : HasStats s t a) {w : Nat} (hw : w < s.params.statsRamWords) :
    ramInRange s.params (statsAddr t.pipe t.stage a w) = true := by
  obtain ⟨hp, hst, -⟩ := h.table
  exact statsAddr_inRange_of_lt hp hst h.lt hw

theorem tableStatsAlu_of_has {t : TableId} (h : HasStats s t a) : tableStatsAlu t s = .ok (some a) s := by
  simp only [tableStatsAlu, look_bind, id, h.alu, if_pos h.lt, pure_apply]

theorem overEntries_of_has {t : TableId} (h : HasStats s t a) (g : Nat → Nat → Nat → M Unit) : overEntries t g s
    = forEach (allEntries s.params.statsRamWords (s.statsFmt t.pipe t.stage a).nEntries) (fun e => g a e.1 e.2) s := by
  have nonempty : (statsFormatAt s.params (s.field .statsFormat [t.pipe, t.stage, a])).nEntries ≠ 0 :=
    Nat.ne_of_gt h.format.1
  refine (bind_of_ok s _ (tableStatsAlu_of_has h)).trans ?_
  simp only [look_bind, id, if_neg nonempty]
  rfl

theorem mem_allEntries {words n : Nat} {e : Nat × Nat} : e ∈ allEntries words n ↔ e.1 < words ∧ e.2 < n := by
  have product : allEntries words n = List.range words ×ˢ List.range n := rfl
  rw [product, List.mem_product, List.mem_range, List.mem_range]

theorem nodup_allEntries (words n : Nat) : (allEntries words n).Nodup :=
  List.Nodup.product List.nodup_range List.nodup_range

/-- The entry that a word operation names (R413). -/
theorem entryArg_of_lt (harg : op.arg.toNat < 2 ^ 20) : entryArg op s = .ok (op.arg.toNat / 8, op.arg.toNat % 8) s := by
  simp only [entryArg, Nat.div_eq_of_lt harg, if_true, pure_apply]

/-- A loop whose every round appends one record to `host_out` and reads none. -/
theorem forEach_emits {α : Type} (r : α → HostRec) (g : α → M Unit) (l : List α)
    (h : ∀ e ∈ l, ∀ out, g e (s.setSwp { s.swp with hostOut := out })
      = .ok () (s.setSwp { s.swp with hostOut := out ++ [r e] })) (out : List HostRec) :
    forEach l g (s.setSwp { s.swp with hostOut := out }) = .ok () (s.setSwp { s.swp with hostOut := out ++ l.map r }) := by
  induction l generalizing out with
  | nil => rw [List.map_nil, List.append_nil]; rfl
  | cons e l ih =>
    obtain ⟨hhead, htail⟩ := List.forall_mem_cons.1 h
    rw [forEach_cons, bind_of_ok _ _ (hhead out), ih htail, List.map_cons, List.append_assoc]
    rfl

section
variable (htype : op.atype = .stats) (h : HasStats s op.table a)
include htype h

theorem work_sweep (hcode : op.opcode = .sweep) (h8 : (s.statsFmt op.table.pipe op.table.stage a).nEntries ≤ 8) :
    ∃ v, work op s = .ok () v ∧
      Swept s op.table.pipe op.table.stage a (s.statsFmt op.table.pipe op.table.stage a)
        (allEntries s.params.statsRamWords (s.statsFmt op.table.pipe op.table.stage a).nEntries) v := by
  obtain ⟨v, hrun, hv⟩ := forEach_sweepEntry (fun w hw => h.inRange hw) (fun k hk => h.entry hk) h8 _ (Swept.nil s _ _ a _)
    (fun e => mem_allEntries.1) (nodup_allEntries _ _)
  refine ⟨v, ?_, hv⟩
  simp only [work, htype, hcode]
  exact (overEntries_of_has h _).trans hrun

theorem work_dump (hcode : op.opcode = .dump) : work op s = .ok () (s.setSwp { s.swp with
    hostOut := s.swp.hostOut ++ (List.range s.params.statsRamWords).flatMap fun w =>
      (List.range (s.statsFmt op.table.pipe op.table.stage a).nEntries).map fun k => .dumpRec op.table (w * 8 + k)
        (storedCounts s op.table.pipe op.table.stage a (s.statsFmt op.table.pipe op.table.stage a) w k) }) := by
  have records (r : Nat × Nat → HostRec) (words n : Nat) : (allEntries words n).map r
      = (List.range words).flatMap fun w => (List.range n).map fun k => r (w, k) := by
    simp only [allEntries, List.map_flatMap, List.map_map, Function.comp_def]
  simp only [work, htype, hcode]
  refine (overEntries_of_has h _).trans ?_
  rw [← records fun e => .dumpRec op.table (e.1 * 8 + e.2)
    (storedCounts s op.table.pipe op.table.stage a (s.statsFmt op.table.pipe op.table.stage a) e.1 e.2)]
  refine forEach_emits _ _ _ (fun e he out => ?_) s.swp.hostOut
  obtain ⟨hw, hk⟩ := mem_allEntries.1 he
  let u := s.setSwp { s.swp with hostOut := out }
  exact bind_of_ok u _ (dumpEntry_of_inRange (s := u) (h.entry hk) (h.inRange hw))

theorem work_sweep_of_disabled (hcode : op.opcode = .sweep)
    (hoff : s.flag .lrtEnable [op.table.pipe, op.table.stage, a] = false) : work op s = .ok () s := by
  simp only [work, htype, hcode]
  refine (overEntries_of_has h _).trans (forEach_skip s _ _ fun e he => ?_)
  obtain ⟨hw, hk⟩ := mem_allEntries.1 he
  exact sweepEntry_of_not_over (h.entry hk) (h.inRange hw) fun above => Bool.eq_false_iff.1 hoff above.1

section
variable (harg : op.arg.toNat < 2 ^ 20)
include harg

theorem work_dumpWord_of_dump {ew : Word} {u : State} (hcode : op.opcode = .dumpWord)
    (hdump : dumpEntry op.table.pipe op.table.stage a (op.arg.toNat / 8) (op.arg.toNat % 8) s = .ok (some ew) u) :
    work op s = .ok () (u.emit (.dumpRec op.table op.arg.toNat ew)) := by
  simp only [work, htype, hcode]
  exact (bind_of_ok s _ (entryArg_of_lt harg)).trans <|
    (bind_of_ok s _ (tableStatsAlu_of_has h)).trans (bind_of_ok s _ hdump)

theorem work_evictWord_of_evict {ew : Word} {u : State} (hcode : op.opcode = .evictWord)
    (hevict : evictEntry op.table.pipe op.table.stage a (op.arg.toNat / 8) (op.arg.toNat % 8) s = .ok (some ew) u) :
    work op s = .ok () (u.emit (.evictRec op.table op.arg.toNat ew)) := by
  simp only [work, htype, hcode]
  exact (bind_of_ok s _ (entryArg_of_lt harg)).trans <|
    (bind_of_ok s _ (tableStatsAlu_of_has h)).trans (bind_of_ok s _ hevict)

end

end

/-- After a sweep of the whole RAM, the bits that are gone are those of the entries over the threshold. -/
theorem Swept.getLsbD_all {p st w words n i : Nat} {f : StatsFormat} {v : State}
    (h : Swept s p st a f (allEntries words n) v) (hw : w < words) :
    (v.mem.read (statsAddr p st a w)).getLsbD i = ((s.mem.read (statsAddr p st a w)).getLsbD i &&
      !decide (∃ k < n, EntryOver s p st a f (w, k) ∧ k * f.stride ≤ i ∧ i < k * f.stride + f.byteW + f.pktW)) := by
  rw [Bool.eq_iff_iff, h.bits, Bool.and_eq_true, Bool.not_eq_true', decide_eq_false_iff_not]
  simp only [mem_overOf, mem_allEntries, hw, true_and, and_assoc]

theorem Swept.read_other {p st words n : Nat} {f : StatsFormat} {v : State} {b : RamAddr}
    (h : Swept s p st a f (allEntries words n) v) (hb : ∀ w < words, b.key ≠ (statsAddr p st a w).key) :
    v.mem.read b = s.mem.read b :=
  h.other b fun e he => hb e.1 (mem_allEntries.1 (mem_overOf.1 he).1).1

end

end Sys2Proof.Machine
end

section
/-! PROOF. `SWEEP`, `DUMP`, `DUMP_WORD` and `EVICT_WORD` begin, work and finish (R200, R207, R401 to R414, R479). -/

namespace Sys2Proof.Machine

/-- Settles O49: the steps of the sweeper are those of the rows, and a sweep is one pass over the entries in order, in
which an entry that the pass has not come to still holds what it held before. -/
theorem workOperationsBeginAndFinish : Obligations.WorkOperationsBeginAndFinish := by
  intro s o a f t op c begun finished w k addr word ew ht
  refine ⟨fun e he hnew hl => exec_work_of_not_inFlight he ht hnew hl,
    fun e he hin dropped => exec_work_of_finish he ht hin (finishWork_of_stale dropped),
    fun l rest act hagenda hbody hrun => ?steps, fun current hty halu hlt hfmt hf h8 => ?works,
    fun current hty e he hin => exec_work_of_atype_idle he ht hin current hty⟩
  case steps =>
    intro s1 popped e he
    have auto := step_of_auto hagenda hbody hrun
    refine ⟨?begin, ?finish⟩
    case begin =>
      rintro rfl head hl
      have begins := sweeperBegin_of_isWork (s := s1) head (exec_of_mem_workRows he s1).2 hl
      exact auto.trans (outcome_of_ok (bind_of_ok s1 _ begins))
    case finish =>
      rintro k rfl hk
      have finishes := sweeperFinish_of_getElem? (s := s1) hk
      have row := exec_work_of_inFlight (s := s1) he ht (List.mem_of_getElem? hk)
      exact auto.trans ((outcome_bind_congr finishes).trans row.symm)
  case works =>
    subst hfmt
    obtain ⟨sweepRow, dumpRow, dumpWordRow, evictWordRow⟩ := mem_workRows o
    have has : HasStats s t a := ⟨ht, halu, hlt, hf⟩
    have rows {e : Instr × OpCode} (he : e ∈ workRows o) {u : State} (hin : op e.2 ∈ s.swp.inFlight)
        (hwork : work (op e.2) s = .ok () u) : exec e.1 s = .next ((u.finished (op e.2)).setResult .none) :=
      exec_work_of_work he ht hin current hwork
    refine ⟨fun hin off => ?off, fun hin => ?sweep, fun hin => ?dump, fun harg hw hk => ?word⟩
    case off => exact rows sweepRow hin (work_sweep_of_disabled hty has rfl off)
    case sweep =>
      intro above evicted
      obtain ⟨v, hwork, hv⟩ := work_sweep hty has (op := op .sweep) rfl h8
      have run := rows sweepRow hin hwork
      exact ⟨_, run, congrArg (fun u : State => (u.finished (op .sweep)).setResult .none) hv.frame, hv.stash,
        hv.otherStash, hv.irq, fun w hw i _ => hv.getLsbD_all hw, fun b hb => hv.read_other hb⟩
    case dump => exact rows dumpRow hin (work_dump hty has rfl)
    case word =>
      have hfk := has.entry hk
      have inRange := has.inRange hw
      refine ⟨fun hin => ?dumped, fun hin hres => ?kept, fun hin hres => ?cleared⟩
      case dumped =>
        exact rows dumpWordRow hin
          (work_dumpWord_of_dump hty has harg rfl (dumpEntry_of_inRange hfk inRange))
      case kept =>
        exact rows evictWordRow hin
          (work_evictWord_of_evict hty has harg rfl (evictEntry_of_reserved hfk inRange hres))
      case cleared =>
        exact ⟨_, countsWritten_setCounts hfk word (Nat.two_pow_pos _) (Nat.two_pow_pos _),
          rows evictWordRow hin
            (work_evictWord_of_evict hty has harg rfl (evictEntry_of_not_reserved hfk inRange hres))⟩

end Sys2Proof.Machine
end

section
/-! PROOF. The execution of a selector ALU: the word it uses, the record it leaves, and the selection of a member with
that word (R222, R223, R238, R544). -/

namespace Sys2Proof.Machine

section
variable {s : State} {p st a : Nat}

/-! ### The selection of a member (R222, R223, R232) -/

/-- What resilient selection with its fallback answers: Plan-B's member where no bucket lands on a live one. -/
def State.resilientMember (s : State) (p st a : Nat) (pv : Word) (hash : Nat) : Nat :=
  if resilientAt s p st a pv.toNat hash = noMember then planBIndex s.params pv.toNat hash
  else resilientAt s p st a pv.toNat hash

theorem selectMember_of_resilient (pv : Word) (hash : Nat) (h : s.flag .selMode [p, st, a] = true) :
    selectMember p st a pv.toNat hash s = .ok (s.resilientMember p st a pv hash) s := by
  simp only [selectMember, look_bind, id, if_pos h, State.resilientMember]
  by_cases unlanded : resilientAt s p st a pv.toNat hash = noMember
  · rw [if_neg (not_not.2 unlanded), if_pos unlanded]
    rfl
  · rw [if_pos unlanded, if_neg unlanded]
    rfl

theorem selectMember_of_fair (pv hash : Nat) (h : s.flag .selMode [p, st, a] = false) :
    selectMember p st a pv hash s = fairIndex p st a pv hash s := by
  simp only [selectMember, look_bind, id, h, Bool.false_eq_true, if_false]

theorem planBIndex_zero (params : Params) (hash : Nat) : planBIndex params (0 : Word).toNat hash = noMember := rfl

theorem resilientMember_zero (s : State) (p st a hash : Nat) : s.resilientMember p st a 0 hash = noMember := by
  have unlanded : resilientAt s p st a (0 : Word).toNat hash = noMember :=
    (resilientAt_cases s p st a 0 hash).elim And.left fun landed => absurd rfl landed.1
  rw [State.resilientMember, if_pos unlanded, planBIndex_zero]

/-- The answer is a live member whenever there is one: that of the bucket, or that of Plan-B (R223). -/
theorem resilientMember_live {pv : Word} (hash : Nat) (hpv : pv ≠ 0) :
    s.resilientMember p st a pv hash < 128 ∧ pv.getLsbD (s.resilientMember p st a pv hash) = true := by
  rw [State.resilientMember]
  split
  next => exact planBIndex_live s.params hash hpv
  next landed =>
    rcases resilientAt_cases s p st a pv hash with ⟨unlanded, -⟩ | ⟨-, -, -, -, -, live, -⟩
    · exact absurd unlanded landed
    · exact ⟨BitVec.lt_of_getLsbD live, live⟩

/-! ### The word of an execution (R238) -/

theorem selForward_eq (l : SelLast) (addr t : Nat) (fresh : Word) : selForward l addr t fresh
    = if l.valid = true ∧ l.addr = addr ∧ t = l.t + 1 then l.inputWord else fresh := by
  simp only [selForward, Bool.and_eq_true, beq_iff_eq, and_assoc]

/-- The state in which an execution with the word `w` selects: the record is the new one (R43, R238). -/
def State.selUsed (s : State) (p st a : Nat) (ma : MaFields) (w : Word) : State :=
  s.putSelLast p st a { valid := true, addr := ma.word.toNat, t := s.act.io.t, inputWord := w }

variable {ma : MaFields} {w : Word} (hat : AtSel s p st a) (hword : ma.word.toNat < s.params.selRamWords)
  (hw : selForward (s.selLast p st a) ma.word.toNat s.act.io.t (s.mem.read (selAddr p st a ma.word.toNat)) = w)
include hat hword hw

theorem selRun_apply (data : Word) : selRun p st a ma data s.act.io.t s
    = (selectMember p st a w.toNat (data.toNat % 2 ^ 52) >>= fun m => pure (AluOut.member m))
        (s.selUsed p st a ma w) := by
  subst hw
  exact bind_of_ok s _ (memRead_of_inRange (selAddr_inRange hat hword))

theorem exec_selExec_of_ok {m : Nat} {t : State}
    (e : selectMember p st a w.toNat (s.act.aluData.toNat % 2 ^ 52) (s.selUsed p st a ma w) = .ok m t) :
    exec (.selExec ma) s = .next (t.setResult (.alu (.member m))) := by
  have run := (selRun_apply hat hword hw s.act.aluData).trans (bind_of_ok _ _ e)
  exact outcome_of_ok ((atSel_apply hat _).trans (bind_of_ok s (fun o => pure (Ret.alu o)) run))

theorem exec_selExec_of_faulted {t : State}
    (e : selectMember p st a w.toNat (s.act.aluData.toNat % 2 ^ 52) (s.selUsed p st a ma w) = .error .faulted t) :
    exec (.selExec ma) s = .next t := by
  have run := (selRun_apply hat hword hw s.act.aluData).trans (bind_of_error _ _ e)
  exact outcome_of_faulted ((atSel_apply hat _).trans (bind_of_error s (fun o => pure (Ret.alu o)) run))

end

/-- Settles O26: the record touches neither the configuration nor the strategy, so the selection after it is the one
that the rows of the strategies make with the same word. -/
theorem selectorExecutionForwards : Obligations.SelectorExecutionForwards := by
  intro s p st a ma hat hword l w used err h
  have hw := selForward_eq l ma.word.toNat s.act.io.t (s.mem.read (selAddr p st a ma.word.toNat))
  have hash : (BitVec.ofNat 52 h).toNat = h := by rw [BitVec.toNat_ofNat, Nat.mod_mod]
  constructor
  · intro mode
    have resilient := exec_selResilient (pv := w) (h := BitVec.ofNat 52 h) hat
    have planB := exec_selPlanB (pv := w) (h := BitVec.ofNat 52 h) hat
    rw [hash] at resilient planB
    refine ⟨_, _, s.resilientMember p st a w h,
      exec_selExec_of_ok hat hword hw (selectMember_of_resilient (s := used) w h mode), resilient, planB, rfl,
      fun noLive => ?_, resilientMember_live h⟩
    rw [noLive]
    exact resilientMember_zero s p st a h
  · intro mode legal
    have fair := selectMember_of_fair (s := used) w.toNat h mode
    have picked := fairPick_of_legal (s := used) (pv := w) h (.inl legal)
    have answer : FairAnswer s p st a w h (used.fairMember p st a w h) := fairAnswer_fairMember (s := used) h
    refine ⟨fun count => ?_, fun mismatch stops => ?_, fun mismatch relaxed => ?_⟩
    · exact ⟨_, exec_selExec_of_ok hat hword hw
        (fair.trans ((fairIndex_of_count (s := used) h count).trans (picked used))), answer⟩
    · exact exec_selExec_of_faulted hat hword hw (fair.trans (fairIndex_of_fatal (s := used) h mismatch stops))
    · exact ⟨_, exec_selExec_of_ok hat hword hw
        (fair.trans ((fairIndex_of_relaxed (s := used) h mismatch relaxed).trans (picked err))), answer⟩

end Sys2Proof.Machine
end

section
/-! PROOF. The rows of a stateful instruction, by how the part that each is ends, and the compares (R257 to R273). -/

namespace Sys2Proof.Machine

/-! ### The rows of one stateful ALU -/

section
variable {s t : State} {p st a : Nat} {α : Type} {m : Nat → Nat → Nat → M α} {answer : α → Ret}

theorem rowAt_of_ok {v : α} (hat : AtSalu s p st a) (h : m p st a s = .ok v t) :
    outcome (atSalu fun p st a => do let v ← m p st a; pure (answer v)) s = .next (t.setResult (answer v)) :=
  outcome_of_ok ((atSalu_apply hat _).trans (bind_of_ok s (fun v => pure (answer v)) h))

theorem rowAt_of_faulted (hat : AtSalu s p st a) (h : m p st a s = .error .faulted t) :
    outcome (atSalu fun p st a => do let v ← m p st a; pure (answer v)) s = .next t :=
  outcome_of_faulted ((atSalu_apply hat _).trans (bind_of_error s (fun v => pure (answer v)) h))

theorem rowAt_of_refused {q : Refusal} (hat : AtSalu s p st a) (h : m p st a s = .error (.refuse q) t) :
    outcome (atSalu fun p st a => do let v ← m p st a; pure (answer v)) s = .refused q :=
  outcome_of_refused ((atSalu_apply hat _).trans (bind_of_error s (fun v => pure (answer v)) h))

end

/-! ### The operands (R255) -/

theorem operand_of_reserved (r : SaluRun) {code : BitVec 3} (h : 5 ≤ code.toNat) : operand r code = none := by
  have cases : code.toNat = 5 ∨ code.toNat = 6 ∨ code.toNat = 7 := by omega
  unfold operand
  rcases cases with h | h | h <;> rw [h] <;> rfl

/-- Two operands are read one after the other: a reserved code among them is refused (R120). -/
theorem operands_of_reserved {α : Type} (r : SaluRun) {ca cb : BitVec 3} (h : 5 ≤ ca.toNat ∨ 5 ≤ cb.toNat)
    (k : Nat → Nat → M α) (s : State) :
    (do let x ← need (operand r ca); let y ← need (operand r cb); k x y) s = .error (.refuse .reservedCode) s := by
  rcases h with h | h
  · rw [operand_of_reserved r h]
    rfl
  · cases operand r ca
    · rfl
    · rw [operand_of_reserved r h]
      rfl

/-! ### The compares (R257 to R273) -/

section
variable {s : State} {p st a : Nat} {c : CmpFields}

theorem cmpRaw_of_sources {r : SaluRun} {x y : Nat} (op : CmpOp) (h : Sources r c.srcA c.srcB x y) :
    cmpRaw op c r = some (relation op r.width (cmpValue op c r.width x y (siConst r.instr r.width))) := by
  obtain ⟨hx, hy⟩ := h
  simp only [cmpRaw, hx, hy]

theorem cmpRaw_of_reserved {r : SaluRun} (op : CmpOp) (h : 5 ≤ c.srcA.toNat ∨ 5 ≤ c.srcB.toNat) :
    cmpRaw op c r = none := by
  unfold cmpRaw
  rcases h with h | h
  · rw [operand_of_reserved r h]
  · rw [operand_of_reserved r h]
    cases operand r c.srcA <;> rfl

theorem State.compared_eq (raw : Bool) : s.compared p st a c raw
    = (s.putSaluRun p st a (withCompare (s.saluRun p st a) c raw)).setResult
        (.bool (gatedOf (withCompare (s.saluRun p st a) c raw) c.unit)) := by
  unfold State.compared withCompare
  cases c.unit <;> simp only [gatedOf, gate_eq_gatedBy]

theorem cmpRow_of_raw {op : CmpOp} {raw : Bool} (hat : AtSalu s p st a)
    (h : cmpRaw op c (s.saluRun p st a) = some raw) :
    outcome (cmpRow op c) s = .next (s.compared p st a c raw) := by
  rw [State.compared_eq]
  exact rowAt_of_ok hat (compareUnit_apply h)

theorem cmpRow_of_reserved (op : CmpOp) (hat : AtSalu s p st a) (h : 5 ≤ c.srcA.toNat ∨ 5 ≤ c.srcB.toNat) :
    outcome (cmpRow op c) s = .refused .reservedCode := by
  refine rowAt_of_refused hat (t := s) ?_
  rw [compareUnit, runOf_bind, cmpRaw_of_reserved op h]
  rfl

/-- The fifteen rows are the fifteen compares (R109). -/
theorem exec_cmp_row {i : Instr}
    (hi : i ∈ [Instr.cmpEq c, .cmpNe c, .cmpDisabled c, .cmpGtS c, .cmpGeS c, .cmpLtS c, .cmpLeS c, .cmpGtU c,
      .cmpGeU c, .cmpLtU c, .cmpLeU c, .cmpGtUus c, .cmpGeUus c, .cmpLtUus c, .cmpLeUus c]) :
    ∃ op, ∀ s, exec i s = outcome (cmpRow op c) s := by
  simp only [List.mem_cons, List.not_mem_nil, or_false] at hi
  rcases hi with rfl | rfl | rfl | rfl | rfl | rfl | rfl | rfl | rfl | rfl | rfl | rfl | rfl | rfl | rfl
  all_goals exact ⟨_, fun _ => rfl⟩

end

/-- Settles O27: one row for all the compares, whose raw result is the operation's relation of its exact sum. -/
theorem comparesTestTheExactSum : Obligations.ComparesTestTheExactSum := by
  intro s p st a c x y hat r W k sum u v m done hs
  have row (op : CmpOp) : outcome (cmpRow op c) s = done (relation op W (cmpValue op c W x y k)) :=
    cmpRow_of_raw hat (cmpRaw_of_sources op hs)
  have ne : relation .ne W (cmpValue .ne c W x y k) = decide (u % 2 ^ W ≠ 0) := (decide_not (p := u % 2 ^ W = 0)).symm
  exact ⟨row .eq, (row .ne).trans (congrArg done ne), row .disabled, row .gtS, row .geS, row .ltS, row .leS, row .gtU,
    row .geU, row .ltU, row .leU, row .gtUus, row .geUus, row .ltUus, row .leUus⟩

end Sys2Proof.Machine
end

section
/-! SUPPORT. How a unit of a stateful instruction ends, as a function of the chip and the execution in progress: it
writes its half, raises for an unpaired carry chain, or is refused (R276 to R308). -/

namespace Sys2Proof.Machine

/-! ### The ends of a unit -/

/-- How a unit ends: `writes r v` replaces the execution by `r` with `v` in the unit's half, `unpaired r v` raises first
(R291). -/
inductive UnitEnd
  | writes (r : SaluRun) (v : Nat)
  | unpaired (r : SaluRun) (v : Nat)
  | refuses (q : Refusal)

/-- A unit that reads two operands where its predicate holds, and leaves its half as it was elsewhere (R276). -/
def gatedEnd (r : SaluRun) (u : AuFields) (k : Nat → Nat → UnitEnd) : UnitEnd :=
  if predicate u.pred r.p0 r.p1 then
    match operand r u.srcA, operand r u.srcB with
    | some x, some y => k x y
    | _, _ => .refuses .reservedCode
  else .writes r (oldHalf r u.half)

/-- A logical unit on its operands (R292). -/
def logicEnd (r : SaluRun) (tt x y : Nat) : UnitEnd := .writes r (logicValue tt r.width x y)

/-- A carry-chain unit on its operands (R251, R289 to R291). -/
def chainEnd (chip : Chip) (r : SaluRun) (op : ArithOp) (half : Half) (x y : Nat) : UnitEnd :=
  if chip = .tofino then .refuses .carryOnTofino
  else if half = .hi ∧ r.loAddRan = carryPartner op then .writes r (carryValue op r.width x y r.carry)
  else .unpaired r (carryValue op r.width x y false)

/-- An arithmetic unit on its operands (R277 to R291). -/
def arithEnd (chip : Chip) (r : SaluRun) (op : ArithOp) (half : Half) (x y : Nat) : UnitEnd :=
  match op with
  | .addc => chainEnd chip r .addc half x y
  | .subc => chainEnd chip r .subc half x y
  | op => .writes (recordCarry r op half x y) (arithValue op r.width x y (oldHalf r half))

section
variable (p st a : Nat) (half : Half) (s : State)

/-- The state that a unit leaves which raised for its carry (R291). -/
abbrev State.carryRaised (r : SaluRun) : State := s.afterRaise (some (p, st)) (.saluCarryUnpaired a r.slot)

/-- What a sequence answers that ends so. -/
def UnitEnd.result : UnitEnd → EStateM.Result Stop State Nat
  | .writes r v => .ok v (s.putSaluRun p st a (withHalf r half v))
  | .unpaired r v =>
    if s.strict.saluCarry then .ok v ((s.carryRaised p st a r).putSaluRun p st a (withHalf r half v))
    else .error .faulted (s.carryRaised p st a r)
  | .refuses q => .error (.refuse q) s

/-- What the row of a unit answers that ends so. -/
def UnitEnd.outcome : UnitEnd → Host.Outcome State Fault Refusal
  | .writes r v => .next (s.halfWritten p st a r half v)
  | .unpaired r v =>
    if s.strict.saluCarry then .next ((s.carryRaised p st a r).halfWritten p st a r half v)
    else .next (s.carryRaised p st a r)
  | .refuses q => .refused q

end

/-! ### The units end so -/

section
variable {s : State} {p st a : Nat} {u : AuFields}

theorem State.halfWritten_eq (r : SaluRun) (half : Half) (v : Nat) :
    s.halfWritten p st a r half v = (s.putSaluRun p st a (withHalf r half v)).setResult (.nat v) := by
  cases half <;> rfl

theorem gatedEnd_of_sources {r : SaluRun} {x y : Nat} (hp : PredHolds r u.pred) (hs : Sources r u.srcA u.srcB x y)
    (k : Nat → Nat → UnitEnd) : gatedEnd r u k = k x y := by
  obtain ⟨hx, hy⟩ := hs
  rw [gatedEnd, if_pos (predicate_of_holds hp), hx, hy]

theorem gatedEnd_of_reserved {r : SaluRun} (hp : PredHolds r u.pred) (h : 5 ≤ u.srcA.toNat ∨ 5 ≤ u.srcB.toNat)
    (k : Nat → Nat → UnitEnd) : gatedEnd r u k = .refuses .reservedCode := by
  rw [gatedEnd, if_pos (predicate_of_holds hp)]
  rcases h with h | h
  · rw [operand_of_reserved r h]
  · rw [operand_of_reserved r h]
    cases operand r u.srcA <;> rfl

theorem gatedEnd_of_idle {r : SaluRun} (hp : ¬ PredHolds r u.pred) (k : Nat → Nat → UnitEnd) :
    gatedEnd r u k = .writes r (oldHalf r u.half) := by
  rw [gatedEnd, if_neg (by rw [predicate_of_not hp]; decide)]

/-- Around the operation of a unit: its predicate, then its two sources. -/
theorem gated_result {k : Nat → Nat → M Nat} {e : Nat → Nat → UnitEnd}
    (hk : ∀ x y, k x y s = (e x y).result p st a u.half s) :
    (if predicate u.pred (s.saluRun p st a).p0 (s.saluRun p st a).p1 then do
        let x ← need (operand (s.saluRun p st a) u.srcA)
        let y ← need (operand (s.saluRun p st a) u.srcB)
        k x y
      else idleUnit p st a u.half (s.saluRun p st a)) s
      = (gatedEnd (s.saluRun p st a) u e).result p st a u.half s := by
  unfold gatedEnd
  split
  · cases operand (s.saluRun p st a) u.srcA with
    | none => rfl
    | some x =>
      cases operand (s.saluRun p st a) u.srcB with
      | none => rfl
      | some y => exact hk x y
  · rfl

theorem logicHalf_result (tt : Nat) : logicHalf p st a tt u s
    = (gatedEnd (s.saluRun p st a) u (logicEnd (s.saluRun p st a) tt)).result p st a u.half s :=
  gated_result fun _ _ => rfl

/-- The carry of a carry-chain unit, and the write after it. -/
theorem pairedCarry_result (op : ArithOp) (half : Half) (r : SaluRun) (x y : Nat) (hc : s.params.chip ≠ .tofino) :
    (do
      let k ← pairedCarry p st a op half r
      putRun p st a (withHalf r half (carryValue op r.width x y k))
      pure (carryValue op r.width x y k) : M Nat) s
      = (chainEnd s.params.chip r op half x y).result p st a half s := by
  rw [chainEnd, if_neg hc]
  by_cases hpair : half = .hi ∧ r.loAddRan = carryPartner op
  · rw [pairedCarry, if_pos hpair, if_pos hpair]
    rfl
  · rw [pairedCarry, if_neg hpair, if_neg hpair, UnitEnd.result, State.carryRaised]
    cases hs : s.strict.saluCarry
    · have stops : fatal s.strict (.saluCarryUnpaired a r.slot) = true := by rw [fatal, hs]; rfl
      rw [State.afterRaise_of_fatal _ stops]
      exact bind_of_error s _ (bind_of_error s _ (raise_of_fatal _ stops))
    · have relaxed : fatal s.strict (.saluCarryUnpaired a r.slot) = false := by rw [fatal, hs]; rfl
      rw [State.afterRaise_of_relaxed _ relaxed]
      exact bind_of_ok s _ (bind_of_ok s _ (raise_of_relaxed _ relaxed))

theorem arithUnit_result (op : ArithOp) (half : Half) (r : SaluRun) (x y : Nat) :
    arithUnit p st a op half r x y s = (arithEnd s.params.chip r op half x y).result p st a half s := by
  cases op
  case addc | subc =>
    rw [arithUnit, look_bind, arithEnd]
    by_cases hc : s.params.chip = .tofino
    · rw [if_pos hc, chainEnd, if_pos hc]
      rfl
    · rw [if_neg hc]
      exact pairedCarry_result _ half r x y hc
  all_goals rfl

theorem arithHalf_result (op : ArithOp) : arithHalf p st a op u s
    = (gatedEnd (s.saluRun p st a) u (arithEnd s.params.chip (s.saluRun p st a) op u.half)).result p st a u.half s :=
  gated_result fun x y => arithUnit_result op u.half _ x y

/-! ### The rows of the units -/

theorem unitRow_outcome {m : Nat → Nat → Nat → M Nat} {e : UnitEnd} {half : Half} (hat : AtSalu s p st a)
    (h : m p st a s = e.result p st a half s) :
    outcome (atSalu fun p st a => do let v ← m p st a; pure (Ret.nat v)) s = e.outcome p st a half s := by
  cases e with
  | writes r v =>
    rw [UnitEnd.outcome, State.halfWritten_eq]
    exact rowAt_of_ok hat h
  | refuses q => exact rowAt_of_refused hat h
  | unpaired r v =>
    rw [UnitEnd.result] at h
    rw [UnitEnd.outcome, State.halfWritten_eq]
    split at h
    · rw [if_pos ‹_›]
      exact rowAt_of_ok hat h
    · rw [if_neg ‹_›]
      exact rowAt_of_faulted hat h

theorem logicRow_outcome (tt : Nat) (hat : AtSalu s p st a) : outcome (logicRow tt u) s
    = (gatedEnd (s.saluRun p st a) u (logicEnd (s.saluRun p st a) tt)).outcome p st a u.half s :=
  unitRow_outcome hat (logicHalf_result tt)

theorem arithRow_outcome (op : ArithOp) (hat : AtSalu s p st a) : outcome (arithRow op u) s
    = (gatedEnd (s.saluRun p st a) u (arithEnd s.params.chip (s.saluRun p st a) op u.half)).outcome p st a u.half s :=
  unitRow_outcome hat (arithHalf_result op)

/-- The rows of the units are the operations behind their predicates and sources. -/
theorem exec_unit_row {i : Instr} (hat : AtSalu s p st a)
    (hi : i ∈ [Instr.aNop u, .aAdd u, .aSub u, .aSubr u, .aSaddu u, .aSadds u, .aSsubu u, .aSsubs u, .aMinu u,
      .aMins u, .aMaxu u, .aMaxs u, .aAddc u, .aSubc u, .lSetz u, .lNor u, .lAndca u, .lNota u, .lAndcb u,
      .lNotb u, .lXor u, .lNand u, .lAnd u, .lXnor u, .lB u, .lOrca u, .lA u, .lOrcb u, .lOr u, .lSethi u]) :
    ∃ k, exec i s = (gatedEnd (s.saluRun p st a) u k).outcome p st a u.half s := by
  simp only [List.mem_cons, List.not_mem_nil, or_false] at hi
  have arith (op : ArithOp) (h : exec i s = outcome (arithRow op u) s) := h.trans (arithRow_outcome op hat)
  have logic (tt : Nat) (h : exec i s = outcome (logicRow tt u) s) := h.trans (logicRow_outcome tt hat)
  rcases hi with rfl | rfl | rfl | rfl | rfl | rfl | rfl | rfl | rfl | rfl | rfl | rfl | rfl | rfl | hi
  case inr =>
    rcases hi with rfl | rfl | rfl | rfl | rfl | rfl | rfl | rfl | rfl | rfl | rfl | rfl | rfl | rfl | rfl | rfl
    all_goals exact ⟨_, logic _ rfl⟩
  all_goals exact ⟨_, arith _ rfl⟩

end

/-- Settles O31: a false predicate writes the half as it was, before any source is read; a predicate that holds, and
every compare, reads both sources. -/
theorem idleUnitsKeepTheirHalf : Obligations.IdleUnitsKeepTheirHalf := by
  constructor
  · intro s p st a u hat r hp i hi
    obtain ⟨k, row⟩ := exec_unit_row hat hi
    rw [row, gatedEnd_of_idle hp]
    rfl
  · intro s p st a hat r
    refine ⟨fun c hc i hi => ?_, fun u hp hu i hi => ?_⟩
    · obtain ⟨op, row⟩ := exec_cmp_row hi
      rw [row, cmpRow_of_reserved op hat hc]
    · obtain ⟨k, row⟩ := exec_unit_row hat hi
      rw [row, gatedEnd_of_reserved hp hu]
      rfl

end Sys2Proof.Machine
end

section
/-! PROOF. The arithmetic and logical operations on the halves (R277 to R308), and the carry chain (R289 to R291). -/

namespace Sys2Proof.Machine

/-! ### Arithmetic within a width (R277 to R290) -/

section
variable {W x y : Nat}

/-- An integer that a natural number agrees with up to a multiple of two to the width. -/
theorem unsigned_of_add {v : Int} {n : Nat} (k : Nat) (h : v + 2 ^ W * k = n) : unsigned W v = n % 2 ^ W := by
  have same : v % 2 ^ W = ((n % 2 ^ W : Nat) : Int) := by
    rw [← Int.add_mul_emod_self_left v (2 ^ W) k, h]
    push_cast
    rfl
  rw [unsigned, same, Int.toNat_natCast]

theorem unsigned_sub (hy : y < 2 ^ W) : unsigned W ((x : Int) - y) = (x + 2 ^ W - y) % 2 ^ W :=
  unsigned_of_add 1 (by push_cast [Nat.cast_sub (show y ≤ x + 2 ^ W by omega)]; ring)

/-- A borrow may go past zero twice, so twice the modulus is added (R290). -/
theorem unsigned_sub_borrow (hy : y < 2 ^ W) (k : Bool) :
    unsigned W ((x : Int) - y - k.toNat) = (x + 2 * 2 ^ W - (y + k.toNat)) % 2 ^ W := by
  have hk := k.toNat_le
  exact unsigned_of_add 2 (by push_cast [Nat.cast_sub (show y + k.toNat ≤ x + 2 * 2 ^ W by omega)]; ring)

theorem carryOf_eq (hx : x < 2 ^ W) (hy : y < 2 ^ W) : carryOf W x y = decide (2 ^ W ≤ x + y) := by
  rw [carryOf, beq_eq_decide, decide_eq_decide, Nat.div_eq_iff (Nat.two_pow_pos W)]
  omega

theorem clampSigned_eq (hW : 0 < W) (v : Int) : clampSigned W v
    = ((max (-(2 ^ W / 2 : Nat) : Int) (min v ((2 ^ W / 2 : Nat) - 1))) % (2 ^ W : Nat)).toNat := by
  have half : 2 ^ W / 2 = 2 ^ (W - 1) := by
    obtain ⟨n, rfl⟩ : ∃ n, W = n + 1 := ⟨W - 1, by omega⟩
    rw [Nat.pow_succ, Nat.mul_div_cancel _ two_pos, Nat.add_sub_cancel]
  rw [clampSigned, unsigned, half]
  push_cast
  rfl

theorem sub_eq_ite : x - y = if x < y then 0 else x - y := by
  split <;> omega

end

theorem recordCarry_add (r : SaluRun) (half : Half) {x y : Nat} (hx : x < 2 ^ r.width) (hy : y < 2 ^ r.width) :
    recordCarry r .add half x y
      = if half = .lo then { r with loAddRan := .add, carry := decide (2 ^ r.width ≤ x + y) } else r := by
  cases half
  · rw [if_pos rfl, recordCarry, carryOf_eq hx hy]
  · rfl

theorem recordCarry_sub (r : SaluRun) (half : Half) (x y : Nat) :
    recordCarry r .sub half x y
      = if half = .lo then { r with loAddRan := .sub, carry := decide (x < y) } else r := by
  cases half <;> rfl

/-- Settles O28: behind its predicate and its sources a row writes the value of its operation. -/
theorem arithmeticWritesItsHalf : Obligations.ArithmeticWritesItsHalf := by
  intro s p st a u x y hat r hp hs W M sx sy clamp done lo hW
  have hx : x < 2 ^ W := operand_lt hs.1
  have hy : y < 2 ^ W := operand_lt hs.2
  have writes {op : ArithOp} {r' : SaluRun} {v : Nat} (h : arithEnd s.params.chip r op u.half x y = .writes r' v) :
      outcome (arithRow op u) s = done r' v := by
    rw [arithRow_outcome op hat, gatedEnd_of_sources hp hs, h]
    rfl
  have value {op : ArithOp} {v : Nat}
      (h : arithEnd s.params.chip r op u.half x y = .writes r (arithValue op W x y (oldHalf r u.half)))
      (hv : arithValue op W x y (oldHalf r u.half) = v) : outcome (arithRow op u) s = done r v :=
    writes (h.trans (congrArg _ hv))
  refine ⟨value rfl rfl, ?add, ?sub, value rfl (unsigned_sub hx), value rfl rfl, value rfl (clampSigned_eq hW _),
    value rfl sub_eq_ite, value rfl (clampSigned_eq hW _), value rfl Nat.min_def, value rfl rfl,
    value rfl Nat.max_def, value rfl rfl⟩
  case add => exact writes (congrArg (UnitEnd.writes · _) (recordCarry_add r u.half hx hy))
  case sub => exact writes (congrArg₂ UnitEnd.writes (recordCarry_sub r u.half x y) (unsigned_sub hy))

/-! ### The carry chain (R289 to R291) -/

section
variable {s : State} {p st a x y : Nat} {r : SaluRun} {op : ArithOp} {half : Half}

theorem chainEnd_of_tofino (h : s.params.chip = .tofino) :
    chainEnd s.params.chip r op half x y = .refuses .carryOnTofino := if_pos h

theorem chainEnd_of_paired (h : s.params.chip = .jbay) (hhalf : half = .hi) (hran : r.loAddRan = carryPartner op) :
    chainEnd s.params.chip r op half x y = .writes r (carryValue op r.width x y r.carry) := by
  rw [chainEnd, if_neg (by rw [h]; decide), if_pos ⟨hhalf, hran⟩]

theorem chainEnd_of_unpaired (h : s.params.chip = .jbay) (hun : half = .lo ∨ r.loAddRan ≠ carryPartner op) :
    chainEnd s.params.chip r op half x y = .unpaired r (carryValue op r.width x y false) := by
  have unpaired : ¬ (half = .hi ∧ r.loAddRan = carryPartner op) := by
    rintro ⟨rfl, hran⟩
    exact hun.elim nofun (· hran)
  rw [chainEnd, if_neg (by rw [h]; decide), if_neg unpaired]

theorem chain_outcome_of_unpaired {v : Nat} : (UnitEnd.unpaired r v).outcome p st a half s
    = .next (if s.strict.saluCarry then (s.carryRaised p st a r).halfWritten p st a r half v
        else s.carryRaised p st a r) := by
  rw [UnitEnd.outcome]
  split <;> rfl

end

/-- Settles O29: the three ends of a carry-chain unit, for both operations. -/
theorem carryChainNeedsItsPartner : Obligations.CarryChainNeedsItsPartner := by
  intro s p st a u x y hat r hp hs M err addc subc
  have hy : y < M := operand_lt hs.2
  have add : exec (.aAddc u) s = (chainEnd s.params.chip r .addc u.half x y).outcome p st a u.half s := by
    refine (arithRow_outcome .addc hat).trans ?_
    rw [gatedEnd_of_sources hp hs]
    rfl
  have sub : exec (.aSubc u) s = (chainEnd s.params.chip r .subc u.half x y).outcome p st a u.half s := by
    refine (arithRow_outcome .subc hat).trans ?_
    rw [gatedEnd_of_sources hp hs]
    rfl
  have difference (k : Bool) : carryValue .subc r.width x y k = subc k.toNat := unsigned_sub_borrow hy k
  refine ⟨fun hc hhalf hran => ?_, fun hc hhalf hran => ?_, fun hc hun => ?_, fun hc hun => ?_,
    fun hc => ⟨?_, ?_⟩⟩
  · rw [add, chainEnd_of_paired hc hhalf hran]
    rfl
  · rw [sub, chainEnd_of_paired hc hhalf hran, difference]
    rfl
  · rw [add, chainEnd_of_unpaired hc hun, chain_outcome_of_unpaired]
    rfl
  · rw [sub, chainEnd_of_unpaired hc hun, chain_outcome_of_unpaired, difference]
    rfl
  · rw [add, chainEnd_of_tofino hc]
    rfl
  · rw [sub, chainEnd_of_tofino hc]
    rfl

/-! ### The logical operations (R292 to R308) -/

/-- Bit `i` of a logical operation is the bit of its truth table that the operands name. -/
theorem testBit_logicValue (tt : Nat) {W x y : Nat} (hx : x < 2 ^ W) (hy : y < 2 ^ W) (i : Nat) :
    (logicValue tt W x y).testBit i
      = (decide (i < W) && tt.testBit (2 * (x.testBit i).toNat + (y.testBit i).toNat)) := by
  have ite (b : Bool) (v : Nat) : (if b then v else 0).testBit i = (b && v.testBit i) := by cases b <;> simp
  rw [logicValue]
  simp only [Nat.testBit_or, Nat.testBit_and, ite, testBit_notBits]
  by_cases hi : i < W
  · cases x.testBit i <;> cases y.testBit i <;> simp [hi]
  · have above {v : Nat} (hv : v < 2 ^ W) : v.testBit i = false :=
      Nat.testBit_lt_two_pow (hv.trans_le (Nat.pow_le_pow_right two_pos (Nat.le_of_not_lt hi)))
    simp [hi, above hx, above hy]

/-- The number has at each place below the width the function `f` of the operands' bits, and no bit above. -/
def Follows (W x y : Nat) (f : Bool → Bool → Bool) (v : Nat) : Prop :=
  ∀ i, v.testBit i = (decide (i < W) && f (x.testBit i) (y.testBit i))

section
variable {W x y v w : Nat} {f g : Bool → Bool → Bool}

theorem testBit_eq_of_lt (h : v < 2 ^ W) (i : Nat) : v.testBit i = (decide (i < W) && v.testBit i) := by
  conv_lhs => rw [← Nat.mod_eq_of_lt h, Nat.testBit_mod_two_pow]

theorem follows_left (h : x < 2 ^ W) : Follows W x y (fun a _ => a) x := testBit_eq_of_lt h
theorem follows_right (h : y < 2 ^ W) : Follows W x y (fun _ b => b) y := testBit_eq_of_lt h
theorem follows_zero : Follows W x y (fun _ _ => false) 0 := fun i => by simp
theorem follows_ones : Follows W x y (fun _ _ => true) (2 ^ W - 1) := fun i => by
  rw [Nat.testBit_two_pow_sub_one, Bool.and_true]

theorem Follows.and (hv : Follows W x y f v) (hw : Follows W x y g w) :
    Follows W x y (fun a b => f a b && g a b) (v &&& w) := fun i => by
  rw [Nat.testBit_and, hv i, hw i]
  cases decide (i < W) <;> rfl

theorem Follows.or (hv : Follows W x y f v) (hw : Follows W x y g w) :
    Follows W x y (fun a b => f a b || g a b) (v ||| w) := fun i => by
  rw [Nat.testBit_or, hv i, hw i]
  cases decide (i < W) <;> rfl

theorem Follows.xor (hv : Follows W x y f v) (hw : Follows W x y g w) :
    Follows W x y (fun a b => f a b ^^ g a b) (v ^^^ w) := fun i => by
  rw [Nat.testBit_xor, hv i, hw i]
  cases decide (i < W) <;> rfl

theorem Follows.inv (hv : Follows W x y f v) : Follows W x y (fun a b => true ^^ f a b) ((2 ^ W - 1) ^^^ v) :=
  follows_ones.xor hv

theorem Follows.logicValue_eq {tt : Nat} (hv : Follows W x y f v) (hx : x < 2 ^ W) (hy : y < 2 ^ W)
    (table : ∀ a b : Bool, tt.testBit (2 * a.toNat + b.toNat) = f a b) : logicValue tt W x y = v :=
  Nat.eq_of_testBit_eq fun i => by rw [testBit_logicValue tt hx hy, table, hv i]

end

/-- Settles O30: the function that is written follows the truth table of its code, bit by bit. -/
theorem logicFollowsItsTruthTable : Obligations.LogicFollowsItsTruthTable := by
  intro s p st a u x y hat r hp hs ones inv done
  have hx : x < 2 ^ r.width := operand_lt hs.1
  have hy : y < 2 ^ r.width := operand_lt hs.2
  have row {tt v : Nat} {f : Bool → Bool → Bool} (hv : Follows r.width x y f v)
      (table : ∀ a b : Bool, tt.testBit (2 * a.toNat + b.toNat) = f a b) : outcome (logicRow tt u) s = done v := by
    rw [logicRow_outcome tt hat, gatedEnd_of_sources hp hs, logicEnd, hv.logicValue_eq hx hy table]
    rfl
  have l : Follows r.width x y (fun a _ => a) x := follows_left hx
  have r : Follows r.width x y (fun _ b => b) y := follows_right hy
  exact ⟨row follows_zero (by decide), row (l.or r).inv (by decide), row (l.inv.and r) (by decide),
    row l.inv (by decide), row (l.and r.inv) (by decide), row r.inv (by decide), row (l.xor r) (by decide),
    row (l.and r).inv (by decide), row (l.and r) (by decide), row (l.xor r).inv (by decide), row r (by decide),
    row (l.inv.or r) (by decide), row l (by decide), row (l.or r.inv) (by decide), row (l.or r) (by decide),
    row follows_ones (by decide)⟩

end Sys2Proof.Machine
end

section
/-! PROOF. The `MISC` word of a stateful instruction: the divide unit, the 1-bit operations and the min/max unit
(R309 to R325). -/

namespace Sys2Proof

/-- A field of a word wherever it stands: past the end of the word both readings are 0. -/
theorem wordBits_eq_div_mod (w : Word) (off n : Nat) : wordBits w off n = w.toNat / 2 ^ off % 2 ^ n :=
  Nat.eq_of_testBit_eq fun i => by
    rw [testBit_wordBits, Nat.testBit_mod_two_pow, Nat.testBit_div_two_pow, Nat.add_comm i off]
    rfl

theorem wordSet_one (w : Word) (i : Nat) : wordSet w 1 i 1 = w ||| BitVec.twoPow 128 i := by
  refine BitVec.eq_of_getLsbD_eq fun k hk => ?_
  rw [getLsbD_wordSet, BitVec.getLsbD_or, BitVec.getLsbD_twoPow]
  by_cases hki : k = i
  · subst hki
    simp [hk]
  · rw [if_neg (by omega)]
    simp [hk, Ne.symm hki]

theorem wordSet_zero (w : Word) (i : Nat) : wordSet w 0 i 1 = w &&& ~~~BitVec.twoPow 128 i := by
  refine BitVec.eq_of_getLsbD_eq fun k hk => ?_
  rw [getLsbD_wordSet, BitVec.getLsbD_and, BitVec.getLsbD_not, BitVec.getLsbD_twoPow]
  by_cases hki : k = i
  · subst hki
    simp [hk]
  · rw [if_neg (by omega)]
    simp [hk, Ne.symm hki]

end Sys2Proof

namespace Sys2Proof.Machine

section
variable {s : State} {p st a mm W x y : Nat} {r r' : SaluRun} {m : MiscFields}

/-! ### The width and the divide unit (R253, R317 to R319) -/

/-- What follows the width of a `MISC` word works on the execution that is so wide. -/
theorem setWidth_then {α : Type} {k : M α} {v : α} (hW : widthOf m.width = some W)
    (run : Drives p st a (s.field .mmCfg [p, st, a]) k (widened (s.saluRun p st a) W) v r') :
    (setWidth p st a m >>= fun _ => k) s = .ok v (s.putSaluRun p st a r') :=
  (bind_of_ok s _ (setWidth_apply hW)).trans (run s rfl)

theorem Drives.answering {α β : Type} {k : M α} {v : α} (h : Drives p st a mm k r v r') (f : α → β) :
    Drives p st a mm (do let v ← k; pure (f v)) r (f v) r' := h.bind (drives_pure (f v) r')

theorem divide_drives {ca cb : BitVec 3} (hs : Sources r ca cb x y) : Drives p st a mm (divide p st a ca cb) r
    (dividerOutput (divOperand x) (divOperand y), modulusOutput (divOperand x) (divOperand y))
    { r with divRan := true, quot := dividerOutput (divOperand x) (divOperand y),
             rem := modulusOutput (divOperand x) (divOperand y) } := by
  obtain ⟨hx, hy⟩ := hs
  exact (drives_runOf r).bind ((drives_need hx r).bind ((drives_need hy r).bind (drives_putRun_pure r _ _)))

theorem divideIfEnabled_divides (hs : m.divEn = true → Sources r m.divSrcA m.divSrcB x y) :
    Drives p st a mm (divideIfEnabled p st a m) r () (divided r m x y) := by
  unfold divideIfEnabled divided
  cases hen : m.divEn
  · exact drives_pure () r
  · exact (divide_drives (hs hen)).bind (drives_pure () _)

/-- A `MISC` word: the width, the units of its mode, the divide unit on the operands that the mode left as they were. -/
theorem misc_of_mode {α : Type} {mode : M α} {v : α} (hW : widthOf m.width = some W)
    (units : Drives p st a (s.field .mmCfg [p, st, a]) mode (widened (s.saluRun p st a) W) v r)
    (hs : m.divEn = true → Sources r m.divSrcA m.divSrcB x y) :
    (do setWidth p st a m; let out ← mode; divideIfEnabled p st a m; pure out) s
      = .ok v (s.putSaluRun p st a (divided r m x y)) :=
  setWidth_then hW (units.bind ((divideIfEnabled_divides hs).answering fun _ => v))

/-- The C remainder, corrected to the sign of the divisor, is the remainder of the division that rounds down (R318). -/
theorem tmod_corrected (n k : Int) :
    (if n.tmod k ≠ 0 ∧ ¬ (n.tmod k < 0 ↔ k < 0) then n.tmod k + k else n.tmod k) = n.fmod k := by
  by_cases hk : k = 0
  · subst hk
    simp
  have low : 0 ≤ n % k := Int.emod_nonneg n hk
  have high : n % k < k.natAbs := Int.emod_lt n hk
  have divides : k ∣ n ↔ n % k = 0 := Int.dvd_iff_emod_eq_zero
  rw [Int.fmod_eq_emod, Int.tmod_eq_emod]
  by_cases hd : k ∣ n
  · have zero := divides.1 hd
    simp [hd, zero]
  · have pos : n % k ≠ 0 := fun h => hd (divides.2 h)
    simp only [hd, or_false]
    split_ifs <;> omega

theorem modulusOutput_eq (n k : Int) :
    modulusOutput n k = if k = 0 then (n % 2 ^ 16).toNat else (n.fmod k % 2 ^ 16).toNat := by
  rw [modulusOutput, ← tmod_corrected, Int.tmod_def]
  rfl

/-! ### The 1-bit operations (R309 to R316) -/

theorem bitOperand_eq (r : SaluRun) : bitOperand r = (r.input.getLsbD r.sub).toNat := by
  rw [bitOperand, wordBits_eq_div_mod, pow_one, ← Nat.toNat_testBit]
  rfl

/-- A 1-bit operation as a row: the width and the divide unit of its word stand around it. -/
theorem bitRow_outcome (op : BitOp) (hat : AtSalu s p st a) (hW : widthOf m.width = some W)
    (hr : r = widened (s.saluRun p st a) W) (hs : m.divEn = true → Sources r m.divSrcA m.divSrcB x y) {w : Word}
    {b : Bool} (hw : bitWord op r.input r.sub = w) (hb : bitOutOf op (r.input.getLsbD r.sub).toNat = b) :
    outcome (bitRow op m) s
      = answers ((s.putSaluRun p st a (divided { r with output := w, bitOut := b } m x y)).setResult (.bool b)) := by
  subst hr hw hb
  rw [← bitOperand_eq]
  have bit : Drives p st a (s.field .mmCfg [p, st, a]) (oneBit p st a op) (widened (s.saluRun p st a) W) _ _ :=
    (drives_runOf _).bind (drives_putRun_pure _ _ _)
  exact rowAt_of_ok hat (misc_of_mode hW bit hs)

end

/-- Settles O36: the quotient is the model's own; the modulus is the remainder of the division that rounds down. -/
theorem divideAndModulo : Obligations.DivideAndModulo := by
  intro s p st a W x y d hat hW r hs n k q m
  have hm : m = modulusOutput n k := (modulusOutput_eq n k).symm
  rw [hm]
  exact outcome_of_ok ((atSalu_apply hat _).trans
    (setWidth_then hW ((divide_drives hs).answering fun o => Ret.pair o.1 o.2)))

/-- Settles O33: one row for the seven operations, and what each makes of the bit and of the word. -/
theorem oneBitOperationsTouchOneBit : Obligations.OneBitOperationsTouchOneBit := by
  intro s p st a W x y m hat hW r hs old bit done
  have row {op : BitOp} {w : Word} {b : Bool} (hw : bitWord op r.input r.sub = w) (hb : bitOutOf op old.toNat = b) :
      outcome (bitRow op m) s = done w b := bitRow_outcome op hat hW rfl hs hw hb
  have same (b : Bool) : (b.toNat == 1) = b := by cases b <;> rfl
  have other (b : Bool) : (b.toNat == 0) = !b := by cases b <;> rfl
  exact ⟨row rfl rfl, row rfl (same old), row rfl (other old), row (wordSet_one _ _) (same old),
    row (wordSet_one _ _) (other old), row (wordSet_zero _ _) (same old), row (wordSet_zero _ _) (other old)⟩

end Sys2Proof.Machine
end

section
/-! PROOF. The min/max unit (R320 to R325). -/

namespace Sys2Proof.Machine

section
variable {c : MmFields} {isMax : Bool} {w data : Word}

/-! ### The selected subwords (R320, R321) -/

theorem mmSubword_eq (c : MmFields) (w : Word) (j : Nat) : mmSubword c w j = subword w (mmGeometry c).2 j :=
  wordBits_eq_div_mod w _ _

theorem mmGeometry_width (c : MmFields) : (mmGeometry c).2 = if c.size16 then 16 else 8 := by
  unfold mmGeometry
  split <;> rfl

theorem mem_mmSet {j : Nat} : j ∈ mmSet c data ↔ mmSelected c data j = true := by
  rw [mmSet, List.mem_filter, List.mem_range, mmMask, mmSelected, Nat.testBit_mod_two_pow, mmGeometry]
  cases c.size16 <;> cases c.maskSrc <;> simp

theorem mmSet_sorted (c : MmFields) (data : Word) : (mmSet c data).Pairwise (· < ·) :=
  List.pairwise_lt_range.filter _

/-- A selected subword lies inside the word. -/
theorem mmSet_inside {j : Nat} (h : j ∈ mmSet c data) : (mmGeometry c).2 * j + (mmGeometry c).2 ≤ 128 := by
  have hj := List.mem_range.1 (List.mem_filter.1 h).1
  have geometry : mmGeometry c = (8, 16) ∨ mmGeometry c = (16, 8) := by
    unfold mmGeometry
    split
    exacts [.inl rfl, .inr rfl]
  rcases geometry with h | h <;> rw [h] at hj ⊢ <;> dsimp only at hj ⊢ <;> omega

/-! ### The best value and the tie policy (R322) -/

/-- `v` is at least as good as `best` allows: `best` is the maximum or the minimum. -/
def Bounded (isMax : Bool) (v best : Nat) : Prop := if isMax then v ≤ best else best ≤ v

theorem mmBest_cons (j i : Nat) (js : List Nat) : mmBest c isMax w (j :: i :: js)
    = if isMax then max (mmSubword c w j) (mmBest c isMax w (i :: js))
      else min (mmSubword c w j) (mmBest c isMax w (i :: js)) := rfl

/-- The best value is held by a selected subword, and bounds every one. -/
theorem mmBest_attained_and_bounds (j : Nat) (js : List Nat) :
    (∃ i ∈ j :: js, mmSubword c w i = mmBest c isMax w (j :: js)) ∧
      ∀ i ∈ j :: js, Bounded isMax (mmSubword c w i) (mmBest c isMax w (j :: js)) := by
  induction js generalizing j with
  | nil =>
    refine ⟨⟨j, List.mem_singleton_self j, rfl⟩, fun i hi => ?_⟩
    rw [List.mem_singleton.1 hi]
    cases isMax <;> exact le_refl _
  | cons k js ih =>
    obtain ⟨⟨i, hi, attained⟩, bounds⟩ := ih k
    rw [mmBest_cons]
    constructor
    · have pick (b : Nat) (hb : b = mmSubword c w j ∨ b = mmBest c isMax w (k :: js)) :
          ∃ i ∈ j :: k :: js, mmSubword c w i = b := by
        rcases hb with rfl | rfl
        · exact ⟨j, List.mem_cons_self, rfl⟩
        · exact ⟨i, List.mem_cons_of_mem j hi, attained⟩
      cases isMax
      · exact pick _ (min_choice _ _)
      · exact pick _ (max_choice _ _)
    · intro i hi
      rcases List.mem_cons.1 hi with rfl | hi
      · cases isMax
        · exact min_le_left _ _
        · exact le_max_left _ _
      · have hb := bounds i hi
        cases isMax
        · exact (min_le_right _ _).trans hb
        · exact hb.trans (le_max_right _ _)

theorem getLastD_of_sorted {l : List Nat} (hs : l.Pairwise (· < ·)) (hne : l ≠ []) :
    l.getLastD 0 ∈ l ∧ ∀ i ∈ l, i ≤ l.getLastD 0 := by
  have last : l.getLastD 0 = l.getLast hne := by
    rw [List.getLastD_eq_getLast?, List.getLast?_eq_some_getLast hne, Option.getD_some]
  rw [last]
  exact ⟨List.getLast_mem hne, fun i hi => (hs.imp le_of_lt).rel_getLast hi⟩

theorem headD_of_sorted {l : List Nat} (hs : l.Pairwise (· < ·)) (hne : l ≠ []) :
    l.headD 0 ∈ l ∧ ∀ i ∈ l, l.headD 0 ≤ i := by
  cases l with
  | nil => exact absurd rfl hne
  | cons j js =>
    refine ⟨List.mem_cons_self, fun i hi => ?_⟩
    rcases List.mem_cons.1 hi with rfl | hi
    · exact le_refl _
    · exact (List.rel_of_pairwise_cons hs hi).le

/-- The tie policy picks a selected subword that holds the value, the highest or the lowest one. -/
theorem mmPick_picks {l : List Nat} {best : Nat} (hs : l.Pairwise (· < ·)) (h : ∃ i ∈ l, mmSubword c w i = best) :
    mmPick c best w l ∈ l ∧ mmSubword c w (mmPick c best w l) = best ∧
      ∀ i ∈ l, mmSubword c w i = best →
        if c.tieHigh then i ≤ mmPick c best w l else mmPick c best w l ≤ i := by
  let ties := l.filter (fun j => mmSubword c w j == best)
  have mem {i : Nat} : i ∈ ties ↔ i ∈ l ∧ mmSubword c w i = best := by
    rw [List.mem_filter, beq_iff_eq]
  have sorted : ties.Pairwise (· < ·) := hs.filter _
  have nonempty : ties ≠ [] := by
    obtain ⟨i, hi, hb⟩ := h
    exact List.ne_nil_of_mem (mem.2 ⟨hi, hb⟩)
  have pick : mmPick c best w l = if c.tieHigh then ties.getLastD 0 else ties.headD 0 := rfl
  rw [pick]
  cases c.tieHigh
  · obtain ⟨inside, first⟩ := headD_of_sorted sorted nonempty
    obtain ⟨hl, hb⟩ := mem.1 inside
    exact ⟨hl, hb, fun i hi hib => first i (mem.2 ⟨hi, hib⟩)⟩
  · obtain ⟨inside, last⟩ := getLastD_of_sorted sorted nonempty
    obtain ⟨hl, hb⟩ := mem.1 inside
    exact ⟨hl, hb, fun i hi hib => last i (mem.2 ⟨hi, hib⟩)⟩

/-! ### The post-modification (R323) -/

/-- A subword that is written inside the word: it reads back cut to its width, every other one is as it was. -/
theorem subword_wordSet {sw j : Nat} (v i : Nat) (h : sw * j + sw ≤ 128) (hv : v < 2 ^ sw) :
    subword (wordSet w v (sw * j) sw) sw i = if i = j then v else subword w sw i := by
  have field (w : Word) (i : Nat) : subword w sw i = wordBits w (sw * i) sw := (wordBits_eq_div_mod w _ _).symm
  rw [field, field]
  split
  · rename_i hij
    rw [hij, wordBits_wordSet_same _ _ _ _ h, Nat.mod_eq_of_lt hv]
  · rename_i hij
    refine wordBits_wordSet_other _ _ _ _ _ _ ?_
    rcases Nat.lt_or_gt_of_ne hij with hlt | hlt
    · exact .inl (Nat.mul_succ sw i ▸ Nat.mul_le_mul_left sw hlt)
    · exact .inr (Nat.mul_succ sw j ▸ Nat.mul_le_mul_left sw hlt)

/-- The post-modification by its code: nothing, a saturating add or a saturating subtract at the picked subword. -/
theorem mmPost_writes {j best : Nat} (hpost : c.post ≠ 3) (h : (mmGeometry c).2 * j + (mmGeometry c).2 ≤ 128)
    (hbest : best < 2 ^ (mmGeometry c).2) :
    ∃ out, mmPost c w j best = some out ∧ (c.post = 0 → out = w) ∧
      (c.post ≠ 0 → ∀ i, subword out (mmGeometry c).2 i = if i = j then
          (if c.post = 1 then min (best + c.delta.toNat) (2 ^ (mmGeometry c).2 - 1) else best - c.delta.toNat)
        else subword w (mmGeometry c).2 i) := by
  have codes : c.post = 0 ∨ c.post = 1 ∨ c.post = 2 := by
    generalize c.post = code at hpost ⊢
    revert code
    decide
  unfold mmPost
  rcases codes with hc | hc | hc <;> rw [hc]
  · exact ⟨w, rfl, fun _ => rfl, fun hne => absurd rfl hne⟩
  · exact ⟨_, rfl, fun he => absurd he (by decide), fun _ i =>
      subword_wordSet _ i h ((Nat.min_le_right _ _).trans_lt (ones_lt _))⟩
  · exact ⟨_, rfl, fun he => absurd he (by decide), fun _ i =>
      subword_wordSet _ i h ((Nat.sub_le _ _).trans_lt hbest)⟩

/-! ### The unit (R320) -/

/-- What the unit writes into the execution. -/
abbrev minMaxed (r : SaluRun) (out : Word) (best j : Nat) : SaluRun :=
  { r with output := out, mmValue := best, mmIndex := j }

theorem pairRow_of_ok {s t : State} {p st a v j : Nat} {m : Nat → Nat → Nat → M (Nat × Nat)}
    (hat : AtSalu s p st a) (h : m p st a s = .ok (v, j) t) :
    outcome (atSalu fun p st a => do let o ← m p st a; pure (.pair o.1 o.2)) s = .next (t.setResult (.pair v j)) :=
  rowAt_of_ok (answer := fun o : Nat × Nat => .pair o.1 o.2) hat h

theorem minMax_answers (r : SaluRun) (isMax : Bool) (hpost : c.post ≠ 3) :
    ∃ out best j, MinMaxAnswer c isMax r.data r.input out best j ∧
      ∀ p st a s, s.saluRun p st a = r →
        minMax p st a isMax c s = .ok (best, j) (s.putSaluRun p st a (minMaxed r out best j)) := by
  cases hset : mmSet c r.data with
  | nil =>
    refine ⟨r.input, 0, 0, .inl ⟨fun i hi => ?_, rfl, rfl, rfl⟩, fun p st a s hr => ?_⟩
    · exact List.not_mem_nil (hset ▸ mem_mmSet.2 hi)
    · rw [minMax, runOf_bind, hr, hset]
      rfl
  | cons i is =>
    obtain ⟨attained, bounds⟩ := mmBest_attained_and_bounds (c := c) (isMax := isMax) (w := r.input) i is
    have sorted := mmSet_sorted c r.data
    rw [hset] at sorted
    obtain ⟨picked, holds, ties⟩ := mmPick_picks sorted attained
    generalize hbest : mmBest c isMax r.input (i :: is) = best at bounds picked holds ties
    generalize hpick : mmPick c best r.input (i :: is) = j at picked holds ties
    have inside : j ∈ mmSet c r.data := by rw [hset]; exact picked
    have fits : best < 2 ^ (mmGeometry c).2 := holds ▸ wordBits_lt _ _ _
    obtain ⟨out, hout, same, written⟩ := mmPost_writes (w := r.input) hpost (mmSet_inside inside) fits
    refine ⟨out, best, j, .inr ?_, fun p st a s hr => ?_⟩
    · have selected {k : Nat} : mmSelected c r.data k = true ↔ k ∈ i :: is := by rw [← hset, mem_mmSet]
      simp only [mmSubword_eq, mmGeometry_width] at holds ties bounds written
      exact ⟨selected.2 picked, holds, fun k hk => bounds k (selected.1 hk), fun k hk => ties k (selected.1 hk), same,
        fun hne k _ _ => written hne k⟩
    · rw [minMax, runOf_bind, hr, hset]
      simp only [hbest, hpick, hout]
      rfl

end

/-- Settles O35: the unit reads its operands from the execution, as rows and as a mode of a `MISC` word. -/
theorem minMaxPicksTheBest : Obligations.MinMaxPicksTheBest := by
  intro s p st a hat r
  constructor
  · intro c hpost
    obtain ⟨out, best, j, least, runMin⟩ := minMax_answers r false hpost
    obtain ⟨out', best', j', greatest, runMax⟩ := minMax_answers r true hpost
    exact ⟨⟨out, best, j, least, pairRow_of_ok hat (runMin p st a s rfl)⟩,
      ⟨out', best', j', greatest, pairRow_of_ok hat (runMax p st a s rfl)⟩⟩
  · intro m bitOp W x y hW r1 hs w c reserved hpost
    obtain ⟨out, best, j, answer, run⟩ := minMax_answers r1 (wordBit w 0) hpost
    have units : Drives p st a w (minMaxConfigured p st a) r1 (best, j) (minMaxed r1 out best j) := by
      intro t ht
      have field : (t.putSaluRun p st a r1).field .mmCfg [p, st, a] = w := ht
      rw [minMaxConfigured, look_bind, field, if_neg (not_not.2 reserved),
        run p st a _ (State.saluRun_putSaluRun_same t p st a r1), State.putSaluRun_putSaluRun]
    exact ⟨out, best, j, answer,
      pairRow_of_ok hat (misc_of_mode hW units hs)⟩

end Sys2Proof.Machine
end

section
/-! SUPPORT. What the two units of an instruction do one after the other: how a unit ends beside its row, and mode
`DUAL` by the ends of its units (R252, R276). -/

namespace Sys2Proof.Machine

/-! ### The words of the units (R110) -/

section
variable {p st a w : Nat} {half : Half} {i : Instr}

theorem unitOfWord_logic (h : w % 32 < 16) :
    unitOfWord p st a half w = logicHalf p st a (w % 32) (auFields half w) := by
  have bit : wordBit w 4 = false := by
    rw [wordBit, beq_eq_false_iff_ne]
    omega
  have code : w % 16 = w % 32 := by omega
  rw [unitOfWord, bit, code]
  rfl

theorem unitOfWord_arith {op : ArithOp} (h : 16 ≤ w % 32) (hop : arithOpOf (w % 32 - 16) = some op) :
    unitOfWord p st a half w = arithHalf p st a op (auFields half w) := by
  have bit : wordBit w 4 = true := by
    rw [wordBit, beq_iff_eq]
    omega
  have code : w % 16 = w % 32 - 16 := by omega
  rw [unitOfWord, bit, code, hop]
  rfl

theorem decodeAu_legal (h : decodeAu half w = .ok i) : wordBit w 15 = false ∧ w % 32 < 30 := by
  have zero : wordBit w 15 = false := by
    by_contra hz
    rw [decodeAu_of_reservedBit half (Bool.eq_true_of_not_eq_false hz)] at h
    cases h
  refine ⟨zero, Nat.lt_of_not_le fun hcode => ?_⟩
  rw [decodeAu_of_reservedCode half zero hcode] at h
  cases h

theorem exec_logic_word (h : decodeAu half w = .ok i) (hw : w % 32 < 16) (s : State) :
    exec i s = outcome (logicRow (w % 32) (auFields half w)) s := by
  obtain ⟨zero, -⟩ := decodeAu_legal h
  generalize hk : w % 32 = k at hw
  interval_cases k
  all_goals
    simp only [decodeAu, zero, hk] at h
    cases h
    rfl

theorem exec_arith_word (h : decodeAu half w = .ok i) (hw : 16 ≤ w % 32) :
    ∃ op, arithOpOf (w % 32 - 16) = some op ∧ ∀ s, exec i s = outcome (arithRow op (auFields half w)) s := by
  obtain ⟨zero, legal⟩ := decodeAu_legal h
  generalize hk : w % 32 = k at hw legal
  interval_cases k
  all_goals
    simp only [decodeAu, zero, hk] at h
    cases h
    exact ⟨_, rfl, fun _ => rfl⟩

end

/-! ### What a unit keeps of the execution -/

/-- A unit leaves in the execution what it has but for the word it makes and what it records for the hi unit. -/
def UnitLeaves (r r' : SaluRun) : Prop := ∃ o l k, r' = { r with output := o, loAddRan := l, carry := k }

theorem UnitLeaves.trans {r r' r'' : SaluRun} (h : UnitLeaves r r') (h' : UnitLeaves r' r'') : UnitLeaves r r'' := by
  obtain ⟨_, _, _, rfl⟩ := h
  obtain ⟨o, l, k, rfl⟩ := h'
  exact ⟨o, l, k, rfl⟩

theorem unitLeaves_withHalf {r r' : SaluRun} (h : UnitLeaves r r') (half : Half) (v : Nat) :
    UnitLeaves r (withHalf r' half v) := by
  obtain ⟨_, _, _, rfl⟩ := h
  exact ⟨_, _, _, rfl⟩

/-- The operands of the execution stay what they are (R255). -/
theorem UnitLeaves.operand {r r' : SaluRun} (h : UnitLeaves r r') (code : BitVec 3) :
    operand r' code = operand r code := by
  obtain ⟨_, _, _, rfl⟩ := h
  rfl

/-- The execution that an end writes is left by a unit. -/
def UnitEnd.Leaves (r : SaluRun) : UnitEnd → Prop
  | .writes r' _ => UnitLeaves r r'
  | .unpaired r' _ => UnitLeaves r r'
  | .refuses _ => True

theorem unitLeaves_refl (r : SaluRun) : UnitLeaves r r := ⟨_, _, _, rfl⟩

theorem logicEnd_leaves (r : SaluRun) (tt x y : Nat) : (logicEnd r tt x y).Leaves r := unitLeaves_refl r

theorem recordCarry_leaves (r : SaluRun) (op : ArithOp) (half : Half) (x y : Nat) :
    UnitLeaves r (recordCarry r op half x y) := by
  unfold recordCarry
  split <;> exact ⟨_, _, _, rfl⟩

theorem chainEnd_leaves (chip : Chip) (r : SaluRun) (op : ArithOp) (half : Half) (x y : Nat) :
    (chainEnd chip r op half x y).Leaves r := by
  unfold chainEnd
  split
  · trivial
  · split <;> exact unitLeaves_refl r

theorem arithEnd_leaves (chip : Chip) (r : SaluRun) (op : ArithOp) (half : Half) (x y : Nat) :
    (arithEnd chip r op half x y).Leaves r := by
  cases op
  case addc | subc => exact chainEnd_leaves chip r _ half x y
  all_goals exact recordCarry_leaves r _ half x y

theorem gatedEnd_leaves {r : SaluRun} {k : Nat → Nat → UnitEnd} (u : AuFields) (hk : ∀ x y, (k x y).Leaves r) :
    (gatedEnd r u k).Leaves r := by
  unfold gatedEnd
  split
  · split
    · exact hk _ _
    · trivial
  · exact unitLeaves_refl r

/-- The word of a unit and its row end in the same way. -/
theorem decodedUnit_ends {half : Half} {w : Nat} {i : Instr} (h : decodeAu half w = .ok i) (p st a : Nat) (s : State) :
    ∃ e : UnitEnd, e.Leaves (s.saluRun p st a) ∧ unitOfWord p st a half w s = e.result p st a half s ∧
      ∀ y, AtSalu s p st a → exec i (s.setResult y) = e.outcome p st a half (s.setResult y) := by
  rcases Nat.lt_or_ge (w % 32) 16 with hw | hw
  · refine ⟨_, gatedEnd_leaves (auFields half w) (logicEnd_leaves _ (w % 32)), ?_, fun y hat => ?_⟩
    · exact (congrFun (unitOfWord_logic hw) s).trans (logicHalf_result _)
    · exact (exec_logic_word h hw _).trans (logicRow_outcome (s := s.setResult y) _ hat)
  · obtain ⟨op, hop, row⟩ := exec_arith_word h hw
    refine ⟨_, gatedEnd_leaves (auFields half w) (arithEnd_leaves s.params.chip _ op half), ?_, fun y hat => ?_⟩
    · exact (congrFun (unitOfWord_arith hw hop) s).trans (arithHalf_result op)
    · exact (row _).trans (arithRow_outcome (s := s.setResult y) op hat)

/-! ### A unit beside its row -/

/-- The update touches neither the launch record, nor the step's place, nor the last answer, nor whether the machine
runs. -/
structure Beside (s t : State) : Prop where
  params : t.params = s.params
  act : t.act = s.act
  result : t.result = s.result
  running : Running s → Running t

/-- How a unit that began in `s` with the execution `r` ended, and how its row ended that began in `s` but for the
answer `y` before it. -/
inductive UnitRan (p st a : Nat) (s : State) (y : Ret) (r : SaluRun) :
    EStateM.Result Stop State Nat → Host.Outcome State Fault Refusal → Prop
  | wrote (t : State) (r' : SaluRun) (v : Nat) (beside : Beside s t) (leaves : UnitLeaves r r') :
      UnitRan p st a s y r (.ok v (t.putSaluRun p st a r')) (.next ((t.putSaluRun p st a r').setResult (.nat v)))
  | faulted (t : State) (stopped : ¬ Running t) (same : t.result = s.result) :
      UnitRan p st a s y r (.error .faulted t) (.next (t.setResult y))
  | refused (q : Refusal) : UnitRan p st a s y r (.error (.refuse q) s) (.refused q)

section
variable {s : State} {p st a : Nat} {place : Option (Nat × Nat)} {e : Err} {y : Ret}

theorem State.enterFault_setResult (r : ErrRec) : (s.setResult y).enterFault r = (s.enterFault r).setResult y := by
  cases h : s.err.faulted with
  | none =>
    rw [State.enterFault_of_none r h, State.enterFault_of_none (s := s.setResult y) r h]
    rfl
  | some r' => rw [State.enterFault_of_some r h, State.enterFault_of_some (s := s.setResult y) r h]

theorem State.afterRaise_setResult : (s.setResult y).afterRaise place e = (s.afterRaise place e).setResult y := by
  cases h : fatal s.strict e
  · rw [State.afterRaise_of_relaxed _ h, State.afterRaise_of_relaxed (s := s.setResult y) _ h]
    rfl
  · rw [State.afterRaise_of_fatal _ h, State.afterRaise_of_fatal (s := s.setResult y) _ h]
    exact State.enterFault_setResult (s := s.logError _) _

theorem afterRaise_beside (h : fatal s.strict e = false) : Beside s (s.afterRaise place e) := by
  rw [State.afterRaise_of_relaxed _ h]
  exact ⟨rfl, rfl, rfl, fun running => running⟩

theorem afterRaise_stopped (h : fatal s.strict e = true) :
    ¬ Running (s.afterRaise place e) ∧ (s.afterRaise place e).result = s.result := by
  rw [State.afterRaise_of_fatal _ h]
  refine ⟨not_running_enterFault _ _, ?_⟩
  rw [State.enterFault_eq]
  rfl

theorem UnitEnd.ran {r : SaluRun} {e : UnitEnd} (h : e.Leaves r) (half : Half) (y : Ret) :
    UnitRan p st a s y r (e.result p st a half s) (e.outcome p st a half (s.setResult y)) := by
  cases e with
  | writes r' v =>
    rw [UnitEnd.outcome, State.halfWritten_eq]
    exact .wrote s _ v ⟨rfl, rfl, rfl, fun running => running⟩ (unitLeaves_withHalf h half v)
  | refuses q => exact .refused q
  | unpaired r' v =>
    rw [UnitEnd.outcome, State.halfWritten_eq, UnitEnd.result, State.carryRaised, State.carryRaised,
      State.afterRaise_setResult]
    have strict : (s.setResult y).strict = s.strict := rfl
    rw [strict]
    cases hs : s.strict.saluCarry
    · obtain ⟨stopped, same⟩ := afterRaise_stopped (s := s) (place := some (p, st))
        (e := .saluCarryUnpaired a r'.slot) (by rw [fatal, hs]; rfl)
      exact .faulted _ stopped same
    · exact .wrote _ _ v (afterRaise_beside (by rw [fatal, hs]; rfl)) (unitLeaves_withHalf h half v)

/-- A unit of an instruction, in the execution and as a row. -/
theorem unit_ran {half : Half} {w : Nat} {i : Instr} (h : decodeAu half w = .ok i) (hat : AtSalu s p st a) (y : Ret) :
    UnitRan p st a s y (s.saluRun p st a) (unitOfWord p st a half w s) (exec i (s.setResult y)) := by
  obtain ⟨e, leaves, run, row⟩ := decodedUnit_ends h p st a s
  rw [run, row y hat]
  exact UnitEnd.ran leaves half y

end

/-! ### Mode `DUAL` by the ends of its units (R252) -/

section
variable {s t t₁ : State} {p st a W x y : Nat} {m : MiscFields} {bitOp : BitVec 3} {r r' : SaluRun} {v v' : Nat}
  {e : Stop}

/-- The state in which the lo unit begins: the word as read, nothing recorded (log 19). -/
def State.dualStart (s : State) (p st a W : Nat) : State :=
  s.putSaluRun p st a { widened (s.saluRun p st a) W with
    output := (s.saluRun p st a).input, loAddRan := .none, carry := false }

/-- How an operation ends that stopped before its last statement. -/
def stopped (e : Stop) (t : State) : Host.Outcome State Fault Refusal :=
  match e with
  | .faulted => .next t
  | .refuse q => .refused q

theorem outcome_of_error {k : M Ret} (h : k s = .error e t) : outcome k s = stopped e t := by
  cases e
  · exact outcome_of_faulted h
  · exact outcome_of_refused h

/-- The answer of mode `DUAL`: both halves of the word that its units made. -/
def dualAnswer (p st a : Nat) : M Ret := do
  let r ← runOf p st a
  pure (.pair (runNewLo r) (runNewHi r))

/-- What mode `DUAL` does after its start. -/
def dualRest (p st a : Nat) (m : MiscFields) (instr : Word) : M Ret := do
  let _ ← unitOfWord p st a .lo (siAluLo instr)
  let _ ← unitOfWord p st a .hi (siAluHi instr)
  divideIfEnabled p st a m
  dualAnswer p st a

variable (hat : AtSalu s p st a) (hW : widthOf m.width = some W)
include hat hW

theorem exec_modeDual : exec (.modeDual m bitOp) s
    = outcome (dualRest p st a m (s.saluRun p st a).instr) (s.dualStart p st a W) := by
  have run : (miscDual p st a m >>= fun _ => dualAnswer p st a) s
      = dualRest p st a m (s.saluRun p st a).instr (s.dualStart p st a W) := by
    simp only [miscDual, dualUnits, bind_assoc, pure_bind]
    rw [bind_of_ok s _ (setWidth_apply hW), runOf_bind, putRun_bind, State.saluRun_putSaluRun_same,
      State.putSaluRun_putSaluRun]
    rfl
  have whole := (atSalu_apply hat fun p st a => miscDual p st a m >>= fun _ => dualAnswer p st a).trans run
  rw [outcome, ← whole]
  rfl

theorem dual_of_lo_error
    (h : unitOfWord p st a .lo (siAluLo (s.saluRun p st a).instr) (s.dualStart p st a W) = .error e t) :
    exec (.modeDual m bitOp) s = stopped e t := by
  rw [exec_modeDual hat hW]
  exact outcome_of_error (bind_of_error _ _ h)

theorem dual_of_hi_error
    (hlo : unitOfWord p st a .lo (siAluLo (s.saluRun p st a).instr) (s.dualStart p st a W) = .ok v t₁)
    (hhi : unitOfWord p st a .hi (siAluHi (s.saluRun p st a).instr) t₁ = .error e t) :
    exec (.modeDual m bitOp) s = stopped e t := by
  rw [exec_modeDual hat hW]
  exact outcome_of_error ((bind_of_ok _ _ hlo).trans (bind_of_error _ _ hhi))

theorem dual_of_ok
    (hlo : unitOfWord p st a .lo (siAluLo (s.saluRun p st a).instr) (s.dualStart p st a W) = .ok v t₁)
    (hhi : unitOfWord p st a .hi (siAluHi (s.saluRun p st a).instr) t₁ = .ok v' (t.putSaluRun p st a r'))
    (hs : m.divEn = true → Sources r' m.divSrcA m.divSrcB x y) :
    exec (.modeDual m bitOp) s
      = .next ((t.putSaluRun p st a (divided r' m x y)).setResult (.pair (runNewLo r') (runNewHi r'))) := by
  have div := divideIfEnabled_divides (p := p) (st := st) (a := a) hs t rfl
  have word : (divided r' m x y).output = r'.output ∧ (divided r' m x y).base = r'.base ∧
      (divided r' m x y).width = r'.width := by
    unfold divided
    split <;> exact ⟨rfl, rfl, rfl⟩
  obtain ⟨output, base, width⟩ := word
  rw [exec_modeDual hat hW]
  refine outcome_of_ok ((bind_of_ok _ _ hlo).trans ((bind_of_ok _ _ hhi).trans ((bind_of_ok _ _ div).trans ?_)))
  rw [dualAnswer, runOf_bind, State.saluRun_putSaluRun_same, runNewLo, runNewHi, output, base, width]
  rfl

end
end Sys2Proof.Machine
end

section
/-! PROOF. Mode `DUAL` runs its two units in order, and its carry chain adds at twice the width (R252, R278, R289). -/

namespace Sys2Proof.Machine

/-! ### From the end of a row to the end of its unit -/

section
variable {s u : State} {p st a : Nat} {y : Ret} {r : SaluRun} {res : EStateM.Result Stop State Nat}
  {out : Host.Outcome State Fault Refusal}

theorem UnitRan.of_running (h : UnitRan p st a s y r res out) (hout : out = .next u) (hu : Running u) :
    ∃ t r' v, res = .ok v (t.putSaluRun p st a r') ∧ u = (t.putSaluRun p st a r').setResult (.nat v) ∧
      Beside s t ∧ UnitLeaves r r' := by
  cases h with
  | wrote t r' v beside leaves =>
    cases hout
    exact ⟨t, r', v, rfl, rfl, beside, leaves⟩
  | faulted t stopped _ =>
    cases hout
    exact absurd hu stopped
  | refused q => cases hout

theorem UnitRan.of_stopped (h : UnitRan p st a s y r res out) (hout : out = .next u) (hrun : Running s)
    (hu : ¬ Running u) : ∃ t, res = .error .faulted t ∧ u = t.setResult y ∧ t.result = s.result := by
  cases h with
  | wrote t r' v beside _ =>
    cases hout
    exact absurd (beside.running hrun) hu
  | faulted t _ same =>
    cases hout
    exact ⟨t, rfl, rfl, same⟩
  | refused q => cases hout

theorem UnitRan.of_refused {q : Refusal} (h : UnitRan p st a s y r res out) (hout : out = .refused q) :
    res = .error (.refuse q) s := by
  cases h <;> cases hout
  rfl

theorem UnitRan.of_ok {t : State} {v : Nat} (h : UnitRan p st a s y r res out) (hres : res = .ok v t)
    (hrun : Running s) : out = .next (t.setResult (.nat v)) ∧ Running t := by
  cases h with
  | wrote t r' v beside _ =>
    cases hres
    exact ⟨rfl, beside.running hrun⟩
  | faulted t _ _ => cases hres
  | refused q => cases hres

theorem Beside.atSalu {s t : State} (h : Beside s t) (hat : AtSalu s p st a) : AtSalu t p st a := by
  rw [AtSalu, AtStage, h.params, h.act]
  exact hat

end

/-! ### The two units in order (R252) -/

section
variable {s : State} {p st a W x y : Nat} {m : MiscFields} {bitOp : BitVec 3} {lo hi : Instr}

/-- The halves of the word that the units made, by the base and the width that they began with. -/
theorem runNew_of_leaves {r r' : SaluRun} (h : UnitLeaves r r') :
    runNewLo r' = r'.output.toNat / 2 ^ (r.base + r.width * 0) % 2 ^ r.width ∧
      runNewHi r' = r'.output.toNat / 2 ^ (r.base + r.width * 1) % 2 ^ r.width := by
  obtain ⟨_, _, _, rfl⟩ := h
  rw [Nat.mul_one]
  exact ⟨wordBits_eq_div_mod _ _ _, wordBits_eq_div_mod _ _ _⟩

theorem dualStart_leaves : UnitLeaves (widened (s.saluRun p st a) W) ((s.dualStart p st a W).saluRun p st a) := by
  rw [State.dualStart, State.saluRun_putSaluRun_same]
  exact ⟨_, _, _, rfl⟩

/-- The lo unit of mode `DUAL` and its row. -/
theorem dual_lo_ran (hat : AtSalu s p st a) (hlo : decodeAu .lo (siAluLo (s.saluRun p st a).instr) = .ok lo) :
    UnitRan p st a (s.dualStart p st a W) s.result ((s.dualStart p st a W).saluRun p st a)
      (unitOfWord p st a .lo (siAluLo (s.saluRun p st a).instr) (s.dualStart p st a W))
      (exec lo (s.dualStart p st a W)) :=
  unit_ran (s := s.dualStart p st a W) hlo hat s.result

/-- The hi unit after a lo unit that ran, and its row after the lo row, whose answer it does not read. -/
theorem dual_hi_ran {t : State} {r : SaluRun} (hat : AtSalu s p st a) (beside : Beside (s.dualStart p st a W) t)
    (hhi : decodeAu .hi (siAluHi (s.saluRun p st a).instr) = .ok hi) (y : Ret) :
    UnitRan p st a (t.putSaluRun p st a r) y r
      (unitOfWord p st a .hi (siAluHi (s.saluRun p st a).instr) (t.putSaluRun p st a r))
      (exec hi ((t.putSaluRun p st a r).setResult y)) := by
  have ran := unit_ran (s := t.putSaluRun p st a r) hhi (beside.atSalu (p := p) (st := st) (a := a) hat) y
  rwa [State.saluRun_putSaluRun_same] at ran

/-- Both units ran: the two halves of their word, after the divide unit. -/
theorem dual_of_running (hat : AtSalu s p st a) (hW : widthOf m.width = some W)
    (hlo : decodeAu .lo (siAluLo (s.saluRun p st a).instr) = .ok lo)
    (hhi : decodeAu .hi (siAluHi (s.saluRun p st a).instr) = .ok hi) {u v : State}
    (hu : exec lo (s.dualStart p st a W) = .next u) (runs : Running u) (hv : exec hi u = .next v) (runs' : Running v)
    (hs : m.divEn = true → Sources (widened (s.saluRun p st a) W) m.divSrcA m.divSrcB x y) :
    exec (.modeDual m bitOp) s = .next ((v.putSaluRun p st a (divided (v.saluRun p st a) m x y)).setResult (.pair
      ((v.saluRun p st a).output.toNat / 2 ^ ((widened (s.saluRun p st a) W).base + W * 0) % 2 ^ W)
      ((v.saluRun p st a).output.toNat / 2 ^ ((widened (s.saluRun p st a) W).base + W * 1) % 2 ^ W))) := by
  obtain ⟨t, r, k, unit, rfl, beside, leaves⟩ := (dual_lo_ran hat hlo).of_running hu runs
  obtain ⟨t', r', k', unit', rfl, -, leaves'⟩ := (dual_hi_ran hat beside hhi _).of_running hv runs'
  have all : UnitLeaves (widened (s.saluRun p st a) W) r' := dualStart_leaves.trans (leaves.trans leaves')
  have sources (en : m.divEn = true) : Sources r' m.divSrcA m.divSrcB x y := by
    obtain ⟨hx, hy⟩ := hs en
    exact ⟨(all.operand _).trans hx, (all.operand _).trans hy⟩
  have run : ((t'.putSaluRun p st a r').setResult (.nat k')).saluRun p st a = r' :=
    State.saluRun_putSaluRun_same t' p st a r'
  obtain ⟨low, high⟩ := runNew_of_leaves all
  rw [run, dual_of_ok hat hW unit unit' sources, low, high, ← State.putSaluRun_putSaluRun t' r']
  rfl

/-- Two words with no reserved code and no carry chain run. -/
theorem dual_rows_run (hat : AtSalu s p st a) (hrun : Running s)
    (hlo : decodeAu .lo (siAluLo (s.saluRun p st a).instr) = .ok lo)
    (hhi : decodeAu .hi (siAluHi (s.saluRun p st a).instr) = .ok hi)
    (loRuns : auWordRuns (siAluLo (s.saluRun p st a).instr) = true)
    (hiRuns : auWordRuns (siAluHi (s.saluRun p st a).instr) = true) :
    ∃ u v, exec lo (s.dualStart p st a W) = .next u ∧ Running u ∧ exec hi u = .next v ∧ Running v := by
  obtain ⟨k, r, run⟩ := unitOfWord_completes (p := p) (st := st) (a := a) (mm := s.field .mmCfg [p, st, a]) .lo
    { widened (s.saluRun p st a) W with output := (s.saluRun p st a).input, loAddRan := .none, carry := false } loRuns
  obtain ⟨k', r', run'⟩ := unitOfWord_completes (p := p) (st := st) (a := a) (mm := s.field .mmCfg [p, st, a]) .hi r
    hiRuns
  obtain ⟨row, runs⟩ := (dual_lo_ran (W := W) hat hlo).of_ok (run s rfl) hrun
  have ran := unit_ran (s := s.putSaluRun p st a r) hhi hat (.nat k)
  obtain ⟨row', runs'⟩ := ran.of_ok (run' s rfl) hrun
  exact ⟨_, _, row, runs, row', runs'⟩

end

/-! ### The carry chain at twice the width (R278, R289) -/

section
variable {W : Nat}

/-- Adding the low halves, and the high halves with the carry, adds the numbers that the halves make up. -/
theorem add_halves {xl yl : Nat} (xh yh : Nat) (hx : xl < 2 ^ W) (hy : yl < 2 ^ W) :
    (xl + yl) % 2 ^ W + 2 ^ W * ((xh + yh + (carryOf W xl yl).toNat) % 2 ^ W)
      = (xl + 2 ^ W * xh + (yl + 2 ^ W * yh)) % 2 ^ (2 * W) := by
  have pos := Nat.two_pow_pos W
  have carry : (carryOf W xl yl).toNat = (xl + yl) / 2 ^ W := by
    have two : (xl + yl) / 2 ^ W < 2 := Nat.div_lt_of_lt_mul (by omega)
    rw [carryOf]
    interval_cases (xl + yl) / 2 ^ W <;> rfl
  have sum : xl + 2 ^ W * xh + (yl + 2 ^ W * yh) = xl + yl + 2 ^ W * (xh + yh) := by ring
  rw [sum, two_mul, pow_add, Nat.mod_mul, Nat.add_mul_mod_self_left, Nat.add_mul_div_left _ _ pos, carry,
    Nat.add_comm ((xl + yl) / 2 ^ W)]

/-- A field of twice the width is its two halves. -/
theorem div_mod_two_halves (n base : Nat) :
    n / 2 ^ base % 2 ^ (2 * W) = n / 2 ^ base % 2 ^ W + 2 ^ W * (n / 2 ^ (base + W) % 2 ^ W) := by
  rw [two_mul, pow_add, Nat.mod_mul, Nat.div_div_eq_div_mul, pow_add]

/-- The entry that a sub-address selects lies inside the word (R254). -/
theorem entry_inside {code : BitVec 2} {r : SaluRun} (hW : widthOf code = some W) (h : r.sub < 128) :
    (widened r W).base + W + W ≤ 128 := by
  have widths : W = 32 ∨ W = 16 ∨ W = 8 := by
    unfold widthOf at hW
    split at hW <;> simp_all
  rw [widened]
  rcases widths with rfl | rfl | rfl <;> dsimp only <;> omega

/-- A word whose two halves were written: the halves, and every bit outside them. -/
theorem two_halves_written {w : Word} {base v v' : Nat} (h : base + W + W ≤ 128) (hv : v < 2 ^ W) (hv' : v' < 2 ^ W) :
    wordBits (wordSet (wordSet w v base W) v' (base + W) W) base W = v ∧
      wordBits (wordSet (wordSet w v base W) v' (base + W) W) (base + W) W = v' ∧
      ∀ i, (i < base ∨ base + 2 * W ≤ i) →
        (wordSet (wordSet w v base W) v' (base + W) W).getLsbD i = w.getLsbD i := by
  refine ⟨?_, ?_, fun i hi => ?_⟩
  · rw [wordBits_wordSet_other _ _ _ _ _ _ (.inl le_rfl), wordBits_wordSet_same _ _ _ _ (by omega),
      Nat.mod_eq_of_lt hv]
  · rw [wordBits_wordSet_same _ _ _ _ h, Nat.mod_eq_of_lt hv']
  · rw [getLsbD_wordSet, getLsbD_wordSet, if_neg (by omega), if_neg (by omega)]
    by_cases h128 : i < 128
    · simp [h128]
    · simp [h128, BitVec.getLsbD_of_ge w i (Nat.le_of_not_lt h128)]

end

section
variable {s : State} {p st a W xl yl xh yh : Nat}

/-- The execution after an `A_ADD` in the lo unit. -/
def loAdded (r : SaluRun) (x y : Nat) : SaluRun :=
  withHalf { r with loAddRan := .add, carry := carryOf r.width x y } .lo ((x + y) % 2 ^ r.width)

/-- The execution after an `A_ADDC` in the hi unit. -/
def hiAdded (r : SaluRun) (x y : Nat) : SaluRun := withHalf r .hi ((x + y + r.carry.toNat) % 2 ^ r.width)

theorem lo_add_unit {w x y : Nat} {r : SaluRun} (hcode : w % 32 = 17) (hp : PredHolds r (auFields .lo w).pred)
    (hs : Sources r (auFields .lo w).srcA (auFields .lo w).srcB x y) :
    unitOfWord p st a .lo w (s.putSaluRun p st a r)
      = .ok ((x + y) % 2 ^ r.width) (s.putSaluRun p st a (loAdded r x y)) := by
  have unit := congrFun (unitOfWord_arith (p := p) (st := st) (a := a) (half := .lo) (w := w) (op := .add) (by omega)
    (by rw [hcode]; rfl)) (s.putSaluRun p st a r)
  rw [unit, arithHalf_result, State.saluRun_putSaluRun_same, gatedEnd_of_sources hp hs]
  exact congrArg (EStateM.Result.ok _) (State.putSaluRun_putSaluRun s r _)

theorem hi_addc_unit {w x y : Nat} {r : SaluRun} (hchip : s.params.chip = .jbay) (hcode : w % 32 = 28)
    (hran : r.loAddRan = .add) (hp : PredHolds r (auFields .hi w).pred)
    (hs : Sources r (auFields .hi w).srcA (auFields .hi w).srcB x y) :
    unitOfWord p st a .hi w (s.putSaluRun p st a r)
      = .ok ((x + y + r.carry.toNat) % 2 ^ r.width) (s.putSaluRun p st a (hiAdded r x y)) := by
  have unit := congrFun (unitOfWord_arith (p := p) (st := st) (a := a) (half := .hi) (w := w) (op := .addc) (by omega)
    (by rw [hcode]; rfl)) (s.putSaluRun p st a r)
  rw [unit, arithHalf_result, State.saluRun_putSaluRun_same, gatedEnd_of_sources hp hs, arithEnd,
    chainEnd_of_paired (s := s.putSaluRun p st a r) (half := (auFields .hi w).half) hchip rfl hran]
  exact congrArg (EStateM.Result.ok _) (State.putSaluRun_putSaluRun s r _)

end

/-- Settles O34: the two units by their ends, each beside its row; and the pair of additions by the carry between
them. -/
theorem dualCarryChainAddsDoubleWidth : Obligations.DualCarryChainAddsDoubleWidth := by
  constructor
  · intro s p st a W x y m bitOp lo hi hat hrun hW r s0 dual hlo hhi
    have loRan : UnitRan p st a s0 s.result _ _ (exec lo s0) := dual_lo_ran (W := W) hat hlo
    refine ⟨fun loRuns hiRuns => ?_, fun u v hu runs hv runs' hs => ?_, fun u hu stops => ?_,
      fun u v hu runs hv stops => ?_, fun q hq => ?_, fun u q hu runs hq => ?_⟩
    · exact dual_rows_run (W := W) hat hrun hlo hhi loRuns hiRuns
    · exact dual_of_running hat hW hlo hhi hu runs hv runs' hs
    · obtain ⟨t, unit, rfl, same⟩ := loRan.of_stopped hu hrun stops
      have result : t.setResult s.result = t := same ▸ State.setResult_self t
      rw [result]
      exact dual_of_lo_error hat hW unit
    · obtain ⟨t, r', k, unit, rfl, beside, -⟩ := loRan.of_running hu runs
      obtain ⟨t', unit', rfl, same⟩ := (dual_hi_ran hat beside hhi _).of_stopped hv runs stops
      have result : t'.setResult s.result = t' := (same.trans beside.result) ▸ State.setResult_self t'
      exact (dual_of_hi_error hat hW unit unit').trans (congrArg _ result.symm)
    · exact dual_of_lo_error hat hW (loRan.of_refused hq)
    · obtain ⟨t, r', k, unit, rfl, beside, -⟩ := loRan.of_running hu runs
      exact dual_of_hi_error hat hW unit ((dual_hi_ran hat beside hhi _).of_refused hq)
  · intro s p st a W xl yl xh yh m bitOp hat hchip hW hdiv r hsub hadd haddc ul uh hpl hph hsl hsh
    let r0 : SaluRun := { r with output := r.input, loAddRan := .none, carry := false }
    let r1 := loAdded r0 xl yl
    let r2 := hiAdded r1 xh yh
    have lo := lo_add_unit (s := s) (p := p) (st := st) (a := a) (r := r0) hadd hpl hsl
    have hi := hi_addc_unit (s := s) (p := p) (st := st) (a := a) (r := r1) hchip haddc rfl hph hsh
    have row := dual_of_ok (m := m) (bitOp := bitOp) (x := 0) (y := 0) hat hW lo hi
      (fun en => absurd en (by rw [hdiv]; decide))
    have undivided : divided r2 m 0 0 = r2 := by rw [divided, hdiv]; rfl
    obtain ⟨low, high, outside⟩ := two_halves_written (w := r.input) (v := (xl + yl) % 2 ^ W)
      (v' := (xh + yh + (carryOf W xl yl).toNat) % 2 ^ W) (entry_inside (r := s.saluRun p st a) hW hsub)
      (Nat.mod_lt _ (Nat.two_pow_pos W)) (Nat.mod_lt _ (Nat.two_pow_pos W))
    rw [undivided] at row
    refine ⟨r2, runNewLo r2, runNewHi r2, row, wordBits_lt _ _ _, wordBits_lt _ _ _, ?sum, ?entry, outside, rfl, rfl,
      rfl⟩
    case sum =>
      have halves : runNewLo r2 + 2 ^ W * runNewHi r2 = _ := congrArg₂ (· + 2 ^ W * ·) low high
      exact halves.trans (add_halves xh yh (operand_lt hsl.1) (operand_lt hsl.2))
    case entry =>
      rw [div_mod_two_halves, ← wordBits_eq_div_mod, ← wordBits_eq_div_mod]
      rfl

end Sys2Proof.Machine
end

section
/-! PROOF. Push and pop of a counter: what each answers and leaves, that the bounds are kept, and that a stack pop
undoes a push (R333 to R339, R342). -/

namespace Sys2Proof.Machine

section
variable {s t : State} {p st c : Nat}

/-! ### The operations that answer a pointer -/

theorem outcome_pointerOp {f : Nat → Nat → M (Option Nat)} {q : Option Nat} (hat : AtStage s p st)
    (hc : c < s.params.numCtrs) (h : f p st s = .ok q t) :
    outcome (pointerOp c f) s = .next (t.setResult (.pointer q)) :=
  outcome_of_ok (by rw [pointerOp, atStage_apply hat, withCounter_apply hc, bind_of_ok s _ h]; rfl)

/-- The watermark reads and writes `wm_count` alone, whatever else the push or the pop has changed. -/
theorem watermarkStep_of_wmCount (pop : Bool) {v : Counter} (hv : v.wmCount = (s.counter p st c).wmCount) :
    watermarkStep s p st c pop v = { v with wmCount := s.watermarked p st c pop } := by
  have unchanged : v = { v with wmCount := (s.counter p st c).wmCount } := hv ▸ rfl
  have counted : (watermarkStep s p st c pop (s.counter p st c)).wmCount = s.watermarked p st c pop := by
    rw [watermarkStep_eq]
  unfold watermarkStep at counted ⊢
  rw [hv]
  split
  · rw [if_pos ‹_›] at counted
    exact unchanged.trans (congrArg (fun n => { v with wmCount := n }) counted)
  · rw [if_neg ‹_›] at counted
    split
    · rw [if_pos ‹_›] at counted
      exact congrArg (fun n => { v with wmCount := n }) counted
    · rw [if_neg ‹_›] at counted
      exact congrArg (fun n => { v with wmCount := n }) counted

/-! ### Push and pop as functions of the counter (R336 to R339) -/

/-- The counter at full, after a push, and at empty, after a pop: only the flag is set. -/
def withOverflow (v : Counter) : Counter := { v with flags := v.flags ||| flOverflowed }
def withUnderflow (v : Counter) : Counter := { v with flags := v.flags ||| flUnderflowed }

/-- The counter after a push that lands, and after a pop of either discipline. -/
def State.pushed (s : State) (p st c : Nat) : Counter :=
  let v := s.counter p st c
  { v with value := s.nextValue p st c v.value, fill := v.fill + 1, wmCount := s.watermarked p st c false }
def State.fifoPopped (s : State) (p st c : Nat) : Counter :=
  let v := s.counter p st c
  { v with popValue := s.nextValue p st c v.popValue, fill := v.fill - 1, wmCount := s.watermarked p st c true }
def State.stackPopped (s : State) (p st c : Nat) : Counter :=
  let v := s.counter p st c
  { v with value := s.prevValue p st c v.value, fill := v.fill - 1, wmCount := s.watermarked p st c true }

/-- The state after a push or a pop that leaves the counter `v` and answers `q`. -/
def State.pointed (s : State) (p st c : Nat) (v : Counter) (q : Option Nat) : State :=
  (s.putCounter p st c v).setResult (.pointer q)

theorem capacity_boundsAt : capacity (boundsAt s p st c) = s.counterCapacity p st c := rfl

theorem pushCtr_of_full (ready : CounterReady s p st c) (full : (s.counter p st c).fill = s.counterCapacity p st c) :
    pushCtr p st c s = .ok none (s.putCounter p st c (withOverflow (s.counter p st c))) := by
  obtain ⟨-, -, hbase, -⟩ := ready
  rw [pushCtr, bind_of_ok _ _ (readBounds_of_le hbase), counterOf_bind, capacity_boundsAt, if_pos full]
  rfl

theorem pushCtr_of_room (ready : CounterReady s p st c) (room : (s.counter p st c).fill ≠ s.counterCapacity p st c) :
    pushCtr p st c s = .ok (some (s.counter p st c).value) (s.putCounter p st c (s.pushed p st c)) := by
  obtain ⟨-, -, hbase, -⟩ := ready
  rw [pushCtr, bind_of_ok _ _ (readBounds_of_le hbase), counterOf_bind, capacity_boundsAt, if_neg room, look_bind,
    id, watermarkStep_of_wmCount] <;> rfl

theorem popFifo_of_empty (empty : (s.counter p st c).fill = 0) :
    popFifo p st c s = .ok none (s.putCounter p st c (withUnderflow (s.counter p st c))) := by
  rw [popFifo, counterOf_bind, if_pos empty]
  rfl

theorem popFifo_of_filled (ready : CounterReady s p st c) (filled : (s.counter p st c).fill ≠ 0) :
    popFifo p st c s = .ok (some (s.counter p st c).popValue) (s.putCounter p st c (s.fifoPopped p st c)) := by
  obtain ⟨-, -, hbase, -⟩ := ready
  rw [popFifo, counterOf_bind, if_neg filled, bind_of_ok _ _ (readBounds_of_le hbase), look_bind, id,
    watermarkStep_of_wmCount] <;> rfl

theorem popStack_of_empty (empty : (s.counter p st c).fill = 0) :
    popStack p st c s = .ok none (s.putCounter p st c (withUnderflow (s.counter p st c))) := by
  rw [popStack, counterOf_bind, if_pos empty]
  rfl

theorem popStack_of_filled (ready : CounterReady s p st c) (filled : (s.counter p st c).fill ≠ 0) :
    popStack p st c s = .ok (some (s.prevValue p st c (s.counter p st c).value))
      (s.putCounter p st c (s.stackPopped p st c)) := by
  obtain ⟨-, -, hbase, -⟩ := ready
  rw [popStack, counterOf_bind, if_neg filled, bind_of_ok _ _ (readBounds_of_le hbase), look_bind, id,
    watermarkStep_of_wmCount] <;> rfl

/-! ### The rows -/

/-- A push of either discipline is the same step. -/
theorem exec_push {i : Instr} (hi : i ∈ [Instr.ctrPushFifo c, .ctrPushStack c]) (s : State) :
    exec i s = outcome (pointerOp c (fun p st => pushCtr p st c)) s := by
  rw [List.mem_cons, List.mem_singleton] at hi
  rcases hi with rfl | rfl <;> rfl

theorem exec_push_of_full {i : Instr} (hi : i ∈ [Instr.ctrPushFifo c, .ctrPushStack c]) (ready : CounterReady s p st c)
    (full : (s.counter p st c).fill = s.counterCapacity p st c) :
    exec i s = .next (s.pointed p st c (withOverflow (s.counter p st c)) none) := by
  have ⟨hat, hc, _⟩ := ready
  exact (exec_push hi s).trans (outcome_pointerOp hat hc (pushCtr_of_full ready full))

theorem exec_push_of_room {i : Instr} (hi : i ∈ [Instr.ctrPushFifo c, .ctrPushStack c]) (ready : CounterReady s p st c)
    (room : (s.counter p st c).fill ≠ s.counterCapacity p st c) :
    exec i s = .next (s.pointed p st c (s.pushed p st c) (some (s.counter p st c).value)) := by
  have ⟨hat, hc, _⟩ := ready
  exact (exec_push hi s).trans (outcome_pointerOp hat hc (pushCtr_of_room ready room))

theorem exec_ctrPopFifo_of_empty (ready : CounterReady s p st c) (empty : (s.counter p st c).fill = 0) :
    exec (.ctrPopFifo c) s = .next (s.pointed p st c (withUnderflow (s.counter p st c)) none) := by
  obtain ⟨hat, hc, -⟩ := ready
  exact outcome_pointerOp hat hc (popFifo_of_empty empty)

theorem exec_ctrPopFifo_of_filled (ready : CounterReady s p st c) (filled : (s.counter p st c).fill ≠ 0) :
    exec (.ctrPopFifo c) s = .next (s.pointed p st c (s.fifoPopped p st c) (some (s.counter p st c).popValue)) := by
  have ⟨hat, hc, _⟩ := ready
  exact outcome_pointerOp hat hc (popFifo_of_filled ready filled)

theorem exec_ctrPopStack_of_empty (ready : CounterReady s p st c) (empty : (s.counter p st c).fill = 0) :
    exec (.ctrPopStack c) s = .next (s.pointed p st c (withUnderflow (s.counter p st c)) none) := by
  obtain ⟨hat, hc, -⟩ := ready
  exact outcome_pointerOp hat hc (popStack_of_empty empty)

theorem exec_ctrPopStack_of_filled (ready : CounterReady s p st c) (filled : (s.counter p st c).fill ≠ 0) :
    exec (.ctrPopStack c) s = .next (s.pointed p st c (s.stackPopped p st c)
      (some (s.prevValue p st c (s.counter p st c).value))) := by
  have ⟨hat, hc, _⟩ := ready
  exact outcome_pointerOp hat hc (popStack_of_filled ready filled)

/-! ### Pointers in their bounds (R331 to R335) -/

theorem unitBits_dvd_word (ready : CounterReady s p st c) : s.unitBits p st c ∣ 2 ^ 7 := by
  obtain ⟨-, -, -, hshift⟩ := ready
  exact Nat.pow_dvd_pow 2 hshift

theorem unitBits_dvd_page (ready : CounterReady s p st c) (n : Nat) : s.unitBits p st c ∣ n * 2 ^ 17 :=
  ((unitBits_dvd_word ready).trans (Nat.pow_dvd_pow 2 (by decide))).trans (Nat.dvd_mul_left (2 ^ 17) n)

theorem unitBits_dvd_maxValue (ready : CounterReady s p st c) : s.unitBits p st c ∣ s.maxValue p st c :=
  Nat.dvd_sub (unitBits_dvd_page ready _) (Nat.dvd_refl _)

theorem minValue_le_maxValue (ready : CounterReady s p st c) : s.minValue p st c ≤ s.maxValue p st c := by
  have small : s.unitBits p st c ≤ 2 ^ 7 := Nat.le_of_dvd (by decide) (unitBits_dvd_word ready)
  obtain ⟨-, -, hbase, -⟩ := ready
  unfold State.minValue State.maxValue
  omega

/-- A pointer of the counter: inside the bounds, at a whole unit (R331). -/
def PointerInBounds (s : State) (p st c n : Nat) : Prop :=
  s.minValue p st c ≤ n ∧ n ≤ s.maxValue p st c ∧ s.unitBits p st c ∣ n

theorem pointerInBounds_nextValue (ready : CounterReady s p st c) {n : Nat} (h : PointerInBounds s p st c n) :
    PointerInBounds s p st c (s.nextValue p st c n) := by
  obtain ⟨low, -, aligned⟩ := h
  unfold State.nextValue
  split
  · exact ⟨Nat.le_refl _, minValue_le_maxValue ready, unitBits_dvd_page ready _⟩
  · exact ⟨Nat.le_add_right_of_le low,
      next_unit_le aligned (unitBits_dvd_maxValue ready) (Nat.not_le.1 ‹_›), aligned.add (Nat.dvd_refl _)⟩

theorem pointerInBounds_prevValue (ready : CounterReady s p st c) {n : Nat} (h : PointerInBounds s p st c n) :
    PointerInBounds s p st c (s.prevValue p st c n) := by
  obtain ⟨-, high, aligned⟩ := h
  unfold State.prevValue
  split
  · exact ⟨minValue_le_maxValue ready, Nat.le_refl _, unitBits_dvd_maxValue ready⟩
  · have room := next_unit_le (unitBits_dvd_page ready _) aligned (Nat.not_le.1 ‹_›)
    exact ⟨Nat.le_sub_of_add_le room, (Nat.sub_le _ _).trans high, Nat.dvd_sub aligned (Nat.dvd_refl _)⟩

/-- Stepping back undoes stepping on, through the wrap too (R333, R334). -/
theorem prevValue_nextValue {n : Nat} (h : PointerInBounds s p st c n) :
    s.prevValue p st c (s.nextValue p st c n) = n := by
  obtain ⟨low, high, -⟩ := h
  have pos : 0 < s.unitBits p st c := Nat.two_pow_pos _
  unfold State.nextValue
  split
  · exact (if_pos (Nat.le_refl _)).trans (Nat.le_antisymm ‹_› high)
  · exact (if_neg (by omega)).trans (Nat.add_sub_cancel n _)

/-- The counter's pointers and its fill level are inside their bounds (R335). -/
structure CounterLegal (s : State) (p st c : Nat) (v : Counter) : Prop where
  value : PointerInBounds s p st c v.value
  popValue : PointerInBounds s p st c v.popValue
  fill : v.fill ≤ s.counterCapacity p st c

theorem counterLegal_of_inBounds (h : CounterInBounds s p st c) : CounterLegal s p st c (s.counter p st c) := by
  obtain ⟨value, popValue, fill⟩ := h
  exact ⟨value, popValue, fill⟩

theorem counter_pointed (v : Counter) (q : Option Nat) : (s.pointed p st c v q).counter p st c = v :=
  State.counter_putCounter_same s p st c v

theorem counterInBounds_pointed {v : Counter} (q : Option Nat) (h : CounterLegal s p st c v) :
    CounterInBounds (s.pointed p st c v q) p st c := by
  unfold CounterInBounds
  rw [counter_pointed]
  exact ⟨h.value, h.popValue, h.fill⟩

theorem counterLegal_withOverflow {v : Counter} (h : CounterLegal s p st c v) :
    CounterLegal s p st c (withOverflow v) :=
  ⟨h.value, h.popValue, h.fill⟩

theorem counterLegal_withUnderflow {v : Counter} (h : CounterLegal s p st c v) :
    CounterLegal s p st c (withUnderflow v) :=
  ⟨h.value, h.popValue, h.fill⟩

theorem counterLegal_pushed (ready : CounterReady s p st c) (h : CounterLegal s p st c (s.counter p st c))
    (room : (s.counter p st c).fill ≠ s.counterCapacity p st c) : CounterLegal s p st c (s.pushed p st c) :=
  ⟨pointerInBounds_nextValue ready h.value, h.popValue, Nat.lt_of_le_of_ne h.fill room⟩

theorem counterLegal_fifoPopped (ready : CounterReady s p st c) (h : CounterLegal s p st c (s.counter p st c)) :
    CounterLegal s p st c (s.fifoPopped p st c) :=
  ⟨h.value, pointerInBounds_nextValue ready h.popValue, (Nat.sub_le _ _).trans h.fill⟩

theorem counterLegal_stackPopped (ready : CounterReady s p st c) (h : CounterLegal s p st c (s.counter p st c)) :
    CounterLegal s p st c (s.stackPopped p st c) :=
  ⟨pointerInBounds_prevValue ready h.value, h.popValue, (Nat.sub_le _ _).trans h.fill⟩

/-- Every push and every pop answers a pointer or none, and leaves the counter inside its bounds. -/
theorem exec_pointer_legal (ready : CounterReady s p st c) (h : CounterLegal s p st c (s.counter p st c)) {i : Instr}
    (hi : i ∈ [Instr.ctrPushFifo c, .ctrPushStack c, .ctrPopFifo c, .ctrPopStack c]) :
    ∃ v q, exec i s = .next (s.pointed p st c v q) ∧ CounterLegal s p st c v := by
  have push (hp : i ∈ [Instr.ctrPushFifo c, .ctrPushStack c]) :
      ∃ v q, exec i s = .next (s.pointed p st c v q) ∧ CounterLegal s p st c v := by
    by_cases full : (s.counter p st c).fill = s.counterCapacity p st c
    · exact ⟨_, _, exec_push_of_full hp ready full, counterLegal_withOverflow h⟩
    · exact ⟨_, _, exec_push_of_room hp ready full, counterLegal_pushed ready h full⟩
  simp only [List.mem_cons, List.not_mem_nil, or_false] at hi
  rcases hi with rfl | rfl | rfl | rfl
  · exact push (by simp)
  · exact push (by simp)
  · by_cases empty : (s.counter p st c).fill = 0
    · exact ⟨_, _, exec_ctrPopFifo_of_empty ready empty, counterLegal_withUnderflow h⟩
    · exact ⟨_, _, exec_ctrPopFifo_of_filled ready empty, counterLegal_fifoPopped ready h⟩
  · by_cases empty : (s.counter p st c).fill = 0
    · exact ⟨_, _, exec_ctrPopStack_of_empty ready empty, counterLegal_withUnderflow h⟩
    · exact ⟨_, _, exec_ctrPopStack_of_filled ready empty, counterLegal_stackPopped ready h⟩

end

/-- Settles O38: each row is its push or its pop as a function of the counter, at full and empty and between. -/
theorem pushAndPopMoveThePointers : Obligations.PushAndPopMoveThePointers := by
  intro s p st c ready
  exact ⟨fun i hi => ⟨exec_push_of_full hi ready, exec_push_of_room hi ready⟩, exec_ctrPopFifo_of_empty ready,
    exec_ctrPopFifo_of_filled ready, exec_ctrPopStack_of_empty ready, exec_ctrPopStack_of_filled ready⟩

/-- Settles O39: the bounds are closed under both steps of a pointer, and the step back undoes the step on. -/
theorem countersStayInBounds : Obligations.CountersStayInBounds := by
  intro s p st c ready inBounds
  have legal := counterLegal_of_inBounds inBounds
  refine ⟨fun i hi => ?_, fun room => ?_⟩
  · obtain ⟨v, q, answer, kept⟩ := exec_pointer_legal ready legal hi
    exact ⟨_, answer, counterInBounds_pointed q kept, rfl,
      fun _ _ _ hne => (State.counter_putCounter _ _ _ _ _ _ _ _).trans (if_neg hne)⟩
  · let t := s.pointed p st c (s.pushed p st c) (some (s.counter p st c).value)
    have back : t.prevValue p st c (t.counter p st c).value = (s.counter p st c).value := by
      rw [counter_pointed]
      exact prevValue_nextValue legal.value
    have popped := exec_ctrPopStack_of_filled (s := t) (p := p) (st := st) (c := c) ready
      (by rw [counter_pointed]; exact Nat.succ_ne_zero _)
    refine ⟨t, _, exec_push_of_room (by simp) ready room, popped, rfl, ?_, ?_, ?_⟩
    · exact congrArg (fun n => Ret.pointer (some n)) back
    · rw [counter_pointed]
      exact back
    · rw [counter_pointed, State.stackPopped, counter_pointed]
      rfl

end Sys2Proof.Machine
end

section
/-! PROOF. One step of a clear, wherever its word lies in the RAM (R346). -/

namespace Sys2Proof.Machine

section
variable {s : State} {p st c : Nat}

/-- The step of a counter whose pointer names a word of the RAM: the counter as the step begins is stored, the unit at
its pointer is zeroed, and the counter moved on is stored. -/
theorem clearStep_of_inRange (hbase : s.field .vpnBase [p, st, c] ≤ s.field .vpnLimit [p, st, c]) {v : Counter}
    (begun : v = clearBegun (boundsAt s p st c) (s.counter p st c))
    (inRange : ramInRange s.params (saluAddr p st c (ptrWord v.clearPtr)) = true) :
    clearStep p st c s = .ok () (((s.putCounter p st c v).setMem
      (zeroUnit p st c (boundsAt s p st c) v.clearPtr s.mem)).putCounter p st c (clearMoved (boundsAt s p st c) v)) := by
  have first : (if hasFlag (s.counter p st c).flags flStartPending = true
      then emptied (boundsAt s p st c) (s.counter p st c) else s.counter p st c) = v := by
    rw [begun, clearBegun, hasFlag_start]
  unfold clearStep clearMoved
  rw [bind_of_ok _ _ (readBounds_of_le hbase), counterOf_bind]
  simp only [first]
  rw [putCtr_bind, bind_of_ok _ _ (memRead_of_inRange (by exact inRange)),
    bind_of_ok _ _ (memWrite_of_inRange _ (by exact inRange))]
  split <;> rfl

end

/-- Settles O41: the step's three writes, the zeroed unit read bit by bit. -/
theorem clearStepZeroesOneUnit : Obligations.ClearStepZeroesOneUnit := by
  intro s p st c ready hsalu v v1 addr unit off hword
  obtain ⟨hat, hc, hbase, -⟩ := ready
  have step := clearStep_of_inRange hbase (v := v1) rfl (saluWord_inRange hat hsalu hword)
  have outside (i : Nat) : (i < off ∨ off + unit ≤ i) ↔ ¬ (off ≤ i ∧ i < off + unit) := by omega
  refine ⟨wordSet (s.mem.read addr) 0 off unit, fun i => ?_, outcome_counterOp hat hc step⟩
  rw [Bool.eq_iff_iff, getLsbD_wordSet_zero, Bool.and_eq_true, decide_eq_true_iff, outside, and_comm]

end Sys2Proof.Machine
end

section
/-! SUPPORT. What the turns of a stage neither read nor write: the buses of the rows, the snapshot units, the spinlocks,
the site, the PHV, the input data and the last answer. A sequence of statements that ignores them does the same inside a
stage cycle as alone (R122, R540). -/

namespace Sys2Proof.Machine

/-! ### The surroundings of a turn -/

/-- The parts of the state that no turn of a counter or an ALU reads or writes. -/
structure Surroundings where
  row : RowState
  snap : Store SnapUnit
  spin : Store Bool
  site : Site
  phv : Phv
  aluData : Word
  result : Ret

/-- The surroundings in a state. -/
def State.surroundings (s : State) : Surroundings where
  row := s.row
  snap := s.snap
  spin := s.ctr.spin
  site := s.act.site
  phv := s.act.phv
  aluData := s.act.aluData
  result := s.result

/-- The state with these surroundings in place of its own. -/
def State.within (s : State) (x : Surroundings) : State :=
  { s with row := x.row, snap := x.snap, ctr := { s.ctr with spin := x.spin },
           act := { s.act with site := x.site, phv := x.phv, aluData := x.aluData }, result := x.result }

/-- What a turn keeps besides: the launch record, the configuration, and whether the stage is in its cycle. -/
structure SameSetting (s t : State) : Prop where
  params : t.params = s.params
  cfg : t.cfg = s.cfg
  inCycle : t.act.inCycle = s.act.inCycle

theorem SameSetting.refl (s : State) : SameSetting s s := ⟨rfl, rfl, rfl⟩

theorem SameSetting.trans {a s t : State} (h : SameSetting a s) (h' : SameSetting s t) : SameSetting a t :=
  ⟨h'.params.trans h.params, h'.cfg.trans h.cfg, h'.inCycle.trans h.inCycle⟩

/-- How a sequence ends, in other surroundings. -/
def endWithin {α : Type} (x : Surroundings) : EStateM.Result Stop State α → EStateM.Result Stop State α
  | .ok a t => .ok a (t.within x)
  | .error e t => .error e (t.within x)

/-- The state in which a sequence ends. -/
def endState {α : Type} : EStateM.Result Stop State α → State
  | .ok _ t => t
  | .error _ t => t

/-- In whatever surroundings it begins, the sequence does the same and leaves them as they are. -/
def Blind {α : Type} (m : M α) : Prop :=
  ∀ s x, m (s.within x) = endWithin x (m s) ∧ SameSetting s (endState (m s))

section
variable {α β : Type}

theorem Blind.ok {m : M α} (h : Blind m) {s t : State} {a : α} (e : m s = .ok a t) (x : Surroundings) :
    m (s.within x) = .ok a (t.within x) ∧ SameSetting s t := by
  have both := h s x
  rw [e] at both
  exact both

theorem blind_pure (a : α) : Blind (pure a : M α) := fun s _ => ⟨rfl, .refl s⟩

theorem blind_refuse (r : Refusal) : Blind (refuse r : M α) := fun s _ => ⟨rfl, .refl s⟩

theorem blind_change {f : State → State} (h : ∀ s x, f (s.within x) = (f s).within x ∧ SameSetting s (f s)) :
    Blind (change f) :=
  fun s x => ⟨congrArg (EStateM.Result.ok ()) (h s x).1, (h s x).2⟩

theorem Blind.bind {m : M α} {k : α → M β} (h : Blind m) (hk : ∀ a, Blind (k a)) : Blind (m >>= k) := by
  intro s x
  obtain ⟨same, setting⟩ := h s x
  rw [bind_apply, bind_apply, same]
  cases e : m s with
  | ok a t =>
    rw [e] at setting
    exact ⟨(hk a t x).1, setting.trans (hk a t x).2⟩
  | error z t =>
    rw [e] at setting
    exact ⟨rfl, setting⟩

/-- The state that is read may differ in its surroundings, if what follows does not. -/
theorem blind_look_bind {f : State → α} {k : α → M β} (same : ∀ s x, k (f (s.within x)) = k (f s))
    (hk : ∀ s, Blind (k (f s))) : Blind (look f >>= k) := by
  intro s x
  rw [look_bind, look_bind, same]
  exact hk s s x

theorem Blind.ite {c : Prop} [Decidable c] {m n : M α} (h : Blind m) (h' : Blind n) : Blind (if c then m else n) := by
  split <;> assumption

theorem blind_forEach {f : α → M Unit} (h : ∀ a, Blind (f a)) : ∀ l, Blind (forEach l f)
  | [] => blind_pure ()
  | a :: as => (h a).bind fun _ => blind_forEach h as

theorem blind_change_bind {f : State → State} {k : Unit → M α}
    (h : ∀ s x, f (s.within x) = (f s).within x ∧ SameSetting s (f s)) (hk : ∀ u, Blind (k u)) :
    Blind (change f >>= k) :=
  (blind_change h).bind hk

theorem blind_need (v : Option α) : Blind (need v) := by
  cases v
  · exact blind_refuse _
  · exact blind_pure _

/-! ### Errors and the RAM spaces (R71, R473, R490) -/

theorem State.enterFault_within (s : State) (r : ErrRec) (x : Surroundings) :
    (s.within x).enterFault r = (s.enterFault r).within x ∧ SameSetting s (s.enterFault r) := by
  cases e : s.err.faulted with
  | none =>
    rw [State.enterFault_of_none (s := s.within x) r e, State.enterFault_of_none r e]
    exact ⟨rfl, rfl, rfl, rfl⟩
  | some r' =>
    rw [State.enterFault_of_some (s := s.within x) r e, State.enterFault_of_some r e]
    exact ⟨rfl, .refl s⟩

theorem blind_raise (place : Option (Nat × Nat)) (e : Err) : Blind (raise place e) := by
  intro s x
  cases relaxed : fatal s.strict e
  · rw [raise_of_relaxed (s := s.within x) place relaxed, raise_of_relaxed place relaxed]
    exact ⟨rfl, rfl, rfl, rfl⟩
  · rw [raise_of_fatal (s := s.within x) place relaxed, raise_of_fatal place relaxed]
    obtain ⟨same, params, cfg, inCycle⟩ :=
      State.enterFault_within (s.logError (errRecord s place e)) (errRecord s place e) x
    exact ⟨congrArg (EStateM.Result.error Stop.faulted) same, params, cfg, inCycle⟩

theorem blind_raise_pure (place : Option (Nat × Nat)) (e : Err) (a : α) :
    Blind (raise place e >>= fun _ => (pure a : M α)) :=
  (blind_raise place e).bind fun _ => blind_pure a

theorem blind_memRead (a : RamAddr) : Blind (memRead a) :=
  blind_look_bind (fun _ _ => rfl) fun _ => .ite (blind_pure _) (blind_raise_pure _ _ _)

theorem blind_memWrite (a : RamAddr) (w : Word) : Blind (memWrite a w) :=
  blind_look_bind (fun _ _ => rfl) fun _ => .ite (blind_change fun _ _ => ⟨rfl, rfl, rfl, rfl⟩) (blind_raise _ _)

end

/-! ### The stats ALU -/

theorem blind_statsValidate (p st a sub : Nat) (sa : BitVec 24) : Blind (statsValidate p st a sub sa) :=
  blind_look_bind (fun _ _ => rfl) fun _ => .ite (blind_raise_pure _ _ _)
    (.ite (blind_raise_pure _ _ _) (blind_pure _))

theorem blind_lrt (p st a : Nat) (f : StatsFormat) (entry : BitVec 20) (pkt byt : Nat) :
    Blind (lrt p st a f entry pkt byt) :=
  blind_look_bind (fun _ _ => rfl) fun _ =>
    .ite (blind_change_bind (fun _ _ => ⟨rfl, rfl, rfl, rfl⟩) fun _ => blind_pure _) (blind_pure _)

theorem blind_statsCount (p st a : Nat) (f : StatsFormat) (sa : SaFields) (word : Word) (pktlen : Nat) :
    Blind (statsCount p st a f sa word pktlen) := by
  refine blind_look_bind (fun _ _ => rfl) fun s => ?_
  have shadow : Blind (if s.flag .fullResEnable [p, st, a] then
      change (shadowUpdate p st a sa.word.toNat sa.subword.toNat
        (byteIncrement (s.field .byteAdjust [p, st, a]) pktlen)) else pure ()) :=
    .ite (blind_change fun _ _ => ⟨rfl, rfl, rfl, rfl⟩) (blind_pure _)
  exact .ite ((blind_lrt _ _ _ _ _ _ _).bind fun _ => (blind_memWrite _ _).bind fun _ => shadow) shadow

theorem blind_readData (p st : Nat) (kind : AluKind) (a : Nat) (w : Word) : Blind (readData p st kind a w) :=
  blind_change_bind (fun _ _ => ⟨rfl, rfl, rfl, rfl⟩) fun _ => blind_pure _

theorem blind_statsRun (p st a : Nat) (op : StatsOp) (sa : SaFields) (pktlen : Nat) :
    Blind (statsRun p st a op sa pktlen) := by
  cases op
  case nop => exact blind_pure _
  all_goals
    refine (blind_statsValidate _ _ _ _ _).bind fun fmt => ?_
    cases fmt
    case none => exact blind_pure _
    refine (blind_memRead _).bind fun word => ?_
  case stats => exact (blind_statsCount _ _ _ _ _ _ _).bind fun _ => blind_pure _
  case cfgRd => exact blind_readData _ _ _ _ _
  case cfgRdclr => exact Blind.bind (.ite (blind_memWrite _ _) (blind_pure _)) fun _ => blind_readData _ _ _ _ _

theorem blind_statsAddress (p st a : Nat) (raw : BitVec 24) (pktlen : Nat) :
    Blind (statsAddress p st a raw pktlen) := by
  unfold statsAddress
  split
  · exact blind_refuse _
  · exact blind_statsRun _ _ _ _ _ _

/-! ### The stateful ALU -/

theorem blind_runOf_bind {α : Type} (p st a : Nat) {k : SaluRun → M α} (hk : ∀ r, Blind (k r)) :
    Blind (runOf p st a >>= k) :=
  blind_look_bind (fun _ _ => rfl) fun _ => hk _

theorem blind_putRun (p st a : Nat) (r : SaluRun) : Blind (putRun p st a r) :=
  blind_change fun _ _ => ⟨rfl, rfl, rfl, rfl⟩

theorem blind_putRun_pure {α : Type} (p st a : Nat) (r : SaluRun) (v : α) :
    Blind (putRun p st a r >>= fun _ => pure v) :=
  (blind_putRun p st a r).bind fun _ => blind_pure v

theorem blind_compareOfWord (p st a : Nat) (unit : CmpUnit) (w : Nat) : Blind (compareOfWord p st a unit w) := by
  have unitBlind (op : CmpOp) (c : CmpFields) : Blind (compareUnit p st a op c) :=
    blind_runOf_bind _ _ _ fun _ => (blind_need _).bind fun _ => blind_putRun_pure _ _ _ _ _
  exact (blind_need _).bind fun _ => (unitBlind _ _).bind fun _ => blind_pure _

theorem blind_arithUnit (p st a : Nat) (op : ArithOp) (half : Half) (r : SaluRun) (x y : Nat) :
    Blind (arithUnit p st a op half r x y) := by
  have paired (op : ArithOp) : Blind (pairedCarry p st a op half r) := .ite (blind_pure _) (blind_raise_pure _ _ _)
  cases op
  case addc | subc =>
    exact blind_look_bind (fun _ _ => rfl) fun _ => .ite (blind_refuse _)
      ((paired _).bind fun _ => blind_putRun_pure _ _ _ _ _)
  all_goals exact blind_putRun_pure _ _ _ _ _

theorem blind_idleUnit (p st a : Nat) (half : Half) (r : SaluRun) : Blind (idleUnit p st a half r) :=
  blind_putRun_pure _ _ _ _ _

/-- A unit reads its two operands where its predicate holds, and idles elsewhere. -/
theorem blind_unit {p st a : Nat} {u : AuFields} {run : SaluRun → Nat → Nat → M Nat}
    (h : ∀ r x y, Blind (run r x y)) : Blind (runOf p st a >>= fun r =>
      if predicate u.pred r.p0 r.p1 then
        need (operand r u.srcA) >>= fun x => need (operand r u.srcB) >>= fun y => run r x y
      else idleUnit p st a u.half r) :=
  blind_runOf_bind _ _ _ fun _ => .ite
    ((blind_need _).bind fun _ => (blind_need _).bind fun _ => h _ _ _) (blind_idleUnit _ _ _ _ _)

theorem blind_unitOfWord (p st a : Nat) (half : Half) (w : Nat) : Blind (unitOfWord p st a half w) := by
  refine .ite ?_ (blind_unit fun _ _ _ => blind_putRun_pure _ _ _ _ _)
  split
  · exact blind_unit fun _ _ _ => blind_arithUnit _ _ _ _ _ _ _ _
  · exact blind_runOf_bind _ _ _ fun _ => .ite (blind_refuse _) (blind_idleUnit _ _ _ _ _)

theorem blind_dualUnits (p st a : Nat) : Blind (dualUnits p st a) :=
  blind_runOf_bind _ _ _ fun _ => (blind_putRun _ _ _ _).bind fun _ => (blind_unitOfWord _ _ _ _ _).bind fun _ =>
    (blind_unitOfWord _ _ _ _ _).bind fun _ => blind_pure _

theorem blind_divideIfEnabled (p st a : Nat) (m : MiscFields) : Blind (divideIfEnabled p st a m) := by
  have divides (x y : BitVec 3) : Blind (divide p st a x y) :=
    blind_runOf_bind _ _ _ fun _ => (blind_need _).bind fun _ => (blind_need _).bind fun _ =>
      blind_putRun_pure _ _ _ _ _
  exact .ite ((divides _ _).bind fun _ => blind_pure _) (blind_pure _)

theorem blind_minMaxConfigured (p st a : Nat) : Blind (minMaxConfigured p st a) := by
  refine blind_look_bind (fun _ _ => rfl) fun _ => .ite (blind_refuse _) (blind_runOf_bind _ _ _ fun r => ?_)
  split
  · exact blind_putRun_pure _ _ _ _ _
  · exact (blind_need _).bind fun _ => blind_putRun_pure _ _ _ _ _

theorem blind_setWidth (p st a : Nat) (m : MiscFields) : Blind (setWidth p st a m) :=
  (blind_need _).bind fun _ => blind_runOf_bind _ _ _ fun _ => blind_putRun _ _ _ _

theorem blind_miscOfWord (p st a w : Nat) : Blind (miscOfWord p st a w) := by
  refine (blind_need _).bind fun mode => ?_
  cases mode
  case dual =>
    exact (blind_setWidth _ _ _ _).bind fun _ => (blind_dualUnits _ _ _).bind fun _ => blind_divideIfEnabled _ _ _ _
  case onebit =>
    have oneBitBlind (op : BitOp) : Blind (oneBit p st a op) :=
      blind_runOf_bind _ _ _ fun _ => blind_putRun_pure _ _ _ _ _
    exact (blind_need _).bind fun _ => ((blind_setWidth _ _ _ _).bind fun _ => (oneBitBlind _).bind fun _ =>
      (blind_divideIfEnabled _ _ _ _).bind fun _ => blind_pure _).bind fun _ => blind_pure _
  case minmax =>
    exact ((blind_setWidth _ _ _ _).bind fun _ => (blind_minMaxConfigured _ _ _).bind fun _ =>
      (blind_divideIfEnabled _ _ _ _).bind fun _ => blind_pure _).bind fun _ => blind_pure _

theorem blind_outputSelect (p st a : Nat) (sel : OutSel) (o : OutFields) : Blind (outputSelect p st a sel o) := by
  refine blind_runOf_bind _ _ _ fun r => .bind (.ite ?_ (blind_pure _)) fun _ => blind_putRun_pure _ _ _ _ _
  split
  · exact blind_pure _
  · exact blind_raise_pure _ _ _

theorem blind_outputOfWord (p st a w : Nat) : Blind (outputOfWord p st a w) := by
  refine blind_runOf_bind _ _ _ fun r => ?_
  split
  · exact blind_outputSelect _ _ _ _ _
  · exact .ite (blind_refuse _) (blind_outputSelect _ _ _ _ _)

theorem blind_saluExecute (p st a : Nat) (ma : MaFields) (data : Word) (t : Nat) (s0 s1 : Bool) :
    Blind (saluExecute p st a ma data t s0 s1) :=
  blind_look_bind (fun _ _ => rfl) fun _ => .ite (blind_refuse _) <|
    (blind_need _).bind fun _ =>
    blind_change_bind (fun _ _ => ⟨rfl, rfl, rfl, rfl⟩) fun _ =>
    (blind_memRead _).bind fun _ =>
    (blind_putRun _ _ _ _).bind fun _ =>
    (blind_compareOfWord _ _ _ _ _).bind fun _ =>
    (blind_compareOfWord _ _ _ _ _).bind fun _ =>
    (blind_miscOfWord _ _ _ _).bind fun _ =>
    (blind_outputOfWord _ _ _ _).bind fun _ =>
    blind_runOf_bind _ _ _ fun _ =>
    (blind_memWrite _ _).bind fun _ =>
    blind_change_bind (fun _ _ => ⟨rfl, rfl, rfl, rfl⟩) fun _ => blind_pure _

theorem blind_maRead (p st : Nat) (kind : AluKind) (a : Nat) (ma : MaFields) : Blind (maRead p st kind a ma) :=
  (blind_memRead _).bind fun _ => blind_readData _ _ _ _ _

/-! ### The selector ALU -/

theorem blind_fairIndex (p st a pv hash52 : Nat) : Blind (fairIndex p st a pv hash52) := by
  have answer (n sel i : Nat) : Blind (if n = 0 then pure noMember else if sel < 3 then (pure i : M Nat)
      else refuse (.illegalConfig .fairBucketSel)) :=
    .ite (blind_pure _) (.ite (blind_pure _) (blind_refuse _))
  exact blind_look_bind (fun _ _ => rfl) fun _ => .ite ((blind_raise _ _).bind fun _ => answer _ _ _) (answer _ _ _)

theorem blind_selRun (p st a : Nat) (ma : MaFields) (data : Word) (t : Nat) : Blind (selRun p st a ma data t) := by
  have select (pv hash52 : Nat) : Blind (selectMember p st a pv hash52) :=
    blind_look_bind (fun _ _ => rfl) fun _ => .ite (.ite (blind_pure _) (blind_pure _)) (blind_fairIndex _ _ _ _ _)
  exact (blind_memRead _).bind fun _ => blind_look_bind (fun _ _ => rfl) fun _ =>
    blind_change_bind (fun _ _ => ⟨rfl, rfl, rfl, rfl⟩) fun _ => (select _ _).bind fun _ => blind_pure _

/-! ### The counters -/

theorem blind_readBounds (p st c : Nat) : Blind (readBounds p st c) :=
  blind_look_bind (fun _ _ => rfl) fun _ => .ite (blind_pure _) (blind_refuse _)

theorem blind_putCtr_pure {α : Type} (p st c : Nat) (v : Counter) (a : α) :
    Blind (putCtr p st c v >>= fun _ => pure a) :=
  blind_change_bind (fun _ _ => ⟨rfl, rfl, rfl, rfl⟩) fun _ => blind_pure a

theorem blind_pushCtr (p st c : Nat) : Blind (pushCtr p st c) :=
  (blind_readBounds _ _ _).bind fun _ => blind_look_bind (fun _ _ => rfl) fun _ =>
    .ite (blind_putCtr_pure _ _ _ _ _) (blind_look_bind (fun _ _ => rfl) fun _ => blind_putCtr_pure _ _ _ _ _)

theorem blind_popFifo (p st c : Nat) : Blind (popFifo p st c) :=
  blind_look_bind (fun _ _ => rfl) fun _ => .ite (blind_putCtr_pure _ _ _ _ _) <|
    (blind_readBounds _ _ _).bind fun _ => blind_look_bind (fun _ _ => rfl) fun _ => blind_putCtr_pure _ _ _ _ _

theorem blind_popStack (p st c : Nat) : Blind (popStack p st c) :=
  blind_look_bind (fun _ _ => rfl) fun _ => .ite (blind_putCtr_pure _ _ _ _ _) <|
    (blind_readBounds _ _ _).bind fun _ => blind_look_bind (fun _ _ => rfl) fun _ => blind_putCtr_pure _ _ _ _ _

/-! ### The tEOP buses -/

theorem blind_outputAddr (p st lt alu : Nat) (addr : BitVec 32) (isStats : Bool) :
    Blind (outputAddr p st lt alu addr isStats) := by
  have check (b : Nat) : Blind (checkTeopDelay p st lt b) :=
    blind_look_bind (fun _ _ => rfl) fun _ => .ite (blind_raise _ _) (blind_pure _)
  have bus (b : Nat) : Blind (outputOnBus p st lt alu addr isStats b) :=
    blind_look_bind (fun _ _ => rfl) fun _ => .ite (blind_raise _ _)
      (blind_change_bind (fun _ _ => ⟨rfl, rfl, rfl, rfl⟩) fun _ => check b)
  exact blind_look_bind (fun _ _ => rfl) fun _ => blind_forEach bus _

theorem blind_consumeAll (p st : Nat) : Blind (consumeAll p st) := by
  have bus (b : Nat) : Blind (consumeBus p st b) :=
    blind_look_bind (fun _ _ => rfl) fun _ => .ite
      (.ite
        (.ite (blind_pure _) ((blind_forEach (fun _ => (blind_statsAddress _ _ _ _ _).bind fun _ => blind_pure _) _).bind
          fun _ => blind_change fun _ _ => ⟨rfl, rfl, rfl, rfl⟩))
        (.ite (blind_pure _) (blind_refuse _)))
      (blind_pure _)
  exact blind_look_bind (fun _ _ => rfl) fun _ => blind_forEach bus _

end Sys2Proof.Machine
end

section
/-! SUPPORT. The turns of a counter, a selector ALU, a stateful ALU and a stats ALU: what the row does alone, the same
step of the stage cycle does in its turn (R340, R540, R541, R543). -/

namespace Sys2Proof.Machine

/-- The state with its stage in its cycle. -/
def State.cycling (s : State) : State := s.setAct { s.act with inCycle := true }

/-- The launch record and the configuration are the same. -/
structure SameConfig (s t : State) : Prop where
  params : t.params = s.params
  cfg : t.cfg = s.cfg

theorem SameConfig.refl (s : State) : SameConfig s s := ⟨rfl, rfl⟩

theorem SameConfig.trans {a s t : State} (h : SameConfig a s) (h' : SameConfig s t) : SameConfig a t :=
  ⟨h'.params.trans h.params, h'.cfg.trans h.cfg⟩

theorem outcome_congr {m m' : M Ret} {s : State} (h : m s = m' s) : outcome m s = outcome m' s := by
  rw [outcome, outcome, h]

section
variable {s t u : State} {p st a : Nat} {data : Word} {o : AluOut} {x : Surroundings}

theorem State.cycling_of_inCycle (h : t.act.inCycle = true) : t.cycling = t := by
  have act : { t.act with inCycle := true } = t.act := by rw [← h]
  rw [State.cycling, act, State.setAct_self]

/-- A blind sequence does in its turn of the cycle what it does alone. -/
theorem Blind.at_turn {α : Type} {m : M α} (blind : Blind m) {v : α} (e : m (s.inTurn p st a data) = .ok v t) (r : Ret) :
    m (s.cycling.within x) = .ok v ((t.setResult r).cycling.within x) ∧ SameConfig s (t.setResult r) := by
  obtain ⟨same, params, cfg, inCycle⟩ := blind.ok e x
  have left : (t.setResult r).cycling.within x = t.cycling.within x := rfl
  rw [left, State.cycling_of_inCycle inCycle]
  exact ⟨same, params, cfg⟩

/-! ### The rows of the ALUs at their site -/

theorem atStage_inTurn (hp : p < s.params.numPipes) (hst : st < s.params.numStages) :
    AtStage (s.inTurn p st a data) p st := ⟨rfl, rfl, hp, hst⟩

/-- A row that runs to its end: its call does the same in the turn of the cycle. -/
theorem call_of_row {α : Type} {m : M Ret} {call : M α} {answer : α → Ret}
    (row : m (s.inTurn p st a data) = (call >>= fun v => pure (answer v)) (s.inTurn p st a data))
    (next : outcome m (s.inTurn p st a data) = .next u)
    (ran : call (s.inTurn p st a data) ≠ .error .faulted u) (blind : Blind call) :
    ∃ v, u.result = answer v ∧ call (s.cycling.within x) = .ok v (u.cycling.within x) ∧ SameConfig s u := by
  rw [outcome_congr row] at next
  rcases outcome_eq_next.1 next with ⟨r, t, e, rfl⟩ | stopped
  · obtain ⟨v, t', called, e'⟩ := (bind_eq_ok _).1 e
    obtain ⟨rfl, rfl⟩ := EStateM.Result.ok.inj e'
    exact ⟨v, rfl, blind.at_turn called _⟩
  · rw [bind_apply] at stopped
    split at stopped
    · cases stopped
    · rename_i e
      cases stopped
      exact absurd e ran

/-- A machine that still runs has not taken the fault entry. -/
theorem ran_of_running {α : Type} {m : M α} (framed : Framed m) (running : Running u) : m s ≠ .error .faulted u :=
  fun stopped => absurd running ((framed s).faulted (.refl s) stopped).2

/-- A row that answers an ALU output in a machine that runs. -/
theorem alu_call_of_row {m : M Ret} {call : M AluOut}
    (row : m (s.inTurn p st a data) = (call >>= fun o => pure (.alu o)) (s.inTurn p st a data))
    (next : outcome m (s.inTurn p st a data) = .next u) (answer : u.result = .alu o) (running : Running u)
    (framed : Framed call) (blind : Blind call) :
    call (s.cycling.within x) = .ok o (u.cycling.within x) ∧ SameConfig s u := by
  obtain ⟨v, answered, same⟩ := call_of_row (x := x) row next (ran_of_running framed running) blind
  obtain rfl := Ret.alu.inj (answered.symm.trans answer)
  exact same

/-- An address that runs nothing leaves the turn as it began. -/
theorem alu_idle_in_turn {i : Instr} (idle : (∃ r, i = .maDisabled r) ∨ ∃ f, i = .maNop f)
    (next : exec i (s.inTurn p st a data) = .next u) (answer : u.result = .alu o) :
    o = .none ∧ u.cycling.within x = s.cycling.within x ∧ SameConfig s u := by
  have pureRow : exec i (s.inTurn p st a data)
      = outcome (atSalu (fun _ _ _ => pure (.alu .none))) (s.inTurn p st a data) := by
    rcases idle with ⟨r, rfl⟩ | ⟨f, rfl⟩ <;> rfl
  rw [pureRow, outcome_eq_next, atSalu, look_bind] at next
  split at next
  · rcases next with ⟨r, t, e, rfl⟩ | stopped
    · obtain ⟨rfl, rfl⟩ := EStateM.Result.ok.inj e
      exact ⟨(Ret.alu.inj answer).symm, rfl, rfl, rfl⟩
    · cases stopped
  · rcases next with ⟨r, t, e, -⟩ | stopped
    · cases e
    · cases stopped

/-! ### A raw address as the row it decodes to (R106, R120, R541) -/

/-- An address that decodes is received with the code and the fields of its row. -/
theorem maParse_of_decodeMa {w : Nat} {i : Instr} (h : decodeMa w = .ok i) :
    (maParse w = .ok none ∧ ∃ r, i = .maDisabled r) ∨
    (maParse w = .ok (some (0, maFields w)) ∧ i = .maNop (maFields w)) ∨
    (maParse w = .ok (some (1, maFields w)) ∧ i = .saluExec (maFields w)) ∨
    (maParse w = .ok (some (2, maFields w)) ∧ i = .selExec (maFields w)) ∨
    (maParse w = .ok (some (3, maFields w)) ∧ i = .maCfgRd (maFields w)) := by
  unfold decodeMa at h
  unfold maParse
  cases enabled : wordBit w 31
  · rw [enabled] at h
    exact .inl ⟨rfl, _, (Except.ok.inj h).symm⟩
  · rw [enabled, if_pos rfl] at h
    split at h
    · cases h
    · rename_i clear
      rw [if_neg (by decide), if_neg clear]
      split at h
      · rename_i code
        exact .inr (.inl ⟨by rw [code]; rfl, (Except.ok.inj h).symm⟩)
      · rename_i code
        exact .inr (.inr (.inl ⟨by rw [code]; rfl, (Except.ok.inj h).symm⟩))
      · rename_i code
        exact .inr (.inr (.inr (.inl ⟨by rw [code]; rfl, (Except.ok.inj h).symm⟩)))
      · rename_i code
        exact .inr (.inr (.inr (.inr ⟨by rw [code]; rfl, (Except.ok.inj h).symm⟩)))
      · cases h

theorem receive_of_maParse {raw : BitVec 32} {v : Option (Nat × MaFields)} (h : maParse raw.toNat = .ok v) (s : State) :
    receive raw s = .ok v s := by
  rw [receive, h]

theorem maParse_of_disabled {raw : BitVec 32} (h : raw.getLsbD 31 = false) : maParse raw.toNat = .ok none := by
  have clear : wordBit raw.toNat 31 = false := by rw [wordBit_eq_testBit]; exact h
  rw [maParse, clear]
  rfl

/-! ### The selector ALU (R238) -/

theorem runSelector_of_disabled {raw : BitVec 32} (h : raw.getLsbD 31 = false) (s : State) :
    runSelector p st a raw s = .ok .none s := by
  rw [runSelector, bind_of_ok _ _ (receive_of_maParse (maParse_of_disabled h) s)]
  rfl

theorem selector_in_turn (hp : p < s.params.numPipes) (hst : st < s.params.numStages) (ha : a < s.params.numSelAlu)
    {raw : BitVec 32} (other : ∀ f, decodeMa raw.toNat ≠ .ok (.saluExec f) ∧ decodeMa raw.toNat ≠ .ok (.maCfgRd f))
    (input : aluInput (s.cycling.within x) p st .sel a = data) (turn : AluTurn s u p st a data (decodeMa raw.toNat) o) :
    runSelector p st a raw (s.cycling.within x) = .ok o (u.cycling.within x) ∧ SameConfig s u := by
  obtain ⟨i, decoded, next, answer, running⟩ := turn
  rcases maParse_of_decodeMa decoded with ⟨parsed, r, rfl⟩ | ⟨parsed, rfl⟩ | ⟨-, rfl⟩ | ⟨parsed, rfl⟩ | ⟨-, rfl⟩
  · obtain ⟨rfl, same, config⟩ := alu_idle_in_turn (x := x) (.inl ⟨r, rfl⟩) next answer
    rw [same, runSelector, bind_of_ok _ _ (receive_of_maParse parsed _)]
    exact ⟨rfl, config⟩
  · obtain ⟨rfl, same, config⟩ := alu_idle_in_turn (x := x) (.inr ⟨_, rfl⟩) next answer
    rw [same, runSelector, bind_of_ok _ _ (receive_of_maParse parsed _)]
    exact ⟨rfl, config⟩
  · exact absurd decoded (other _).1
  · rw [runSelector, bind_of_ok _ _ (receive_of_maParse parsed _)]
    simp only [if_true, look_bind, id, input]
    exact alu_call_of_row (atSel_apply ⟨atStage_inTurn hp hst, rfl, ha⟩ _) next answer running
      (framed_selRun _ _ _ _ _ _) (blind_selRun _ _ _ _ _ _)
  · exact absurd decoded (other _).2

/-! ### The stateful ALU (R252, R274) -/

theorem runStateful_of_disabled {raw : BitVec 32} (h : raw.getLsbD 31 = false) (raws : List (Bool × Bool)) (s : State) :
    runStateful p st a raws raw s = .ok .none s := by
  rw [runStateful, bind_of_ok _ _ (receive_of_maParse (maParse_of_disabled h) s)]
  rfl

/-- The sbus of an ALU reads the raw results of the others alone. -/
theorem sbusBit_congr {n mask i : Nat} {comb : Bool} {raw raw' : Nat → Bool} (h : ∀ j, j ≠ i → raw j = raw' j) :
    sbusBit n comb mask i raw = sbusBit n comb mask i raw' := by
  have mapped : ((List.range n).filter (fun j => mask.testBit j && j != i)).map raw
      = ((List.range n).filter (fun j => mask.testBit j && j != i)).map raw' := by
    refine List.map_congr_left fun j hj => h j (bne_iff_ne.1 ?_)
    exact ((Bool.and_eq_true _ _).mp (List.mem_filter.1 hj).2).2
  have all := congrArg (List.all · id) mapped
  have any := congrArg (List.any · id) mapped
  simp only [List.all_map, List.any_map, Function.id_comp] at all any
  simp only [sbusBit, all, any]

/-- Where no other ALU of the stage executes, the sbus is the one of an execution alone. -/
theorem sbusOf_of_others_idle {raws : List (Bool × Bool)} (h : ∀ j, j ≠ a → raws.getD j (false, false) = (false, false))
    (s : State) : sbusOf s p st a raws = sbusOf s p st a [] := by
  have alone (j : Nat) (hj : j ≠ a) : raws.getD j (false, false) = [].getD j (false, false) := h j hj
  simp only [sbusOf]
  rw [sbusBit_congr fun j hj => congrArg Prod.fst (alone j hj), sbusBit_congr fun j hj => congrArg Prod.snd (alone j hj)]

theorem stateful_in_turn (hp : p < s.params.numPipes) (hst : st < s.params.numStages) (ha : a < s.params.numSalu)
    {raw : BitVec 32} (other : ∀ f, decodeMa raw.toNat ≠ .ok (.selExec f)) {raws : List (Bool × Bool)}
    (idle : ∀ j, j ≠ a → raws.getD j (false, false) = (false, false))
    (input : aluInput (s.cycling.within x) p st .salu a = data) (turn : AluTurn s u p st a data (decodeMa raw.toNat) o) :
    runStateful p st a raws raw (s.cycling.within x) = .ok o (u.cycling.within x) ∧ SameConfig s u := by
  obtain ⟨i, decoded, next, answer, running⟩ := turn
  have hat : AtSalu (s.inTurn p st a data) p st a := ⟨atStage_inTurn hp hst, rfl, ha⟩
  rcases maParse_of_decodeMa decoded with ⟨parsed, r, rfl⟩ | ⟨parsed, rfl⟩ | ⟨parsed, rfl⟩ | ⟨-, rfl⟩ | ⟨parsed, rfl⟩
  · obtain ⟨rfl, same, config⟩ := alu_idle_in_turn (x := x) (.inl ⟨r, rfl⟩) next answer
    rw [same, runStateful, bind_of_ok _ _ (receive_of_maParse parsed _)]
    exact ⟨rfl, config⟩
  · obtain ⟨rfl, same, config⟩ := alu_idle_in_turn (x := x) (.inr ⟨_, rfl⟩) next answer
    rw [same, runStateful, bind_of_ok _ _ (receive_of_maParse parsed _)]
    exact ⟨rfl, config⟩
  · rw [runStateful, bind_of_ok _ _ (receive_of_maParse parsed _)]
    simp only [if_true, look_bind, id, sbusOf_of_others_idle idle, input]
    exact alu_call_of_row (atSalu_apply hat _) next answer running
      (framed_saluExecute _ _ _ _ _ _ _ _) (blind_saluExecute _ _ _ _ _ _ _ _)
  · exact absurd decoded (other _)
  · rw [runStateful, bind_of_ok _ _ (receive_of_maParse parsed _)]
    exact alu_call_of_row (call := maRead p st .salu a (maFields raw.toNat)) (atSalu_apply hat _) next answer running
      (framed_maRead _ _ _ _ _) (blind_maRead _ _ _ _ _)

/-! ### The stats ALU (R388, R540) -/

theorem runStats_of_disabled {raw : BitVec 24} (h : raw.getLsbD 23 = false) (lt : Nat) (s : State) :
    runStats p st a lt raw s = .ok .none s := by
  rw [runStats, look_bind, h]
  rfl

/-- A stats address that decodes is the operation of its row. -/
theorem saParse_of_decodeSa {w : Nat} {i : Instr} (enabled : wordBit w 23 = true) (h : decodeSa w = .ok i) :
    ∃ op, saParse w = some (op, saFields w) ∧ ∀ s, exec i s = outcome (statsOp op (saFields w)) s := by
  unfold decodeSa at h
  unfold saParse
  rw [enabled, if_pos rfl] at h
  rw [enabled, if_neg (by decide)]
  split at h
  · cases h
  · rename_i clear
    rw [if_neg clear]
    have codes : w / 2 ^ 20 % 4 = 0 ∨ w / 2 ^ 20 % 4 = 1 ∨ w / 2 ^ 20 % 4 = 2 ∨ w / 2 ^ 20 % 4 = 3 := by omega
    rcases codes with code | code | code | code <;> rw [code] at h ⊢ <;>
      exact ⟨_, rfl, fun _ => by rw [← Except.ok.inj h]; rfl⟩

theorem countsAtTeop_iff : countsAtTeop s p st a = true ↔
    ∃ b < s.params.numTeopBuses, s.inSet .busHdrStats [p, st, b] a = true := by
  rw [countsAtTeop, List.any_eq_true]
  simp only [List.mem_range]

theorem stats_in_turn (hp : p < s.params.numPipes) (hst : st < s.params.numStages) (ha : a < s.params.numStatsAlu)
    {raw : BitVec 24} {lt : Nat} (turn : StatsTurn s u p st a lt raw o) :
    runStats p st a lt raw (s.cycling.within x) = .ok o (u.cycling.within x) ∧ SameConfig s u := by
  have hat : AtStats (s.inTurn p st a 0) p st a := ⟨atStage_inTurn hp hst, rfl, ha⟩
  have bit : wordBit raw.toNat 23 = raw.getLsbD 23 := wordBit_eq_testBit _ _
  obtain ⟨later, now⟩ := turn
  cases enabled : raw.getLsbD 23
  · obtain ⟨i, decoded, next, answer, running⟩ := now fun h => by rw [enabled] at h; cases h.1
    rw [decodeSa, bit, enabled] at decoded
    cases decoded
    obtain ⟨ran, config⟩ := alu_call_of_row (x := x) (call := pure .none) (atStats_apply hat _) next answer running
      (acts_pure _) (blind_pure _)
    exact ⟨(runStats_of_disabled enabled lt _).trans ran, config⟩
  · have step : runStats p st a lt raw (s.cycling.within x) = (if countsAtTeop s p st a
        then outputAddr p st lt a (BitVec.ofNat 32 raw.toNat) true >>= fun _ => pure .none
        else statsAddress p st a raw s.act.io.byteLen) (s.cycling.within x) := by
      rw [runStats, look_bind, enabled]
      rfl
    rw [step]
    cases teop : countsAtTeop s p st a
    · obtain ⟨i, decoded, next, answer, running⟩ := now fun h => by
        rw [countsAtTeop_iff.2 h.2] at teop
        cases teop
      obtain ⟨op, parsed, rowOf⟩ := saParse_of_decodeSa (bit.trans enabled) decoded
      rw [rowOf] at next
      rw [if_neg (by decide), statsAddress, parsed]
      exact alu_call_of_row (call := statsRun p st a op (saFields raw.toNat) s.act.io.byteLen) (atStats_apply hat _) next
        answer running (framed_statsRun _ _ _ _ _ _) (blind_statsRun _ _ _ _ _ _)
    · obtain ⟨next, rfl, running⟩ := later ⟨enabled, countsAtTeop_iff.1 teop⟩
      obtain ⟨v, -, ran, config⟩ := call_of_row (x := x) (answer := fun _ => Ret.none)
        (atStage_apply (atStage_inTurn hp hst) _) next (ran_of_running (framed_outputAddr _ _ _ _ _ _) running)
        (blind_outputAddr _ _ _ _ _ _)
      rw [if_pos rfl, BitVec.ofNat_toNat, bind_of_ok _ _ ran]
      exact ⟨rfl, config⟩

/-- The consumption of the tEOP buses (R390). -/
theorem consumeAll_in_turn (hp : p < s.params.numPipes) (hst : st < s.params.numStages)
    (next : exec .teopConsume (s.inTurn p st a data) = .next u) (running : Running u) :
    consumeAll p st (s.cycling.within x) = .ok () (u.cycling.within x) := by
  obtain ⟨v, -, ran, -⟩ := call_of_row (x := x) (answer := fun _ => Ret.none)
    (atStage_apply (atStage_inTurn hp hst) _) next (ran_of_running (framed_consumeAll _ _) running) (blind_consumeAll _ _)
  exact ran

/-! ### The counter (R340) -/

theorem and_top_byte (n : Nat) (hn : n < 2 ^ 32) : n &&& 0xFF000000 = 2 ^ 24 * (n / 2 ^ 24) := by
  have mask : 0xFF000000 = 2 ^ 24 * (2 ^ 8 - 1) := by decide
  refine Nat.eq_of_testBit_eq fun i => ?_
  rw [mask, Nat.testBit_and, Nat.testBit_two_pow_mul, Nat.testBit_two_pow_mul, Nat.testBit_two_pow_sub_one,
    Nat.testBit_div_two_pow]
  by_cases high : 24 ≤ i
  · by_cases inside : i < 32
    · simp [high, show i - 24 < 8 by omega]
    · have out : n.testBit i = false :=
        Nat.testBit_lt_two_pow (hn.trans_le (Nat.pow_le_pow_right (by decide) (by omega)))
      simp [high, out]
  · simp [high]

theorem withPointer_eq {raw raw' : BitVec 32} {q : Option Nat} (h : raw'.toNat = match q with
    | none => raw.toNat % 2 ^ 31
    | some ptr => raw.toNat / 2 ^ 24 * 2 ^ 24 + ptr % 2 ^ 24) : withPointer raw q = raw' := by
  refine BitVec.eq_of_toNat_eq ?_
  cases q with
  | none => exact (Nat.and_two_pow_sub_one_eq_mod raw.toNat 31).trans h.symm
  | some ptr =>
    have low : ptr % 2 ^ 24 < 2 ^ 24 := Nat.mod_lt _ (by decide)
    have fits : (BitVec.ofNat 32 (ptr % 2 ^ 24)).toNat = ptr % 2 ^ 24 :=
      Nat.mod_eq_of_lt (low.trans (by decide))
    have top : (raw &&& 0xFF000000#32).toNat = 2 ^ 24 * (raw.toNat / 2 ^ 24) := and_top_byte _ raw.isLt
    rw [withPointer, BitVec.toNat_or, top, fits, ← Nat.two_pow_add_eq_or_of_lt low, h, Nat.mul_comm]

/-- A push or a pop never takes the fault entry. -/
abbrev NeverFaults {α : Type} (m : M α) : Prop := Triple (fun _ => True) m (fun _ _ => True) (fun _ => False)

theorem neverFaults_readBounds (p st c : Nat) : NeverFaults (readBounds p st c) :=
  triple_look_bind fun _ _ => .ite (fun _ _ => trivial) (triple_refuse _)

theorem neverFaults_pushCtr (p st c : Nat) : NeverFaults (pushCtr p st c) :=
  (neverFaults_readBounds p st c).bind fun _ => triple_look_bind fun _ _ =>
    .ite (fun _ _ => trivial) (fun _ _ => trivial)

theorem neverFaults_pop (p st c : Nat) {k : Counter → Bounds → M (Option Nat)} (hk : ∀ v b, NeverFaults (k v b)) :
    NeverFaults (counterOf p st c >>= fun v =>
      if v.fill = 0 then putCtr p st c { v with flags := v.flags ||| flUnderflowed } >>= fun _ => pure none
      else readBounds p st c >>= k v) :=
  triple_look_bind fun _ _ => .ite (fun _ _ => trivial)
    (((neverFaults_readBounds p st c).bind fun _ => hk _ _).weaken (fun _ _ => trivial) (fun _ _ h => h) fun _ h => h)

theorem neverFaults_popFifo (p st c : Nat) : NeverFaults (popFifo p st c) :=
  neverFaults_pop p st c fun _ _ _ _ => trivial

theorem neverFaults_popStack (p st c : Nat) : NeverFaults (popStack p st c) :=
  neverFaults_pop p st c fun _ _ _ _ => trivial

/-- The row of a push or a pop, and the request that makes it. -/
theorem request_of_row {c : Nat} {f : Nat → Nat → M (Option Nat)} (hp : p < s.params.numPipes)
    (hst : st < s.params.numStages) (hc : c < s.params.numCtrs) {raw raw' : BitVec 32}
    (next : outcome (pointerOp c f) (s.inTurn p st c 0) = .next u)
    (pointer : ∃ q, u.result = .pointer q ∧ raw'.toNat = match q with
      | none => raw.toNat % 2 ^ 31
      | some ptr => raw.toNat / 2 ^ 24 * 2 ^ 24 + ptr % 2 ^ 24)
    (never : NeverFaults (f p st)) (blind : Blind (f p st)) :
    (f p st >>= fun q => pure (withPointer raw q)) (s.cycling.within x) = .ok raw' (u.cycling.within x)
      ∧ SameConfig s u := by
  obtain ⟨q, answer, address⟩ := pointer
  have row : pointerOp c f (s.inTurn p st c 0) = (f p st >>= fun q => pure (.pointer q)) (s.inTurn p st c 0) := by
    rw [pointerOp, atStage_apply (atStage_inTurn hp hst)]
    exact withCounter_apply (s := s.inTurn p st c 0) hc _
  obtain ⟨v, answered, ran, config⟩ := call_of_row (x := x) row next
    (fun stopped => never.faulted trivial stopped) blind
  obtain rfl := Ret.pointer.inj (answer.symm.trans answered)
  rw [bind_of_ok _ _ ran, withPointer_eq address]
  exact ⟨rfl, config⟩

theorem counter_in_turn {c : Nat} (hp : p < s.params.numPipes) (hst : st < s.params.numStages)
    (hc : c < s.params.numCtrs) {req : CtrReq} {raw raw' : BitVec 32} (turn : CounterTurn s u p st c req raw raw') :
    ctrDispatch p st c req raw (s.cycling.within x) = .ok raw' (u.cycling.within x) ∧ SameConfig s u := by
  have discipline : (s.cycling.within x).flag .ctrDiscipline [p, st, c] = s.flag .ctrDiscipline [p, st, c] := rfl
  cases req with
  | none =>
    obtain ⟨rfl, rfl⟩ := turn
    exact ⟨rfl, .refl _⟩
  | push =>
    obtain ⟨next, pointer⟩ := turn
    have row : exec (bif s.flag .ctrDiscipline [p, st, c] then .ctrPushStack c else .ctrPushFifo c) (s.inTurn p st c 0)
        = outcome (pointerOp c (fun p st => pushCtr p st c)) (s.inTurn p st c 0) :=
      exec_push (by cases s.flag .ctrDiscipline [p, st, c] <;> simp) _
    rw [row] at next
    exact request_of_row hp hst hc next pointer (neverFaults_pushCtr p st c) (blind_pushCtr p st c)
  | pop =>
    obtain ⟨next, pointer⟩ := turn
    have step : ctrDispatch p st c .pop raw (s.cycling.within x)
        = ((if s.flag .ctrDiscipline [p, st, c] then popStack p st c else popFifo p st c) >>=
          fun q => pure (withPointer raw q)) (s.cycling.within x) := rfl
    rw [step]
    cases stack : s.flag .ctrDiscipline [p, st, c] <;> rw [stack] at next
    · exact request_of_row hp hst hc next pointer (neverFaults_popFifo p st c) (blind_popFifo p st c)
    · exact request_of_row hp hst hc next pointer (neverFaults_popStack p st c) (blind_popStack p st c)

end
end Sys2Proof.Machine
end

section
/-! SUPPORT. A quiet stage up to its lookups: its buses are clean, no counter clears, neither snapshot unit acts, and no
column and no gateway looks anything up (R160, R175, R347, R362, R540). -/

namespace Sys2Proof.Machine

section
variable {s : State} {p st : Nat}

/-! ### The resources of the rows (R175) -/

/-- A row's per-cycle resources after their reset. -/
def resetRow (p st : Nat) (row : RowState) (r : Nat) : RowState :=
  { row with matchBus := Store.dropWhere (inRow p st r) row.matchBus
             tindBus := Store.dropWhere (inRow p st r) row.tindBus }

theorem foldl_resetResources : ∀ (l : List Nat) (s : State),
    l.foldl (fun s r => resetResources p st r s) s = s.setRow (l.foldl (resetRow p st) s.row)
  | [], _ => rfl
  | _ :: l, _ => (foldl_resetResources l _).trans rfl

/-- No bus of the row is in use. -/
structure BusesClean (p st : Nat) (row : RowState) (r : Nat) : Prop where
  matchBus : ∀ b, Store.get {} row.matchBus [p, st, r, b] = {}
  tindBus : ∀ b, Store.get {} row.tindBus [p, st, r, b] = {}

theorem busesClean_resetRow (row : RowState) (r : Nat) : BusesClean p st (resetRow p st row r) r := by
  have own (b : Nat) : inRow p st r [p, st, r, b] = true := beq_self_eq_true [p, st, r]
  exact ⟨fun b => (Store.get_dropWhere _ _ _ _).trans (if_pos (own b)),
    fun b => (Store.get_dropWhere _ _ _ _).trans (if_pos (own b))⟩

theorem BusesClean.resetRow {row : RowState} {r : Nat} (h : BusesClean p st row r) (r' : Nat) :
    BusesClean p st (resetRow p st row r') r := by
  refine ⟨fun b => (Store.get_dropWhere _ _ _ _).trans ?_, fun b => (Store.get_dropWhere _ _ _ _).trans ?_⟩
  · rw [h.matchBus, ite_self]
  · rw [h.tindBus, ite_self]

theorem busesClean_foldl : ∀ (l : List Nat) (row : RowState) (r : Nat), BusesClean p st row r ∨ r ∈ l →
    BusesClean p st (l.foldl (resetRow p st) row) r
  | [], _, _, h => h.resolve_right List.not_mem_nil
  | r' :: l, row, r, h => by
    refine busesClean_foldl l _ r ?_
    rcases h with clean | mem
    · exact .inl (clean.resetRow r')
    · rcases List.mem_cons.1 mem with rfl | mem
      · exact .inl (busesClean_resetRow row r)
      · exact .inr mem

/-- The resources and the results of a stage in which nothing was looked up. -/
structure RowsClean (params : Params) (p st : Nat) (row : RowState) : Prop where
  buses : ∀ r < params.numRows, BusesClean p st row r
  gateway : ∀ r, Store.get .notRun row.gateway [p, st, r] = .notRun
  ltHit : Store.get 0 row.ltHit [p, st] = 0
  ltInhibit : Store.get 0 row.ltInhibit [p, st] = 0

theorem RowsClean.resetRow {params : Params} {row : RowState} (h : RowsClean params p st row) (r : Nat) :
    RowsClean params p st (resetRow p st row r) :=
  ⟨fun r' hr' => (h.buses r' hr').resetRow r, h.gateway, h.ltHit, h.ltInhibit⟩

/-- The resources of the stage at the start of its cycle. -/
def cleanRows (params : Params) (p st : Nat) (row : RowState) : RowState :=
  let row := (List.range params.numRows).foldl (resetRow p st) row
  { row with gateway := Store.dropWhere (fun k => k.take 2 == [p, st]) row.gateway
             ltHit := Store.set 0 row.ltHit [p, st] 0
             ltInhibit := Store.set 0 row.ltInhibit [p, st] 0 }

theorem cleanStage_eq (s : State) : cleanStage p st s = s.setRow (cleanRows s.params p st s.row) := by
  rw [cleanStage, foldl_resetResources]
  rfl

theorem rowsClean_cleanRows (params : Params) (row : RowState) : RowsClean params p st (cleanRows params p st row) := by
  have none (m : Store Nat) : Store.get 0 (Store.set 0 m [p, st] 0) [p, st] = 0 := Store.get_set_same 0 m _ _
  refine ⟨fun r hr => ?_, fun r => ?_, none _, none _⟩
  · obtain ⟨matchBus, tindBus⟩ := busesClean_foldl (p := p) (st := st) (List.range params.numRows) row r
      (.inr (List.mem_range.2 hr))
    exact ⟨matchBus, tindBus⟩
  · have own : ([p, st, r].take 2 == [p, st]) = true := beq_self_eq_true [p, st]
    exact (Store.get_dropWhere _ (fun k => k.take 2 == [p, st]) _ _).trans (if_pos own)

theorem map_range_const {α : Type} {n : Nat} {f : Nat → α} {v : α} (h : ∀ k < n, f k = v) :
    (List.range n).map f = List.replicate n v := by
  rw [List.map_congr_left fun k hk => h k (List.mem_range.1 hk), List.map_const', List.length_range]

/-- Clean resources are the results of an empty lookup (R542). -/
theorem lookupOf_of_clean (h : RowsClean s.params p st s.row) : lookupOf s p st = emptyLookup s.params := by
  have matchBus (r : Nat) (hr : r < s.params.numRows) (b : Nat) : s.bus .matchBus [p, st, r, b] = {} :=
    (h.buses r hr).matchBus b
  have tindBus (r : Nat) (hr : r < s.params.numRows) (b : Nat) : s.bus .tindBus [p, st, r, b] = {} :=
    (h.buses r hr).tindBus b
  simp only [lookupOf, emptyLookup, Lookup.mk.injEq]
  refine ⟨?_, ?_, ?_, ?_, ?_, h.ltHit, h.ltInhibit⟩
  · exact map_range_const fun r hr => map_range_const fun b _ => matchBus r hr b
  · exact map_range_const fun r hr => map_range_const fun b _ => tindBus r hr b
  · exact map_range_const fun r hr => map_range_const fun b _ => by rw [busHitAddr, matchBus r hr b]; rfl
  · exact map_range_const fun r hr => map_range_const fun b _ => by rw [busHitAddr, tindBus r hr b]; rfl
  · exact map_range_const fun r _ => h.gateway r

/-! ### The snapshot units (R362, R363) -/

/-- Neither unit of the stage is armed or holds an unfinished capture. -/
def SnapsRest (p st : Nat) (snap : Store SnapUnit) : Prop :=
  ∀ g : Gress, (Store.get ({} : SnapUnit) snap [p, st, g.ctorIdx]).state = .passive
    ∧ (Store.get ({} : SnapUnit) snap [p, st, g.ctorIdx]).pending = false

theorem SnapsRest.set {snap : Store SnapUnit} (h : SnapsRest p st snap) (g : Gress) {u : SnapUnit}
    (passive : u.state = .passive) (settled : u.pending = false) :
    SnapsRest p st (Store.set {} snap [p, st, g.ctorIdx] u) := by
  intro g'
  rw [Store.get_set]
  split
  · exact ⟨passive, settled⟩
  · exact h g'

/-- A passive unit passes the flag on and captures nothing; its clock moves. -/
theorem snapshotStep_of_rest (h : SnapsRest p st s.snap) :
    ∃ snap, snapshotStep p st s = s.setSnap snap ∧ SnapsRest p st snap := by
  obtain ⟨passive, settled⟩ := h s.act.io.gress
  have state : (s.snapUnit p st s.act.io.gress).state = .passive := passive
  unfold snapshotStep
  simp only [state, snapFires, flagOut, Bool.false_eq_true, if_false]
  split
  · exact ⟨_, rfl, h.set _ rfl settled⟩
  · exact ⟨_, rfl, h.set _ rfl settled⟩

theorem finalizeSnapshot_of_rest (h : SnapsRest p st s.snap) (nextTable : BitVec 8) :
    finalizeSnapshot p st nextTable s = s := by
  have settled : (s.snapUnit p st s.act.io.gress).pending = false := (h s.act.io.gress).2
  simp only [finalizeSnapshot, settled, Bool.false_eq_true, if_false]

/-! ### The cycle up to its lookups (R540) -/

/-- The surroundings in which the quiet stage has come as far as its lookups: the PHV as it was, clean resources, resting
snapshot units. -/
structure QuietSurroundings (s : State) (p st : Nat) (x : Surroundings) : Prop where
  phv : x.phv = s.act.phv
  rows : RowsClean s.params p st x.row
  snaps : SnapsRest p st x.snap

/-- The state is the one before the cycle, in its cycle and in quiet surroundings. -/
def Entered (s : State) (p st : Nat) (t : State) : Prop :=
  ∃ x, t = s.cycling.within x ∧ QuietSurroundings s p st x

/-- A loop whose rounds run to their ends and keep an invariant. -/
theorem forEach_keeps {α : Type} {I : State → Prop} {f : α → M Unit} : ∀ {l : List α},
    (∀ k ∈ l, ∀ t, I t → ∃ u, f k t = .ok () u ∧ I u) → ∀ t, I t → ∃ u, forEach l f t = .ok () u ∧ I u
  | [], _, t, ht => ⟨t, rfl, ht⟩
  | k :: l, h, t, ht => by
    obtain ⟨u, first, hu⟩ := h k List.mem_cons_self t ht
    obtain ⟨v, rest, hv⟩ := forEach_keeps (fun k' hk' => h k' (List.mem_cons_of_mem _ hk')) u hu
    exact ⟨v, by rw [forEach_cons, bind_of_ok _ _ first, rest], hv⟩

theorem continueClearTill_entered {c : Nat} (rest : ctrActive (s.counter p st c).flags = false) (tStop : Nat) {t : State}
    (h : Entered s p st t) : ∃ u, continueClearTill p st c tStop t = .ok () u ∧ Entered s p st u := by
  obtain ⟨x, rfl, phv, rows, snaps⟩ := h
  refine ⟨_, continueClearTill_of_inactive tStop rest, { x with spin := _ }, rfl, phv, rows, snaps⟩

theorem runRow_entered {r : Nat} (gateway : s.flag .gwEnable [p, st, r] = false)
    (columns : ∀ c < numCols, s.field .colMode [p, st, r, c] = 0) {t : State} (h : Entered s p st t) :
    ∃ u, runRow p st r t = .ok () u ∧ Entered s p st u := by
  obtain ⟨x, rfl, phv, rows, snaps⟩ := h
  refine ⟨s.cycling.within { x with row := resetRow p st x.row r }, ?_, _, rfl, phv, rows.resetRow r, snaps⟩
  have gatewayOff (t : State) (ht : t.cfg = s.cfg) : runGateway p st r t = .ok .notRun t := by
    rw [runGateway, look_bind, State.flag_eq_of_cfg ht, gateway]
    rfl
  have columnOff (t : State) (ht : t.cfg = s.cfg) (c : Nat) (hc : c < numCols) : runColumn p st r c t = .ok none t := by
    rw [runColumn, look_bind, State.field_eq_of_cfg ht, columns c hc]
    rfl
  rw [runRow, change_bind, bind_of_ok _ _ (gatewayOff _ (by exact rfl))]
  exact forEach_skip _ _ _ fun c hc => by rw [bind_of_ok _ _ (columnOff _ (by exact rfl) c (List.mem_range.1 hc))]; rfl

/-- The rest of a cycle, from its lookup results on: addresses, turns, consumption, action. -/
def afterLookups (p st : Nat) : M Unit := do
  let s ← look id
  let L := lookupOf s p st
  let A := addrFn s.params p st s.act.phv L
  let outs ← runAlus p st A
  consumeAll p st
  let phv' := phvNormal s.params (actionFn s.params st s.act.phv L outs)
  change (finalizeSnapshot p st A.nextTable)
  change (fun s => s.setAct { s.act with phv := phv', inCycle := false })

/-- A quiet stage comes to its lookup results with nothing changed but the surroundings. -/
theorem stageCycle_of_quiet (quiet : QuietConfig s p st) :
    ∃ x, stageCycle p st s = afterLookups p st (s.cycling.within x) ∧ QuietSurroundings s p st x := by
  obtain ⟨rowsOff, countersRest, snapsRest⟩ := quiet
  have snaps : SnapsRest p st s.snap := snapsRest
  have cleaned : Entered s p st (cleanStage p st s.cycling) := by
    rw [cleanStage_eq]
    exact ⟨{ s.cycling.surroundings with row := cleanRows s.params p st s.row }, rfl, rfl,
      rowsClean_cleanRows _ _, snaps⟩
  have ⟨x₀, entry, _⟩ := cleaned
  obtain ⟨t, swept, entered⟩ := forEach_keeps (l := List.range s.params.numCtrs) (I := Entered s p st)
    (f := fun c => continueClearTill p st c s.act.io.t)
    (fun c hc _ => continueClearTill_entered (countersRest c (List.mem_range.1 hc)) _) _ cleaned
  have stepped : Entered s p st (snapshotStep p st t) := by
    obtain ⟨x, rfl, phv, rows, snaps⟩ := entered
    obtain ⟨snap, step, rest⟩ := snapshotStep_of_rest (s := s.cycling.within x) snaps
    rw [step]
    exact ⟨{ x with snap := snap }, rfl, phv, rows, rest⟩
  obtain ⟨u, ran, x, rfl, surroundings⟩ := forEach_keeps (l := List.range s.params.numRows) (I := Entered s p st)
    (f := runRow p st) (fun r hr _ => have ⟨gateway, columns⟩ := rowsOff r (List.mem_range.1 hr)
      runRow_entered gateway columns) _ stepped
  rw [entry] at swept
  refine ⟨x, ?_, surroundings⟩
  unfold stageCycle
  rw [change_bind, change_bind, look_bind, ← State.cycling, entry]
  refine (bind_of_ok _ _ swept).trans ?_
  rw [change_bind]
  exact (bind_of_ok _ _ ran).trans rfl

end
end Sys2Proof.Machine
end

section
/-! PROOF. A quiet stage is transparent, and the units that the address distribution addresses take their turns in order
(R340, R526, R540 to R543). -/

namespace Sys2Proof.Machine

section
variable {s : State} {p st : Nat}

/-! ### One addressed unit among its kind -/

/-- What holds of every entry of a list and of the default holds of the entry read. -/
theorem getD_of_forall {α : Type} {P : α → Prop} {l : List α} {d : α} (h : ∀ x ∈ l, P x) (hd : P d) (k : Nat) :
    P (l.getD k d) := by
  by_cases inside : k < l.length
  · rw [List.getD_eq_getElem l d inside]
    exact h _ (List.getElem_mem inside)
  · rw [List.getD_eq_default l d (Nat.le_of_not_lt inside)]
    exact hd

theorem getD_map_range {α : Type} {n k : Nat} (f : Nat → α) (d : α) :
    ((List.range n).map f).getD k d = if k < n then f k else d := by
  rw [List.getD_eq_getElem?_getD, List.getElem?_map]
  by_cases inside : k < n
  · rw [List.getElem?_range inside, if_pos inside]
    rfl
  · rw [List.getElem?_eq_none (by simpa using inside), if_neg inside]
    rfl

/-- A collecting loop of which one round alone does anything. -/
theorem collect_one {α : Type} {f : Nat → M α} {g : Nat → α} {a : Nat} {v : α} {t u : State}
    (one : f a t = .ok v u) : ∀ {l : List Nat}, l.Nodup → a ∈ l → (∀ k ∈ l, k ≠ a → ∀ s, f k s = .ok (g k) s) →
    collect l f t = .ok (l.map (fun k => if k = a then v else g k)) u
  | k :: l, nodup, mem, others => by
    obtain ⟨fresh, nodup⟩ := List.nodup_cons.1 nodup
    have tail (k' : Nat) (hk' : k' ∈ l) := others k' (List.mem_cons_of_mem _ hk')
    rw [List.map_cons, collect_cons]
    by_cases here : k = a
    · subst here
      have rest := collect_skip u l f (fun k' => if k' = k then v else g k') fun k' hk' => by
        have ne : k' ≠ k := fun e => fresh (e ▸ hk')
        rw [if_neg ne]
        exact tail k' hk' ne u
      rw [bind_of_ok _ _ one, bind_of_ok _ _ rest, if_pos rfl]
      rfl
    · have rest := collect_one one nodup ((List.mem_cons.1 mem).resolve_left (Ne.symm here)) tail
      rw [bind_of_ok _ _ (others k List.mem_cons_self here t), bind_of_ok _ _ rest, if_neg here]
      rfl

/-- One output among none. -/
theorem map_range_one {n a : Nat} (o : AluOut) :
    (List.range n).map (fun k => if k = a then o else .none) = (List.replicate n .none).set a o := by
  refine List.ext_getElem (by simp) fun k hk _ => ?_
  rw [List.getElem_map, List.getElem_range, List.getElem_set, List.getElem_replicate]
  simp only [eq_comm]

/-! ### The turns of a stage (R540) -/

/-- The round of counter `c`, whether the stage has one of this number or not. -/
def counterRound (p st numCtrs : Nat) (A : AddrOut) (c : Nat) : M (BitVec 32) :=
  if c < numCtrs then ctrDispatch p st c (A.ctrOp.getD c .none) (A.ma.getD c 0) else pure (A.ma.getD c 0)

theorem counterRound_of_none {A : AddrOut} {c : Nat} (h : A.ctrOp.getD c .none = .none) (numCtrs : Nat) (s : State) :
    counterRound p st numCtrs A c s = .ok (A.ma.getD c 0) s := by
  rw [counterRound, h]
  split <;> rfl

/-- Where each kind of unit takes its turns to the end and no meter address is there, the stage has its outputs. -/
theorem runAlus_of_collects {A : AddrOut} {s₀ s₁ s₂ s₃ s₄ : State} {mas : List (BitVec 32)} {sel salu stats : List AluOut}
    (counters : collect (List.range (max s₀.params.numSalu s₀.params.numCtrs))
      (counterRound p st s₀.params.numCtrs A) s₀ = .ok mas s₁)
    (selectors : collect (List.range s₀.params.numSelAlu)
      (fun a => runSelector p st a (A.selMa.getD a 0)) s₁ = .ok sel s₂)
    (statefuls : collect (List.range s₀.params.numSalu)
      (fun a => runStateful p st a (allRaws s₂ p st mas) (mas.getD a 0)) s₂ = .ok salu s₃)
    (counts : collect (List.range s₀.params.numStatsAlu)
      (fun a => runStats p st a (A.saLt.getD a 0) (A.sa.getD a 0)) s₃ = .ok stats s₄)
    (noMeter : ∀ x ∈ A.me, x = none) :
    runAlus p st A s₀ = .ok { sel := sel, salu := salu, stats := stats } s₄ := by
  have none : A.me.any Option.isSome = false := List.any_eq_false.2 fun x hx => by rw [noMeter x hx]; decide
  unfold runAlus
  rw [look_bind]
  refine (bind_of_ok _ _ counters).trans ?_
  rw [bind_of_ok _ _ selectors, look_bind, bind_of_ok _ _ statefuls, bind_of_ok _ _ counts, none]
  rfl

/-- An ALU whose address is disabled contributes nothing to the sbus. -/
theorem allRaws_of_disabled {mas : List (BitVec 32)} {a : Nat} (h : (mas.getD a 0).getLsbD 31 = false) (s : State) :
    (allRaws s p st mas).getD a (false, false) = (false, false) := by
  rw [allRaws, getD_map_range, rawOfAddress, maParse_of_disabled h]
  exact ite_self _

/-! One unit of a kind is addressed, and every other address of the kind is disabled. -/

theorem counters_one {A : AddrOut} {n numCtrs c : Nat} {raw : BitVec 32} {t u : State} (hn : c < n) (hc : c < numCtrs)
    (others : ∀ k, k ≠ c → A.ctrOp.getD k .none = .none)
    (one : ctrDispatch p st c (A.ctrOp.getD c .none) (A.ma.getD c 0) t = .ok raw u) :
    collect (List.range n) (counterRound p st numCtrs A) t
      = .ok ((List.range n).map (fun k => if k = c then raw else A.ma.getD k 0)) u := by
  have round : counterRound p st numCtrs A c t = .ok raw u := by
    rw [counterRound, if_pos hc]
    exact one
  exact collect_one round List.nodup_range (List.mem_range.2 hn) fun k _ hk s => counterRound_of_none (others k hk) _ s

theorem selectors_one {selMa : List (BitVec 32)} {n e : Nat} {o : AluOut} {t u : State} (he : e < n)
    (others : ∀ k, k ≠ e → (selMa.getD k 0).getLsbD 31 = false) (one : runSelector p st e (selMa.getD e 0) t = .ok o u) :
    collect (List.range n) (fun k => runSelector p st k (selMa.getD k 0)) t
      = .ok ((List.replicate n .none).set e o) u := by
  rw [← map_range_one]
  exact collect_one one List.nodup_range (List.mem_range.2 he) fun k _ hk s => runSelector_of_disabled (others k hk) s

theorem statefuls_one {mas : List (BitVec 32)} {raws : List (Bool × Bool)} {n c : Nat} {o : AluOut} {t u : State}
    (hc : c < n) (others : ∀ k, k ≠ c → (mas.getD k 0).getLsbD 31 = false)
    (one : runStateful p st c raws (mas.getD c 0) t = .ok o u) :
    collect (List.range n) (fun k => runStateful p st k raws (mas.getD k 0)) t
      = .ok ((List.replicate n .none).set c o) u := by
  rw [← map_range_one]
  exact collect_one one List.nodup_range (List.mem_range.2 hc) fun k _ hk s =>
    runStateful_of_disabled (others k hk) raws s

theorem stats_one {sa : List (BitVec 24)} {lts : List Nat} {n a : Nat} {o : AluOut} {t u : State} (ha : a < n)
    (others : ∀ k, k ≠ a → (sa.getD k 0).getLsbD 23 = false)
    (one : runStats p st a (lts.getD a 0) (sa.getD a 0) t = .ok o u) :
    collect (List.range n) (fun k => runStats p st k (lts.getD k 0) (sa.getD k 0)) t
      = .ok ((List.replicate n .none).set a o) u := by
  rw [← map_range_one]
  exact collect_one one List.nodup_range (List.mem_range.2 ha) fun k _ hk s =>
    runStats_of_disabled (others k hk) _ s

/-- Nothing is enabled: no unit does anything. -/
theorem runAlus_of_quiet {A : AddrOut} (h : quietAddr A = true) (s : State) :
    runAlus p st A s = .ok (noOuts s.params) s := by
  simp only [quietAddr, Bool.and_eq_true, List.all_eq_true, Bool.not_eq_true', Option.isNone_iff_eq_none, beq_iff_eq] at h
  obtain ⟨⟨⟨⟨sa, selMa⟩, ma⟩, me⟩, ctrOp⟩ := h
  have counters := collect_skip s (List.range (max s.params.numSalu s.params.numCtrs))
    (counterRound p st s.params.numCtrs A) (A.ma.getD · 0)
    fun c _ => counterRound_of_none (getD_of_forall (P := (· = CtrReq.none)) ctrOp rfl c) _ s
  refine runAlus_of_collects counters (collect_skip s _ _ (fun _ => .none) fun a _ => ?_)
    (collect_skip s _ _ (fun _ => .none) fun a _ => ?_) (collect_skip s _ _ (fun _ => .none) fun a _ => ?_) me
    |>.trans ?_
  · exact runSelector_of_disabled (getD_of_forall (P := (BitVec.getLsbD · 31 = false)) selMa rfl a) s
  · refine runStateful_of_disabled ?_ _ s
    rw [getD_map_range]
    split
    · exact getD_of_forall (P := (BitVec.getLsbD · 31 = false)) ma rfl a
    · rfl
  · exact runStats_of_disabled (getD_of_forall (P := (BitVec.getLsbD · 23 = false)) sa rfl a) _ s
  · simp only [map_range_const fun _ _ => rfl]
    rfl

/-- No bus is valid: none is consumed. -/
theorem consumeAll_of_invalid (h : ∀ b, (Store.get ({} : TeopBus) s.act.io.buses [b]).valid = false) :
    consumeAll p st s = .ok () s := by
  refine forEach_skip s _ _ fun b _ => ?_
  have invalid : (busOf s.act.io b).valid = false := h b
  rw [consumeBus, look_bind, id, invalid]
  rfl

/-! ### The end of the cycle -/

/-- The state after the cycle: the PHV of the action, and the stage out of its cycle. -/
def State.leaving (s : State) (x : Surroundings) (phv : Phv) : State :=
  (s.within x).setAct { (s.within x).act with phv := phv, inCycle := false }

/-- The rest of a quiet stage's cycle, by the turns of its units and the consumption of the buses. -/
theorem afterLookups_of_turns {x : Surroundings} (quiet : QuietSurroundings s p st x) {outs : AluOuts} {t u : State}
    (turns : runAlus p st (addrFn s.params p st s.act.phv (emptyLookup s.params)) (s.cycling.within x)
      = .ok outs (t.cycling.within x))
    (consumed : consumeAll p st (t.cycling.within x) = .ok () (u.cycling.within x)) :
    afterLookups p st (s.cycling.within x) = .ok () (u.cycling.leaving x
      (phvNormal s.params (actionFn s.params st s.act.phv (emptyLookup s.params) outs))) := by
  have lookup : lookupOf (s.cycling.within x) p st = emptyLookup s.params := lookupOf_of_clean quiet.rows
  have phv : (s.cycling.within x).act.phv = s.act.phv := quiet.phv
  have params : (s.cycling.within x).params = s.params := rfl
  have settled (n : BitVec 8) : finalizeSnapshot p st n (u.cycling.within x) = u.cycling.within x :=
    finalizeSnapshot_of_rest quiet.snaps n
  unfold afterLookups
  simp only [look_bind, id, lookup, phv, params]
  rw [bind_of_ok _ _ turns, bind_of_ok _ _ consumed, change_bind, settled]
  rfl

/-- The cycle of a quiet stage. -/
theorem exec_stageCycle_of_turns (hp : p < s.params.numPipes) (hst : st < s.params.numStages) {x : Surroundings}
    (entry : stageCycle p st s = afterLookups p st (s.cycling.within x)) {t : State}
    (rest : afterLookups p st (s.cycling.within x) = .ok () t) :
    exec (.stageCycle p st) s = .next (t.setResult .none) := by
  refine outcome_of_ok ?_
  rw [look_bind, id, if_pos ((stageExists_iff s.params p st).2 ⟨hp, hst⟩), bind_of_ok _ _ (entry.trans rest)]
  rfl

/-- The input data of an ALU depends on the launch record, the configuration and the PHV alone. -/
theorem aluInput_congr {t : State} (config : SameConfig s t) (phv : t.act.phv = s.act.phv) (kind : AluKind) (a : Nat) :
    aluInput t p st kind a = aluInput s p st kind a := by
  simp only [aluInput, aluDataOf, config.params, phv, State.flag_eq_of_cfg config.cfg]

end

/-- Settles O56: up to its lookups a quiet stage changes its surroundings alone, which no unit reads; each unit that is
addressed does in the cycle what its row does alone, and every other unit does nothing. -/
theorem quietStageIsTransparent : Obligations.QuietStageIsTransparent := by
  intro s p st hp hst quiet A
  obtain ⟨x, entry, surroundings⟩ := stageCycle_of_quiet quiet
  refine ⟨fun invalid nothing => ?_, ?_⟩
  · have turns := runAlus_of_quiet (p := p) (st := st) nothing (s.cycling.within x)
    have consumed := consumeAll_of_invalid (s := s.cycling.within x) (p := p) (st := st) invalid
    exact ⟨_, exec_stageCycle_of_turns hp hst entry (afterLookups_of_turns surroundings turns consumed),
      ⟨rfl, rfl, rfl, rfl, rfl, rfl, rfl, rfl, rfl, rfl, rfl, rfl⟩, rfl, rfl, rfl, rfl, invalid⟩
  · intro c e a raw sel salu stats s1 s2 s3 s4 s5 hc hsalu he ha others otherSel otherStats noMeter selKind saluKind
      counterTurn selTurn saluTurn statsTurn consumption running off outs
    have fits {t : State} (config : SameConfig s t) : p < t.params.numPipes ∧ st < t.params.numStages
        ∧ e < t.params.numSelAlu ∧ c < t.params.numSalu ∧ a < t.params.numStatsAlu := by
      rw [config.params]
      exact ⟨hp, hst, he, hsalu, ha⟩
    have input {t : State} (config : SameConfig s t) (kind : AluKind) (k : Nat) :
        aluInput (t.cycling.within x) p st kind k = aluInput s p st kind k :=
      aluInput_congr (t := t.cycling.within x) ⟨config.params, config.cfg⟩ surroundings.phv kind k
    let mas := (List.range (max s.params.numSalu s.params.numCtrs)).map fun k => if k = c then raw else A.ma.getD k 0
    have own : mas.getD c 0 = raw := by
      rw [getD_map_range, if_pos (lt_max_of_lt_left hsalu), if_pos rfl]
    have disabled (k : Nat) (hk : k ≠ c) : (mas.getD k 0).getLsbD 31 = false := by
      rw [getD_map_range, if_neg hk]
      split
      · exact (others k hk).2
      · rfl
    obtain ⟨counted, config₁⟩ := counter_in_turn (x := x) hp hst hc counterTurn
    obtain ⟨hp₁, hst₁, he₁, -⟩ := fits config₁
    obtain ⟨selected, config₂⟩ := selector_in_turn (x := x) hp₁ hst₁ he₁ selKind (input config₁ .sel e) selTurn
    obtain ⟨hp₂, hst₂, -, hsalu₂, -⟩ := fits (config₁.trans config₂)
    obtain ⟨executed, config₃⟩ := stateful_in_turn (x := x) hp₂ hst₂ hsalu₂ saluKind
      (fun k hk => allRaws_of_disabled (disabled k hk) (s2.cycling.within x))
      (input (config₁.trans config₂) .salu c) saluTurn
    obtain ⟨hp₃, hst₃, -, -, ha₃⟩ := fits ((config₁.trans config₂).trans config₃)
    obtain ⟨counts, config₄⟩ := stats_in_turn (x := x) hp₃ hst₃ ha₃ statsTurn
    obtain ⟨hp₄, hst₄, -⟩ := fits (((config₁.trans config₂).trans config₃).trans config₄)
    rw [← own] at executed
    have turns := runAlus_of_collects (s₀ := s.cycling.within x)
      (counters_one (lt_max_of_lt_left hsalu) hc (fun k hk => (others k hk).1) counted)
      (selectors_one he otherSel selected) (statefuls_one hsalu disabled executed)
      (stats_one ha otherStats counts) noMeter
    have consumed := consumeAll_in_turn (x := x) hp₄ hst₄ consumption running
    exact ⟨_, exec_stageCycle_of_turns hp hst entry (afterLookups_of_turns surroundings turns consumed),
      ⟨rfl, rfl, rfl, rfl, rfl, rfl, rfl, rfl, rfl, rfl, rfl, rfl⟩, rfl, rfl, rfl, rfl⟩

end Sys2Proof.Machine
end

section
/-! SUPPORT. The snapshot unit: when its own trigger accepts, the two kinds of its step, and what its second pass
captures (R362 to R375). -/

namespace Sys2Proof.Machine

section
variable {s : State} {p st : Nat}

/-- A row that only changes the state of the site's stage. -/
theorem outcome_atStage_change (hat : AtStage s p st) (f : Nat → Nat → State → State) :
    outcome (atStage fun p st => do
      change (f p st)
      pure .none) s = .next ((f p st s).setResult .none) :=
  outcome_of_ok (by rw [atStage_apply hat, change_bind]; rfl)

/-! ### The own trigger (R364 to R367) -/

/-- A container matches when its word is configured and accepts each bit of its value (R365). -/
theorem containerMatches_iff (params : Params) (w : Nat × Nat) (phv : Phv) (i : Nat) :
    containerMatches params w phv i = true ↔ (w.1 ≠ 0 ∨ w.2 ≠ 0) ∧ ∀ k < phvWidth params i,
      if (phv.getD i 0).testBit k then w.2.testBit k = true else w.1.testBit k = true := by
  have configured : (!(w.1 == 0 && w.2 == 0)) = true ↔ w.1 ≠ 0 ∨ w.2 ≠ 0 := by
    rw [Bool.not_and, Bool.or_eq_true, Bool.not_eq_true', Bool.not_eq_true', beq_eq_false_iff_ne, beq_eq_false_iff_ne]
  rw [containerMatches, Bool.and_eq_true, configured, tcamCompare_searchEncode_iff]
  refine and_congr_right fun _ => forall₂_congr fun k hk => ?_
  rw [phvGet, Nat.testBit_mod_two_pow, decide_eq_true hk, Bool.true_and]

theorem phvMatch_iff (g : Gress) (phv : Phv) : phvMatch s p st g phv = true ↔
    ∀ i < phvCount s.params, i ∉ s.params.phvDark →
      containerMatches s.params (snapMatchAt s p st g i) phv i = true := by
  rw [phvMatch, List.all_eq_true]
  refine forall_congr' fun i => ?_
  rw [List.mem_range, Bool.or_eq_true, List.contains_iff_mem, or_iff_not_imp_left]

theorem timeMatch_iff (g : Gress) (clock : Nat) : timeMatch s p st g clock = true ↔
    s.flag .snapTimeEnable [p, st, gressBit g] = true ∧
      s.field .snapTimeTrigger [p, st, gressBit g] ≤ clock % 2 ^ 48 := by
  rw [timeMatch, Bool.and_eq_true, decide_eq_true_eq]

/-! ### The step (R363) -/

/-- The clock of the unit of the PHV's gress after a step (R367). -/
def State.snapClock (s : State) (p st : Nat) : Nat :=
  advancedClock (s.snapUnit p st s.act.io.gress) (s.pipe p).cycle s.act.io.t

/-- The trigger that the unit evaluates when armed or trigger-happy (R364). -/
def State.snapOwn (s : State) (p st : Nat) : Bool :=
  phvMatch s p st s.act.io.gress s.act.phv || timeMatch s p st s.act.io.gress (s.snapClock p st)

/-- The unit of the PHV's gress becomes `u`, with its clock advanced, and the PHV goes on with this flag. -/
def State.snapPassed (s : State) (p st : Nat) (u : SnapUnit) (flag : Bool) : State :=
  (s.putSnapUnit p st s.act.io.gress { u with clock := s.snapClock p st }).setIo
    { s.act.io with snapTriggered := flag }

/-- A NOP only advances the clock and marks the time (R375). -/
theorem snapshotStep_of_nop (h : s.act.io.threadActive.getLsbD (gressBit s.act.io.gress) = false) :
    snapshotStep p st s = s.putSnapUnit p st s.act.io.gress
      { s.snapUnit p st s.act.io.gress with clock := s.snapClock p st, lastNop := s.act.io.t } := by
  rw [snapshotStep, h]
  rfl

/-- The clock takes no part in a first pass. -/
theorem firstPass_clock (fires : Bool) (u : SnapUnit) (io : IoObj) (n : Nat) :
    (if fires then firstPass { u with clock := n } io else { u with clock := n })
      = { (if fires then firstPass u io else u) with clock := n } := by
  cases fires <;> rfl

/-- What the table of states is asked: the unit's state, its own trigger if it evaluates one, and the incoming flag
(R362). -/
theorem snapshotStep_of_active (active : s.act.io.threadActive.getLsbD (gressBit s.act.io.gress) = true)
    {sn : SnapState} (hsn : (s.snapUnit p st s.act.io.gress).state = sn) {own : Bool}
    (hown : (evaluatesOwn sn && s.snapOwn p st) = own) :
    snapshotStep p st s = s.snapPassed p st
      (if snapFires sn own s.act.io.snapTriggered
        then firstPass (s.snapUnit p st s.act.io.gress) s.act.io else s.snapUnit p st s.act.io.gress)
      (flagOut sn own s.act.io.snapTriggered) := by
  subst hsn hown
  rw [snapshotStep, active, State.snapPassed, ← firstPass_clock]
  rfl

/-- A unit that captures passes the flag on set (R369). -/
theorem flagOut_of_fires {sn : SnapState} {own inFlag : Bool} (h : snapFires sn own inFlag = true) :
    flagOut sn own inFlag = true := by
  cases sn with
  | passive | full => exact absurd h Bool.false_ne_true
  | armed | triggerHappy => exact h

/-! ### The second pass (R372) -/

/-- A function listed at some keys, where it is not what an unlisted key reads as. -/
theorem Store.get_filter_map_keys {α : Type} [DecidableEq α] (d : α) (f : List Nat → α) (k : List Nat) :
    ∀ keys : List (List Nat), Store.get d ((keys.map fun k => (k, f k)).filter fun e => e.2 ≠ d) k
      = if k ∈ keys then f k else d
  | [] => rfl
  | k' :: keys => by
    have rest := Store.get_filter_map_keys d f k keys
    rw [List.map_cons]
    by_cases unlisted : f k' = d
    · rw [List.filter_cons_of_neg (by simpa using unlisted), rest]
      by_cases here : k = k'
      · subst here
        rw [unlisted, ite_self, ite_self]
      · simp [here]
    · rw [List.filter_cons_of_pos (by simpa using unlisted), Store.get_cons, rest]
      by_cases here : k' = k
      · simp [here]
      · simp [here, Ne.symm here]

/-- The keys of a stage's match buses in a capture. -/
def captureKeys (params : Params) : List (List Nat) :=
  (List.range params.numRows).flatMap fun r => (List.range params.numMatchBuses).map fun b => [r, b]

theorem mem_captureKeys {params : Params} {r b : Nat} (hr : r < params.numRows) (hb : b < params.numMatchBuses) :
    [r, b] ∈ captureKeys params :=
  List.mem_flatMap.2 ⟨r, List.mem_range.2 hr, List.mem_map_of_mem (List.mem_range.2 hb)⟩

theorem captureBusHits_eq : captureBusHits s p st
    = ((captureKeys s.params).map fun k => (k, busHitAddr s .matchBus (p :: st :: k))).filter fun e => e.2 ≠ 0 := by
  simp only [captureBusHits, captureKeys, List.map_flatMap, List.map_map, Function.comp_def]

theorem get_captureBusHits {r b : Nat} (hr : r < s.params.numRows) (hb : b < s.params.numMatchBuses) :
    Store.get 0 (captureBusHits s p st) [r, b] = busHitAddr s .matchBus [p, st, r, b] := by
  rw [captureBusHits_eq, Store.get_filter_map_keys, if_pos (mem_captureKeys hr hb)]

/-- A loop that overwrites the selected indices of a store. -/
theorem get_foldl_set_if {α : Type} [DecidableEq α] (d : α) (sel : Nat → Bool) (f : Nat → α) (k : Nat) :
    ∀ (l : List Nat) (m : Store α),
      Store.get d (l.foldl (fun acc i => if sel i then Store.set d acc [i] (f i) else acc) m) [k]
        = if k ∈ l ∧ sel k then f k else Store.get d m [k]
  | [], m => by simp
  | i :: l, m => by
    rw [List.foldl_cons, get_foldl_set_if d sel f k l]
    by_cases here : k = i
    · subst here
      cases chosen : sel k <;> simp
    · cases chosen : sel i <;> simp [here, Store.get_set]

theorem get_capturePhv (g : Gress) (old : Store Nat) {i : Nat} (hi : i < phvCount s.params) :
    Store.get 0 (capturePhv s p st g old) [i]
      = if s.flag .snapCaptureSel [p, st, gressBit g, i] then phvGet s.params s.act.phv i
        else Store.get 0 old [i] := by
  rw [capturePhv, get_foldl_set_if 0 (fun i => s.flag .snapCaptureSel [p, st, gressBit g, i])]
  simp only [List.mem_range, hi, true_and]

theorem finalizeSnapshot_of_settled (h : (s.snapUnit p st s.act.io.gress).pending = false) (nextTable : BitVec 8) :
    finalizeSnapshot p st nextTable s = s := by
  rw [finalizeSnapshot, h]
  rfl

theorem finalizeSnapshot_of_pending (h : (s.snapUnit p st s.act.io.gress).pending = true) (nextTable : BitVec 8) :
    finalizeSnapshot p st nextTable s = (s.putSnapUnit p st s.act.io.gress
      (finalized s p st nextTable (s.snapUnit p st s.act.io.gress))).setIrq (.snapshot p st s.act.io.gress) := by
  rw [finalizeSnapshot, h]
  rfl

end

end Sys2Proof.Machine
end

section
/-! PROOF. The step of a snapshot unit, the two passes of its capture and the host's change of its state (R362 to R375,
R494). -/

namespace Sys2Proof.Machine

section
variable {s : State} {p st : Nat}

/-- The unit's own trigger in the words of the obligation. -/
theorem snapOwn_iff : s.snapOwn p st = true ↔
    (∀ i < s.params.phvN32 + s.params.phvN8 + s.params.phvN16, i ∉ s.params.phvDark →
      ((snapMatchAt s p st s.act.io.gress i).1 ≠ 0 ∨ (snapMatchAt s p st s.act.io.gress i).2 ≠ 0)
      ∧ ∀ k < phvWidth s.params i, if (s.act.phv.getD i 0).testBit k
        then (snapMatchAt s p st s.act.io.gress i).2.testBit k = true
        else (snapMatchAt s p st s.act.io.gress i).1.testBit k = true)
    ∨ (s.flag .snapTimeEnable [p, st, gressBit s.act.io.gress] = true
      ∧ s.field .snapTimeTrigger [p, st, gressBit s.act.io.gress] ≤ s.snapClock p st % 2 ^ 48) := by
  rw [State.snapOwn, Bool.or_eq_true, phvMatch_iff, timeMatch_iff]
  simp only [containerMatches_iff, phvCount]

theorem exec_snapStep (hat : AtStage s p st) : exec .snapStep s = .next ((snapshotStep p st s).setResult .none) :=
  outcome_atStage_change hat snapshotStep

/-- The unit captures, and the flag goes on set. -/
theorem exec_snapStep_of_fires (hat : AtStage s p st)
    (active : s.act.io.threadActive.getLsbD (gressBit s.act.io.gress) = true) {sn : SnapState}
    (hsn : (s.snapUnit p st s.act.io.gress).state = sn) {own : Bool} (hown : (evaluatesOwn sn && s.snapOwn p st) = own)
    (fires : snapFires sn own s.act.io.snapTriggered = true) :
    exec .snapStep s = .next
      ((s.snapPassed p st (firstPass (s.snapUnit p st s.act.io.gress) s.act.io) true).setResult .none) := by
  rw [exec_snapStep hat, snapshotStep_of_active active hsn hown, if_pos fires, flagOut_of_fires fires]

/-- The unit captures nothing, and the flag goes on by the table. -/
theorem exec_snapStep_of_idle (hat : AtStage s p st)
    (active : s.act.io.threadActive.getLsbD (gressBit s.act.io.gress) = true) {sn : SnapState}
    (hsn : (s.snapUnit p st s.act.io.gress).state = sn) {own : Bool} (hown : (evaluatesOwn sn && s.snapOwn p st) = own)
    (idle : snapFires sn own s.act.io.snapTriggered = false) {flag : Bool}
    (passes : flagOut sn own s.act.io.snapTriggered = flag) :
    exec .snapStep s = .next ((s.snapPassed p st (s.snapUnit p st s.act.io.gress) flag).setResult .none) := by
  rw [exec_snapStep hat, snapshotStep_of_active active hsn hown, idle, passes]
  rfl

theorem exec_snapSetState (hat : AtStage s p st) (g : Gress) (sn : BitVec 2) :
    exec (.snapSetState p st g sn) s = .next ((s.putSnapUnit p st g
      { s.snapUnit p st g with state := snapStateOf sn, pending := false }).setResult .none) := by
  refine outcome_of_ok ?_
  rw [look_bind, id, if_pos (stageExists_of_at hat), change_bind]
  rfl

end

/-- Settles O42: a NOP marks its time; else the step is the row of the table of states for the unit's state, its own
trigger and the incoming flag. -/
theorem snapshotStepFollowsTheTable : Obligations.SnapshotStepFollowsTheTable := by
  intro s p st hat io g bit u clock time accepts bits phvs own done captured
  have trigger : s.snapOwn p st = true ↔ own := snapOwn_iff
  have rest (h : ¬ own) : s.snapOwn p st = false := Bool.eq_false_iff.2 (h ∘ trigger.1)
  refine ⟨fun nop => ?_, fun active => ⟨fun passive => ?_, fun full => ?_, fun armed => ⟨fun h => ?_, fun h => ?_⟩,
    fun happy => ⟨fun h => ?_, fun h unset => ?_⟩⟩⟩
  · rw [exec_snapStep hat, snapshotStep_of_nop nop]
    rfl
  · exact exec_snapStep_of_idle hat active passive (Bool.false_and _) rfl rfl
  · exact exec_snapStep_of_idle hat active full (Bool.false_and _) rfl rfl
  · exact exec_snapStep_of_fires hat active armed (trigger.2 h) rfl
  · exact exec_snapStep_of_idle hat active armed (rest h) rfl rfl
  · have fires : (s.snapOwn p st || io.snapTriggered) = true := by rwa [Bool.or_eq_true, trigger]
    exact exec_snapStep_of_fires hat active happy (Bool.true_and _) fires
  · exact exec_snapStep_of_idle hat active happy (rest h) unset unset

/-- Settles O43: the first pass is a record update; the second, when pending, is the unit `finalized` and its
interrupt. -/
theorem snapshotCapturesInTwoPasses : Obligations.SnapshotCapturesInTwoPasses := by
  intro s p st hat io g u
  have second (nt : BitVec 8) : exec (.snapFinalizeSnapshot nt) s
      = .next ((finalizeSnapshot p st nt s).setResult .none) :=
    outcome_atStage_change hat fun p st => finalizeSnapshot p st nt
  refine ⟨?_, fun nt settled => ?_, fun nt pending => ⟨finalized s p st nt u, ?_, rfl, ?_, ?_⟩,
    exec_snapSetState hat⟩
  · exact outcome_atStage_change hat fun p st s =>
      s.putSnapUnit p st s.act.io.gress (firstPass (s.snapUnit p st s.act.io.gress) s.act.io)
  · rw [second, finalizeSnapshot_of_settled settled]
  · rw [second, finalizeSnapshot_of_pending pending]
  · exact fun r hr b hb => get_captureBusHits hr hb
  · exact fun i hi => get_capturePhv g u.capPhv hi

end Sys2Proof.Machine
end

section
/-! SUPPORT. The rule of the epochs and the rule of the interval masks (R396, R417): the operations that can write what
they speak of. -/

namespace Sys2Proof.Machine

/-! ### Operations that write neither a table control nor the configuration -/

/-- The operations that may write a table control, a configuration field or an interval mask. -/
def writesRules : Instr → Bool
  | .setField _ _ _ _ => true
  | .intervalSet _ | .lock _ | .unlock _ | .sweep _ | .dump _ | .dumpWord _ | .evictWord _ | .barrier _ => true
  | .swpIncLock _ _ | .swpDecLock _ _ | .swpOpStartStop _ _ _ | .swpIsLockedElseOpStart _ _ => true
  | _ => false

theorem Acts.answer {α : Type} {R : State → State → Prop} {m : M α} (h : Acts R m) (f : α → Ret) :
    Acts R (m >>= fun a => pure (f a)) :=
  h.bind fun _ => acts_pure _

theorem confined_change_answer {α : Type} {f : State → State} {a : α}
    (h : ∀ s, Unjudged s (f s)) :
    Confined (change f >>= fun _ => pure a) :=
  (confined_change h).bind fun _ => acts_pure _

theorem outcome_unitStep {m : M Ret} {s t : State} (e : outcome m s = .next t) (h : Confined m) : UnitStep s t :=
  outcome_acts .refl (fun _ s r h =>
    have answered : Unjudged s (s.setResult r) := rfl
    h.trans answered.unitStep) h e

theorem answer_unitStep {r : Ret} {s t : State} (e : answer r s = .next t) : UnitStep s t :=
  outcome_unitStep e (acts_pure r)

theorem answerWithin64_unitStep {len : Nat} {r : Ret} {s t : State} (e : answerWithin64 len r s = .next t) :
    UnitStep s t := by
  unfold answerWithin64 at e
  split at e
  · exact answer_unitStep e
  · cases e

theorem setConfig_unitStep {key value : String} {s t : State} (e : execSetConfig key value s = .next t) :
    UnitStep s t := by
  refine outcome_unitStep e (acts_look_bind fun s => ?_)
  split
  case h_1 => exact acts_pure _
  case h_2 =>
    split
    · exact acts_pure _
    · exact confined_change_answer fun _ => rfl

/-- A host access to an entry of a table that is no RAM of words. -/
theorem confined_entryAccess (a : RamAddr) {f : Bool → M Ret} (h : ∀ ok, Confined (f ok)) :
    Confined (entryInRange a >>= f) :=
  (confined_entryInRange a).bind h

theorem ramWrite_unitStep {addr : RamAddr} {value : RamVal} {s t : State}
    (e : execRamWrite addr value s = .next t) : UnitStep s t := by
  have entry {f : State → State} (h : ∀ s, Unjudged s (f s)) :
      Confined (entryInRange addr >>= fun ok =>
        if ok = true then change f >>= fun _ => pure Ret.none else pure Ret.none) :=
    confined_entryAccess addr fun _ => .ite (confined_change_answer h) (acts_pure _)
  refine outcome_unitStep e ?_
  split
  case h_5 | h_6 => exact entry fun _ => rfl
  case h_7 => exact acts_refuse _
  all_goals exact (confined_memWrite _ _).answer _

theorem ramRead_unitStep {addr : RamAddr} {s t : State} (e : execRamRead addr s = .next t) : UnitStep s t := by
  refine outcome_unitStep e ?_
  split
  case h_1 | h_2 => exact confined_entryAccess addr fun _ => acts_look _
  all_goals exact (confined_memRead _).answer _

theorem drainEvict_unitStep {pipe stage alu : Nat} {s t : State} (e : execDrainEvict pipe stage alu s = .next t) :
    UnitStep s t := by
  refine outcome_unitStep e (acts_look_bind fun s => .ite ?_ (acts_refuse _))
  split
  · exact acts_pure _
  · exact confined_change_answer fun _ => rfl

theorem opCreate_unitStep {opcode : BitVec 4} {atype : AType} {table : TableId} {arg : BitVec 64} {queue : QueueSel}
    {s t : State} (e : execOpCreate opcode atype table arg queue s = .next t) : UnitStep s t := by
  have queued (op : Op) (s : State) : Unjudged s (enqueueOp queue op s) := by cases queue <;> rfl
  refine outcome_unitStep e (acts_look_bind fun s => ?_)
  split
  · exact acts_refuse _
  · exact .ite (confined_change_answer (queued _)) (confined_raise_bind _ _ fun _ => acts_pure _)

theorem enqueue_unitStep {port : Nat} {bytes : List Byte} {s t : State} (e : execEnqueue port bytes s = .next t) :
    UnitStep s t := by
  refine outcome_unitStep e (acts_look_bind fun _ => .ite ?_ (confined_raise_bind _ _ fun _ => acts_pure _))
  exact confined_freshId.bind fun _ => confined_change_bind (fun _ => rfl) fun _ => confined_packetArrived.answer _

/-- Every operation but those that may write a table control, a configuration field or an interval mask is a step that
leaves them as they are. -/
theorem exec_unitStep {i : Instr} {s t : State} (rules : writesRules i = false) (h : exec i s = .next t) :
    UnitStep s t := by
  cases i with
  | setField | intervalSet | lock | unlock | sweep | dump | dumpWord | evictWord | barrier | swpIncLock | swpDecLock
  | swpOpStartStop | swpIsLockedElseOpStart => cases rules
  -- units of a stage
  | statsNop a | stats a | cfgRd a | cfgRdclr a => exact outcome_unitStep h (confined_statsOp _ a)
  | statsDisabled rest => exact outcome_unitStep h (confined_atStats fun _ _ _ => acts_pure _)
  | maNop a | maDisabled rest => exact outcome_unitStep h (confined_atSalu fun _ _ _ => acts_pure _)
  | saluExec a =>
    refine outcome_unitStep h (confined_atSalu fun _ _ _ => acts_look_bind fun _ => ?_)
    exact (confined_saluExecute _ _ _ _ _ _ _ _).answer _
  | selExec a =>
    refine outcome_unitStep h (confined_atSel fun _ _ _ => acts_look_bind fun _ => ?_)
    exact (confined_selRun _ _ _ _ _ _).answer _
  | maCfgRd a => exact outcome_unitStep h (confined_atSalu fun _ _ _ => (confined_maRead _ _ _ _ _).answer _)
  | cmpEq c | cmpNe c | cmpDisabled c | cmpGtS c | cmpGeS c | cmpLtS c | cmpLeS c | cmpGtU c | cmpGeU c | cmpLtU c
  | cmpLeU c | cmpGtUus c | cmpGeUus c | cmpLtUus c | cmpLeUus c => exact outcome_unitStep h (confined_cmpRow _ c)
  | aNop u | aAdd u | aSub u | aSubr u | aSaddu u | aSadds u | aSsubu u | aSsubs u | aMinu u | aMins u | aMaxu u
  | aMaxs u | aAddc u | aSubc u => exact outcome_unitStep h (confined_arithRow _ u)
  | lSetz u | lNor u | lAndca u | lNota u | lAndcb u | lNotb u | lXor u | lNand u | lAnd u | lXnor u | lB u | lOrca u
  | lA u | lOrcb u | lOr u | lSethi u => exact outcome_unitStep h (confined_logicRow _ u)
  | oNone o | oRamLo o | oRamHi o | oPhvLo o | oPhvHi o | oAluLo o | oAluHi o | oPred o | oDiv o | oMod o | oMmValue o
  | oMmIndex o | oBitOld o => exact outcome_unitStep h (confined_outRow _ o)
  | bitNop m | bitRead m | bitReadc m | bitSet m | bitSetc m | bitClr m | bitClrc m =>
    exact outcome_unitStep h (confined_bitRow _ m)
  | modeDual m bitOp =>
    refine outcome_unitStep h (confined_atSalu fun _ _ _ => ?_)
    exact (confined_miscDual _ _ _ _).bind fun _ => acts_look_bind fun _ => acts_pure _
  | modeMinmax m bitOp => exact outcome_unitStep h (confined_atSalu fun _ _ _ => (confined_miscMinMax _ _ _ _).answer _)
  | divMod d =>
    refine outcome_unitStep h (confined_atSalu fun _ _ _ => ?_)
    exact (confined_setWidth _ _ _ _).bind fun _ => (confined_divide _ _ _ _ _).answer _
  | mmMin m | mmMax m => exact outcome_unitStep h (confined_atSalu fun _ _ _ => (confined_minMax _ _ _ _ _).answer _)
  | rowGetHashIndex col | rowHitAddress | rowAluData alu =>
    exact outcome_unitStep h (confined_atRow fun _ _ _ => acts_look _)
  | rowExactLookup col =>
    exact outcome_unitStep h (confined_atRow fun _ _ _ =>
      confined_lookupInMode _ _ _ _ _ (confined_exactLookup _ _ _ _))
  | rowTindLookup col =>
    exact outcome_unitStep h (confined_atRow fun _ _ _ =>
      confined_lookupInMode _ _ _ _ _ (confined_tindLookup _ _ _ _))
  | rowTernaryLookup lt =>
    exact outcome_unitStep h (confined_atRow fun _ _ _ => (confined_ternaryLookup _ _ _).bind fun _ => acts_look _)
  | rowGatewayLookup => exact outcome_unitStep h (confined_atRow fun _ _ _ => (confined_runGateway _ _ _).answer _)
  | rowSetMatchOutputBus bus output col | rowSetTindOutputBus bus output col =>
    exact outcome_unitStep h (confined_busOp _ bus output col)
  | rowResetResources => exact outcome_unitStep h (confined_atRow fun _ _ _ => confined_change_answer fun _ => rfl)
  | selResilient pv hash52 | selPlanB pv hash52 => exact outcome_unitStep h (confined_atSel fun _ _ _ => acts_look _)
  | selFair pv hash52 => exact outcome_unitStep h (confined_atSel fun _ _ _ => (confined_fairIndex _ _ _ _ _).answer _)
  | snapStep =>
    exact outcome_unitStep h (confined_atStage fun p st => confined_change_answer (unjudged_snapshotStep p st))
  | snapFirstPass => exact outcome_unitStep h (confined_atStage fun _ _ => confined_change_answer fun _ => rfl)
  | snapFinalizeSnapshot nextTable =>
    exact outcome_unitStep h (confined_atStage fun p st =>
      confined_change_answer (unjudged_finalizeSnapshot p st nextTable))
  | teopBusesAtHdrtime lt | teopBusesAtTeoptime lt =>
    exact outcome_unitStep h (confined_atStage fun _ _ => acts_look_bind fun _ =>
      confined_change_answer fun _ => rfl)
  | teopDelayRequired lt bus => exact outcome_unitStep h (confined_atStage fun _ _ => acts_look _)
  | teopOutputStatsAddr lt alu addr | teopOutputMeterAddr lt alu addr =>
    exact outcome_unitStep h (confined_atStage fun _ _ => (confined_outputAddr _ _ _ _ _ _).answer _)
  | teopConsume => exact outcome_unitStep h (confined_atStage fun _ _ => (confined_consumeAll _ _).answer _)
  | stageCycle p st =>
    exact outcome_unitStep h (acts_look_bind fun _ => .ite ((confined_stageCycle p st).answer _) (acts_refuse _))
  -- units that the sweeper path invokes too
  | statsDumpEntry word subword =>
    exact outcome_unitStep h (confined_atStats fun _ _ _ => (confined_dumpEntry _ _ _ _ _).answer _)
  | statsLrtCheck a pkt byt =>
    refine outcome_unitStep h (confined_atStats fun _ _ _ => (confined_statsValidate _ _ _ _ _).bind fun fmt => ?_)
    cases fmt
    · exact acts_pure _
    · exact (confined_lrt _ _ _ _ _ _ _).answer _
  | ctrPushFifo c | ctrPushStack c =>
    exact outcome_unitStep h (confined_pointerOp c fun _ _ => confined_pushCtr _ _ _)
  | ctrPopFifo c => exact outcome_unitStep h (confined_pointerOp c fun _ _ => confined_popFifo _ _ _)
  | ctrPopStack c => exact outcome_unitStep h (confined_pointerOp c fun _ _ => confined_popStack _ _ _)
  | ctrWatermark c pop => exact outcome_unitStep h (confined_counterOp c fun _ _ => confined_watermark _ _ _ _)
  | ctrStartClearAt c t => exact outcome_unitStep h (confined_counterOp c fun _ _ => confined_startClearAt _ _ _ _)
  | ctrClearStep c => exact outcome_unitStep h (confined_counterOp c fun _ _ => confined_clearStep _ _ _)
  | ctrContinueClearTill c tStop =>
    exact outcome_unitStep h (confined_counterOp c fun _ _ => confined_continueClearTill _ _ _ _)
  | ctrMaybeSynchronousClear c =>
    exact outcome_unitStep h (confined_counterOp c fun _ _ => confined_maybeSynchronousClear _ _ _)
  -- the sweeper
  | swpLockWait t a => exact outcome_unitStep h (confined_onTable _ (acts_look _))
  | swpTimerTick =>
    exact outcome_unitStep (show execSwpTimerTick s = .next t from h) (confined_change_answer fun _ => rfl)
  -- pure functions and the trap entry
  | bvGetWord n v off len | bvSetWord n v value off len => exact answerWithin64_unitStep h
  | bvFromWords | bvTcamCompare | bvSearchEncode | bvMaskedS0q1S1q0Equals | bvMaskedEquals | bvPopcountParity
  | bvByteShift | bvExtractInto | bvSetFrom => exact answer_unitStep h
  | fault rec =>
    refine outcome_unitStep (show execFault rec s = .next t from h) (fun _ s hs => ?_)
    exact ⟨hs.trans (unjudged_enterFault s rec).unitStep, not_running_enterFault s rec⟩
  -- host commands
  | enqueue port bytes => exact enqueue_unitStep h
  | enqueuePkt port pkt pgen =>
    exact outcome_unitStep h (acts_look_bind fun _ =>
      .ite (confined_handOver _ _ fun _ => rfl) (confined_handOver _ _ fun _ => rfl))
  | enqueueResubmit pkt => exact outcome_unitStep h (acts_look_bind fun _ => confined_handOver _ _ fun _ => rfl)
  | enqueueFromTm pkt pipe =>
    exact outcome_unitStep (show execEnqueueFromTm pkt pipe s = .next t from h) (confined_handOver _ _ fun _ => rfl)
  | waitForIdle =>
    exact outcome_unitStep (show execWaitForIdle s = .next t from h) (acts_look_bind fun _ =>
      .ite (acts_pure _) (confined_change_answer fun _ => rfl))
  | stop =>
    exact outcome_unitStep (show execStop s = .next t from h)
      (confined_change_bind (fun _ => rfl) fun _ => confined_stopPoll)
  | start =>
    exact outcome_unitStep (show execStart s = .next t from h) (confined_change_bind (fun _ => rfl) fun _ =>
      confined_change_answer fun _ => unjudged_foldl unjudged_startWorker _ _)
  | getField name idx part => exact outcome_unitStep (show execGetField name idx part s = .next t from h) (acts_look _)
  | setConfig key value => exact setConfig_unitStep h
  | ramWrite addr value => exact ramWrite_unitStep h
  | ramRead addr => exact ramRead_unitStep h
  | opCreate opcode atype table arg queue => exact opCreate_unitStep h
  | drainEvict pipe stage alu => exact drainEvict_unitStep h
  | snapSetState pipe stage gress sn =>
    exact outcome_unitStep h (acts_look_bind fun _ => .ite (confined_change_answer fun _ => rfl) (acts_refuse _))
  | irqAck source =>
    exact outcome_unitStep (show execIrqAck source s = .next t from h) (confined_change_answer fun _ => rfl)
  | ctrStartClear pipe stage ctr =>
    exact outcome_unitStep h (acts_look_bind fun _ => .ite (confined_withCounter _ _ _
      ((confined_startClearAt _ _ _ _).answer _)) (acts_refuse _))
  -- the coordinator
  | coordWorkerScan w => exact outcome_unitStep h (acts_onWorker w ((confined_workerScan w).answer _))
  | coordWorkerProcess w => exact outcome_unitStep h (acts_onWorker w ((confined_workerProcess w).answer _))
  | coordDequeue p => exact outcome_unitStep h (acts_onPipe p ((confined_dequeue p).answer _))
  | coordSelectInput p => exact outcome_unitStep h (acts_onPipe p ((confined_selectInput p).answer _))
  | coordIngressActivation p pkt =>
    exact outcome_unitStep h (acts_onPipe p ((confined_ingressActivation p pkt).answer _))
  | coordEgressActivation p pkt =>
    exact outcome_unitStep h (acts_onPipe p ((confined_egressActivation p pkt).answer _))
  | coordRelease w p n =>
    exact outcome_unitStep h (acts_onWorker w (acts_onPipe p (confined_change_answer fun _ => rfl)))
  | coordPacketArrived => exact outcome_unitStep h (confined_packetArrived.answer _)
  | coordWaitForPackets w =>
    exact outcome_unitStep h (acts_onWorker w (confined_change_answer (unjudged_workerWake w)))
  | coordTransmit pkt =>
    exact outcome_unitStep (show execCoordTransmit pkt s = .next t from h) (confined_change_answer fun _ => rfl)

end Sys2Proof.Machine
end

section
/-! PROOF. Every step keeps the rule of the epochs and the rule of the interval masks (R396, R417). -/

namespace Sys2Proof.Machine

/-! ### What keeps the two rules -/

/-- "`epoch = 0` iff `lock_count = 0`", of one control (R396). -/
abbrev LegalCtl (c : TableOpCtl) : Prop := c.epoch = 0 ↔ c.lockCount = 0

/-- The rule of the epochs and the rule of the interval masks stay true. -/
structure KeepsRules (s t : State) : Prop where
  epochs : EpochRule s → EpochRule t
  masks : MasksHold s → MasksHold t

theorem KeepsRules.refl (s : State) : KeepsRules s s := ⟨id, id⟩

theorem KeepsRules.trans {a s t : State} (h : KeepsRules a s) (h' : KeepsRules s t) : KeepsRules a t :=
  ⟨fun ha => h'.epochs (h.epochs ha), fun ha => h'.masks (h.masks ha)⟩

theorem epochRule_of_ctl {s t : State} (h : t.swp.ctl = s.swp.ctl) (hs : EpochRule s) : EpochRule t := by
  intro tab a
  rw [State.ctl, h]
  exact hs tab a

/-- The masks hold where the launch record, the configuration and the masks are the same (R417). -/
theorem masksHold_of_eq {s t : State} (hp : t.params = s.params) (hc : t.cfg = s.cfg)
    (hg : t.swp.maskGlobal = s.swp.maskGlobal) (hst : t.swp.maskStage = s.swp.maskStage) (hs : MasksHold s) :
    MasksHold t := by
  have sweeps (p st lt : Nat) (a : AType) (i : Nat) : sweepsAt t p st lt a i = sweepsAt s p st lt a i := by
    rw [sweepsAt, sweepsAt, State.flag_eq_of_cfg hc, State.field_eq_of_cfg hc]
  simpa only [MasksHold, sweeps, hp, hg, hst] using hs

theorem UnitStep.keepsRules {s t : State} (h : UnitStep s t) : KeepsRules s t :=
  ⟨epochRule_of_ctl h.controls, masksHold_of_eq h.params h.cfg h.maskGlobal h.maskStage⟩

theorem Unjudged.keepsRules {s t : State} (h : Unjudged s t) : KeepsRules s t := h.unitStep.keepsRules

/-- A control that is replaced by a legal one. -/
theorem keepsRules_putCtl {s : State} {t : TableId} {a : AType} {c : TableOpCtl}
    (h : LegalCtl (s.ctl t a) → LegalCtl c) : KeepsRules s (s.putCtl t a c) := by
  refine ⟨fun hs t' a' => ?_, masksHold_of_eq rfl rfl rfl rfl⟩
  rw [State.ctl_putCtl]
  split
  · exact h (hs t a)
  · exact hs t' a'

/-- The masks are recomputed; what went before wrote no control. -/
theorem keepsRules_recomputeMasks {s t : State} (h : t.swp.ctl = s.swp.ctl) : KeepsRules s (recomputeMasks t) :=
  ⟨epochRule_of_ctl h, fun _ => masksHold_recomputeMasks t⟩

theorem Acts.keepsRules {α : Type} {m : M α} (h : Confined m) : Acts KeepsRules m :=
  h.mono .refl fun _ _ _ ha hs => ha.trans hs.keepsRules

theorem keepsRules_unjudged {f : State → State} (h : ∀ s, Unjudged s (f s)) : Acts KeepsRules (change f) :=
  (confined_change h).keepsRules

theorem keepsRules_change {f : State → State} (h : ∀ s, KeepsRules s (f s)) : Acts KeepsRules (change f) :=
  acts_change fun _ s hs => hs.trans (h s)

/-! ### The controls of a table (R398 to R404) -/

/-- The first lock takes an epoch that is not 0; a further lock keeps the epoch (R398). -/
theorem legalCtl_lockedCtl {c : TableOpCtl} (h : LegalCtl c) : LegalCtl (lockedCtl c) := by
  unfold lockedCtl
  split
  · have ticked : (if c.lastEpoch = 255 then (1 : BitVec 8) else c.lastEpoch + 1) ≠ 0 := by
      split <;> bv_omega
    simpa [LegalCtl] using ticked
  · rename_i locked
    have unlocked : c.epoch ≠ 0 := fun e => locked (h.1 e)
    simpa [LegalCtl] using unlocked

/-- Unlocking the last lock resets the epoch; any other keeps it (R400). -/
theorem legalCtl_unlockedCtl {c : TableOpCtl} (h : LegalCtl c) : LegalCtl (unlockedCtl c) := by
  unfold unlockedCtl
  split
  · simp [LegalCtl]
  · have last : c.lockCount = 0 ↔ c.lockCount - 1 = 0 := by omega
    exact h.trans last

theorem keepsRules_incLock (t : TableId) (a : AType) (s : State) : KeepsRules s (incLock t a s) :=
  keepsRules_putCtl legalCtl_lockedCtl

theorem keepsRules_opStart (t : TableId) (a : AType) (s : State) : KeepsRules s (opStart t a s) :=
  keepsRules_putCtl id

theorem keepsRules_opStop (t : TableId) (a : AType) (s : State) : KeepsRules s (opStop t a s) :=
  keepsRules_putCtl id

theorem keepsRules_decLock (t : TableId) (a : AType) : Acts KeepsRules (decLock t a) :=
  acts_look_bind fun _ => .ite (confined_raise _ _).keepsRules
    (keepsRules_change fun _ => keepsRules_putCtl legalCtl_unlockedCtl)

/-! ### The steps of the sweeper (R406 to R417) -/

theorem keepsRules_beginOp (op : Op) : Acts KeepsRules (beginOp op) := by
  unfold beginOp
  cases op.opcode
  case intervalSet => exact .ite (keepsRules_change fun _ => keepsRules_recomputeMasks rfl) (acts_refuse _)
  case lock => exact keepsRules_change fun s =>
    (keepsRules_incLock op.table op.atype s).trans (Unjudged.keepsRules rfl)
  case unlock => exact (keepsRules_decLock _ _).bind fun _ => keepsRules_unjudged fun _ => rfl
  case barrier => exact keepsRules_unjudged fun _ => rfl
  all_goals exact acts_look_bind fun _ => .ite (acts_pure _) <| keepsRules_change fun s =>
    (keepsRules_opStart op.table op.atype s).trans (Unjudged.keepsRules rfl)

theorem keepsRules_finishWork (op : Op) : Acts KeepsRules (finishWork op) := by
  have leave : Acts KeepsRules (change fun s => opStop op.table op.atype
      (s.setSwp { s.swp with inFlight := s.swp.inFlight.erase op })) := keepsRules_change fun s =>
    have erased : Unjudged s (s.setSwp { s.swp with inFlight := s.swp.inFlight.erase op }) := rfl
    erased.keepsRules.trans (keepsRules_opStop _ _ _)
  exact acts_look_bind fun _ => .ite leave ((confined_work op).keepsRules.bind fun _ => leave)

theorem keepsRules_sweeperBegin : Acts KeepsRules sweeperBegin := by
  have begins {f : State → State} (op : Op) (h : ∀ s, Unjudged s (f s)) :
      Acts KeepsRules (change f >>= fun _ => beginOp op) :=
    (confined_change h).keepsRules.bind fun _ => keepsRules_beginOp op
  refine acts_look_bind fun s => ?_
  split
  case h_3 => exact acts_pure _
  all_goals exact .ite (begins _ fun _ => rfl) (acts_pure _)

theorem keepsRules_sweeperFinish (k : Nat) : Acts KeepsRules (sweeperFinish k) := by
  refine acts_look_bind fun s => ?_
  split
  · exact keepsRules_finishWork _
  · exact acts_pure _

theorem keepsRules_opRow (opcode : OpCode) (o : OpFields) : Acts KeepsRules (opRow opcode o) := by
  refine Acts.answer (acts_look_bind fun _ => ?_) _
  exact .ite (confined_raise _ _).keepsRules <| .ite (keepsRules_finishWork _) <|
    .ite (confined_change (unjudged_completeLock _)).keepsRules <| .ite (keepsRules_beginOp _)
      (keepsRules_unjudged fun _ => rfl)

/-! ### The host's writes (R485) -/

theorem unjudged_writeState {s t : State} {name : FieldName} {idx : List Nat} {v : BitVec 64}
    (h : writeState s name idx v = some t) : t.params = s.params ∧ t.cfg = s.cfg ∧ t.swp = s.swp := by
  unfold writeState at h
  split at h
  case h_3 => cases h
  all_goals
    obtain ⟨x, -, rfl⟩ := Option.map_eq_some_iff.1 h
    exact ⟨rfl, rfl, rfl⟩

/-- A field that feeds no mask is not one of those that the masks are functions of (R417). -/
theorem sweepsAt_writeField {s : State} {name : FieldName} {idx parts : List Nat} (part width : Nat) (v : BitVec 64)
    (hp : fieldParts s.params name idx = some parts) (h : ¬ isSweepField name = true) (p st lt : Nat) (a : AType)
    (i : Nat) : sweepsAt (writeField name idx part width v s) p st lt a i = sweepsAt s p st lt a i := by
  have kept (n : FieldName) (k : List Nat) (hn : isSweepField n = true) :
      (writeField name idx part width v s).field n k = s.field n k :=
    field_writeField_other hp fun e => h (by rw [← (Prod.mk.inj e).1]; exact hn)
  rw [sweepsAt, sweepsAt, State.flag, State.flag, kept _ _ rfl, kept _ _ rfl]

theorem keepsRules_writeField {s : State} {name : FieldName} {idx parts : List Nat} (part width : Nat) (v : BitVec 64)
    (hp : fieldParts s.params name idx = some parts) : KeepsRules s (writeField name idx part width v s) := by
  have ctl : (writeField name idx part width v s).swp.ctl = s.swp.ctl := by rw [writeField_eq]; rfl
  refine ⟨epochRule_of_ctl ctl, fun hs => ?_⟩
  by_cases h : isSweepField name = true
  · exact masksHold_writeField h
  · simpa only [MasksHold, sweepsAt_writeField part width v hp h, params_writeField, swp_writeField_of_not h] using hs

theorem keepsRules_setFieldOp {s t : State} {name : FieldName} {idx : List Nat} {part : Nat} {v : BitVec 64}
    (h : setFieldOp s name idx part v = some t) : KeepsRules s t := by
  unfold setFieldOp at h
  split at h
  · rename_i parts hp
    split at h
    · cases h
      exact keepsRules_writeField _ _ _ hp
    · cases h
  · split at h
    · obtain ⟨hp, hc, hs⟩ := unjudged_writeState h
      exact ⟨epochRule_of_ctl (by rw [hs]), masksHold_of_eq hp hc (by rw [hs]) (by rw [hs])⟩
    · cases h

/-! ### Every operation and every step -/

theorem outcome_keepsRules {m : M Ret} (h : Acts KeepsRules m) {s t : State} (e : outcome m s = .next t) :
    KeepsRules s t :=
  outcome_acts .refl (fun _ s r h =>
    have answered : Unjudged s (s.setResult r) := rfl
    h.trans answered.keepsRules) h e

theorem setField_keepsRules {name : FieldName} {idx : List Nat} {part : Nat} {value : BitVec 64} {s t : State}
    (e : execSetField name idx part value s = .next t) : KeepsRules s t := by
  refine outcome_keepsRules (fun s₀ => triple_look_bind fun s hs => ?_) e
  split
  · rename_i s' h
    rintro s rfl
    exact hs.trans (keepsRules_setFieldOp h)
  · rintro s rfl
    exact hs

theorem exec_keepsRules {i : Instr} {s t : State} (h : exec i s = .next t) : KeepsRules s t := by
  cases rules : writesRules i
  case false => exact (exec_unitStep rules h).keepsRules
  cases i with
  | setField name idx part value => exact setField_keepsRules h
  | intervalSet o | lock o | unlock o | sweep o | dump o | dumpWord o | evictWord o | barrier o =>
    exact outcome_keepsRules (keepsRules_opRow _ o) h
  | swpIncLock t a =>
    exact outcome_keepsRules (acts_look_bind fun _ =>
      .ite ((keepsRules_change (keepsRules_incLock t a)).answer _) (acts_refuse _)) h
  | swpDecLock t a =>
    exact outcome_keepsRules (acts_look_bind fun _ => .ite ((keepsRules_decLock t a).answer _) (acts_refuse _)) h
  | swpOpStartStop t a starts =>
    refine outcome_keepsRules (acts_look_bind fun _ => .ite (Acts.answer (keepsRules_change fun s => ?_) _)
      (acts_refuse _)) h
    cases starts
    · exact keepsRules_opStop t a s
    · exact keepsRules_opStart t a s
  | swpIsLockedElseOpStart t a =>
    exact outcome_keepsRules (acts_look_bind fun _ => .ite (acts_look_bind fun _ => .ite (acts_pure _)
      ((keepsRules_change (keepsRules_opStart t a)).answer _)) (acts_refuse _)) h
  | _ => cases rules

theorem keepsRules_autoMeaning (a : AutoStep) : Acts KeepsRules (autoMeaning a) := by
  have worker {m : M Unit} (w : Nat) (h : Confined m) : Acts KeepsRules (ifWorker w m) :=
    Acts.keepsRules <| acts_look_bind fun _ => .ite (h.answer _) (acts_pure _)
  cases a with
  | workerScan w => exact worker w (confined_workerScan w)
  | workerProcess w => exact worker w (confined_workerProcess w)
  | workerWake w => exact worker w (confined_change (unjudged_workerWake w))
  | sweeperBegin => exact keepsRules_sweeperBegin.answer _
  | sweeperFinish k => exact (keepsRules_sweeperFinish k).answer _
  | lockComplete k => exact (confined_lockComplete k).keepsRules.answer _
  | timerTick => exact Acts.answer (keepsRules_unjudged (f := timerTick) fun _ => rfl) _
  | waitPoll k => exact (confined_waitPoll k).keepsRules
  | stopPoll => exact confined_stopPoll.keepsRules

theorem runAuto_keepsRules {a : AutoStep} {s t : State} (h : runAuto a s = .next t) : KeepsRules s t := by
  unfold runAuto at h
  split at h
  · cases h
  · exact outcome_keepsRules (keepsRules_autoMeaning a) h

theorem runInstr_keepsRules {i : Instr} {s t : State} (h : runInstr i s = .next t) : KeepsRules s t := by
  unfold runInstr at h
  split at h
  · cases h
  split at h
  · cases h
  split at h
  · cases h
  · exact exec_keepsRules h

theorem runBody_keepsRules {b : LineBody} {s t : State} (h : runBody b s = .next t) : KeepsRules s t := by
  cases b with
  | instr i => exact runInstr_keepsRules h
  | auto a =>
    have entered : Unjudged s (enterAuto a s) := rfl
    exact entered.keepsRules.trans (runAuto_keepsRules h)
  | coded c =>
    simp only [runBody] at h
    split at h
    · exact runInstr_keepsRules h
    · cases h

theorem step_keepsRules {s t : State} (h : step s = .next t) : KeepsRules s t := by
  unfold step at h
  split at h
  · rename_i l rest _
    have entered : Unjudged s (enterLine l rest s) := rfl
    exact entered.keepsRules.trans (runBody_keepsRules h)
  · have drawn : Unjudged s (s.setDraws (s.draws + 1)) := rfl
    exact drawn.keepsRules.trans (runBody_keepsRules h)

/-- Settles O9: the sweeper's operations alone write a table control, and each replaces it by one in which the epoch is
0 iff the lock count is 0. -/
theorem everyStepKeepsTheEpochRule : Obligations.EveryStepKeepsTheEpochRule :=
  fun _ _ hs h => (step_keepsRules h).epochs hs

/-- Settles O10: `INTERVAL_SET` and a write of a sweep field recompute the masks, and nothing else writes what they are
functions of. -/
theorem everyStepKeepsTheIntervalMasks : Obligations.EveryStepKeepsTheIntervalMasks :=
  fun _ _ hs h => (step_keepsRules h).masks hs

end Sys2Proof.Machine
end

section
/-! PROOF. The fault entry and the stopped machine, the drain of the evict stash, the interrupt acknowledge (R202, R473,
R490, R491, R495). -/

namespace Sys2Proof.Machine

section
variable {s : State}

/-! ### The stopped machine (R490) -/

theorem runBody_auto_of_faulted (h : s.err.faulted.isSome = true) (a : AutoStep) :
    runBody (.auto a) s = .fault .machineFaulted :=
  if_pos (show (enterAuto a s).err.faulted.isSome = true from h)

theorem mayRun_of_faulted (h : s.err.faulted.isSome = true) (i : Instr) :
    mayRun s i = (s.act.agent == .host && readsOnly i) := by
  rw [mayRun, Option.isNone_eq_false_iff.2 h, Bool.false_or]

theorem readsOnly_iff (i : Instr) : readsOnly i = true ↔ (∃ n x k, i = .getField n x k) ∨ ∃ a, i = .ramRead a := by
  cases i <;> simp [readsOnly]

/-- The host's reads are the host's right (R119). -/
theorem mayTake_of_readsOnly {i : Instr} (ha : s.act.agent = .host) (hi : readsOnly i = true) : mayTake s i = true := by
  obtain ⟨n, x, k, rfl⟩ | ⟨a, rfl⟩ := (readsOnly_iff i).1 hi
  all_goals exact beq_iff_eq.2 ha

theorem runInstr_of_faulted {i : Instr} (h : s.err.faulted.isSome = true)
    (hi : s.act.agent ≠ .host ∨ readsOnly i = false) : runInstr i s = .fault .machineFaulted := by
  have stopped : mayRun s i = false := by
    rw [mayRun_of_faulted h, Bool.and_eq_false_iff]
    exact hi.imp_left beq_eq_false_iff_ne.2
  simp only [runInstr, stopped, Bool.not_false, if_true]

theorem runInstr_read_of_faulted {i : Instr} (h : s.err.faulted.isSome = true) (hw : i.wellFormed = true)
    (ha : s.act.agent = .host) (hi : readsOnly i = true) : runInstr i s = exec i s := by
  have runs : mayRun s i = true := by rw [mayRun_of_faulted h, ha, hi]; rfl
  simp only [runInstr, runs, hw, mayTake_of_readsOnly ha hi, Bool.not_true, Bool.false_eq_true, if_false]

theorem step_of_instr {l : Line} {rest : List Line} {i : Instr} (h : s.agenda = l :: rest)
    (hb : l.body = .instr i ∨ ∃ c, l.body = .coded c ∧ decode c = .ok i) :
    step s = runInstr i (enterLine l rest s) := by
  obtain hb | ⟨c, hb, hd⟩ := hb
  · rw [step_of_agenda h, hb]
    rfl
  · exact step_of_coded h hb hd

end

/-- Settles O5, by what the next line holds: a step of an agent by itself, or an operation. -/
theorem faultedMachineOnlyReads : Obligations.FaultedMachineOnlyReads := by
  intro s hf
  refine ⟨fun none => ?_, fun l rest a hag hb => ?_, fun l rest i hag hw hb => ?_⟩
  · rw [step, none]
    exact runBody_auto_of_faulted (s := s.setDraws (s.draws + 1)) hf _
  · rw [step_of_agenda hag, hb]
    exact runBody_auto_of_faulted (s := enterLine l rest s) hf a
  · rw [step_of_instr hag hb]
    have entered : (enterLine l rest s).err.faulted.isSome = true := hf
    refine ⟨fun host reads => runInstr_read_of_faulted entered hw host ((readsOnly_iff i).2 reads), fun other => ?_⟩
    refine runInstr_of_faulted entered (other.imp_right fun ⟨noGet, noRead⟩ => ?_)
    rw [Bool.eq_false_iff, Ne, readsOnly_iff]
    rintro (⟨n, x, k, e⟩ | ⟨a, e⟩)
    · exact noGet n x k e
    · exact noRead a e

section
variable {s : State}

/-! ### The fault entry (R473, R490) -/

theorem exec_fault (r : ErrRec) (hs : Running s) :
    exec (.fault r) s = .next (s.setErr { s.err with faulted := some r }) :=
  (outcome_of_faulted (m := takeFault r) (takeFault_apply s r)).trans (by rw [State.enterFault_of_none r hs])

/-- A fatal raise of a machine that runs: logged, and the record is the fault. -/
theorem afterRaise_of_fatal_of_running {e : Err} (place : Option (Nat × Nat)) (h : fatal s.strict e = true)
    (hs : Running s) : s.afterRaise place e = s.setErr { s.err with
      log := s.err.log ++ [errRecord s place e], faulted := some (errRecord s place e) } := by
  have logged : (s.logError (errRecord s place e)).err.faulted = none := hs
  rw [State.afterRaise_of_fatal place h, State.enterFault_of_none _ logged]
  rfl

/-! ### The controls of a table (R398 to R404) -/

theorem outcome_onTable {t : TableId} (ht : TableExists s t) (m : M Ret) : outcome (onTable t m) s = outcome m s :=
  outcome_congr (onTable_apply ht m)

/-- A row that only changes the control of its table. -/
theorem outcome_onTable_change {t : TableId} (ht : TableExists s t) (f : State → State) (r : Ret) :
    outcome (onTable t (change f >>= fun _ => pure r)) s = .next ((f s).setResult r) :=
  outcome_onTable ht _

theorem lockedCtl_of_unlocked {c : TableOpCtl} (h : c.lockCount = 0) : lockedCtl c =
    { c with lockCount := 1, epoch := if c.lastEpoch = 255 then 1 else c.lastEpoch + 1,
             lastEpoch := if c.lastEpoch = 255 then 1 else c.lastEpoch + 1 } := if_pos h

theorem lockedCtl_of_locked {c : TableOpCtl} (h : c.lockCount ≠ 0) :
    lockedCtl c = { c with lockCount := c.lockCount + 1 } := if_neg h

theorem unlockedCtl_of_last {c : TableOpCtl} (h : c.lockCount = 1) :
    unlockedCtl c = { c with lockCount := 0, epoch := 0 } := if_pos h

theorem unlockedCtl_of_more {c : TableOpCtl} (h : 1 < c.lockCount) :
    unlockedCtl c = { c with lockCount := c.lockCount - 1 } := if_neg (Nat.ne_of_gt h)

theorem decLock_of_unlocked {t : TableId} {a : AType} (h : (s.ctl t a).lockCount = 0) :
    decLock t a s = raise (some (t.pipe, t.stage)) (.lockUnderflow t a) s := by
  simp only [decLock, look_bind, id, if_pos h]

theorem decLock_of_locked {t : TableId} {a : AType} (h : (s.ctl t a).lockCount ≠ 0) :
    decLock t a s = .ok () (s.putCtl t a (unlockedCtl (s.ctl t a))) := by
  simp only [decLock, look_bind, id, if_neg h, change_apply]

theorem exec_swpIncLock {t : TableId} {a : AType} (ht : TableExists s t) :
    exec (.swpIncLock t a) s = .next ((s.putCtl t a (lockedCtl (s.ctl t a))).setResult .none) :=
  outcome_onTable_change ht (incLock t a) _

theorem exec_swpDecLock_of_locked {t : TableId} {a : AType} (ht : TableExists s t) (h : (s.ctl t a).lockCount ≠ 0) :
    exec (.swpDecLock t a) s = .next ((s.putCtl t a (unlockedCtl (s.ctl t a))).setResult .none) :=
  (outcome_onTable ht _).trans (outcome_of_ok (bind_of_ok s _ (decLock_of_locked h)))

/-- Unlocking a table that is not locked raises `ERR_LOCK_UNDERFLOW` and, relaxed, does nothing (R400). -/
theorem exec_swpDecLock_of_unlocked {t : TableId} {a : AType} (ht : TableExists s t)
    (h : (s.ctl t a).lockCount = 0) : exec (.swpDecLock t a) s = .next (if s.strict.lockCount then
      (s.afterRaise (some (t.pipe, t.stage)) (.lockUnderflow t a)).setResult .none
      else s.afterRaise (some (t.pipe, t.stage)) (.lockUnderflow t a)) :=
  (outcome_onTable ht _).trans <| (outcome_bind_congr (decLock_of_unlocked h)).trans (outcome_of_raise rfl rfl)

theorem exec_swpLockWait {t : TableId} {a : AType} (ht : TableExists s t) : exec (.swpLockWait t a) s
    = .next (s.setResult (if (s.ctl t a).running = 0 then .none else .blocked)) :=
  outcome_onTable ht _

theorem exec_swpIsLockedElseOpStart {t : TableId} {a : AType} (ht : TableExists s t) :
    exec (.swpIsLockedElseOpStart t a) s = .next (if (s.ctl t a).lockCount = 0 then
      (opStart t a s).setResult (.bool false) else s.setResult (.bool true)) := by
  refine (outcome_onTable ht _).trans ?_
  by_cases h : (s.ctl t a).lockCount = 0
  · simp only [outcome, look_bind, id, h, Nat.lt_irrefl, if_false, if_true, change_bind, pure_apply]
  · simp only [outcome, look_bind, id, h, Nat.pos_of_ne_zero h, if_false, if_true, pure_apply]

/-! ### The evict stash and the pending interrupts (R202, R494, R495) -/

section
variable {p st a : Nat} (ha : stageExists s.params p st && a < s.params.numStatsAlu)
include ha

theorem exec_drainEvict_of_empty (h : s.stash p st a = []) :
    exec (.drainEvict p st a) s = .next (s.setResult (.evicted none)) :=
  outcome_of_ok (by simp only [look_bind, id, if_pos ha, h, pure_apply])

theorem exec_drainEvict_of_cons {e : EvictRec} {rest : List EvictRec} (h : s.stash p st a = e :: rest) :
    exec (.drainEvict p st a) s = .next ((s.putStash p st a rest).setResult (.evicted (some e))) :=
  outcome_of_ok (by simp only [look_bind, id, if_pos ha, h, change_bind, pure_apply])

end

theorem exec_irqAck (q : IrqSource) : exec (.irqAck q) s = .next ((s.clearIrq q).setResult .none) := rfl

theorem get_irq_clearIrq (q q' : IrqSource) : Store.get false (s.clearIrq q).err.irq (irqKey q')
    = if q' = q then false else Store.get false s.err.irq (irqKey q') := by
  have key : irqKey q' = irqKey q ↔ q' = q := ⟨irqKey_inj, congrArg irqKey⟩
  have read : Store.get false (s.clearIrq q).err.irq (irqKey q')
      = if irqKey q' = irqKey q then false else Store.get false s.err.irq (irqKey q') :=
    Store.get_set false s.err.irq (irqKey q) (irqKey q') false
  simpa only [key] using read

end

/-- Settles O6: the row `fault` is the fault entry, and a raise writes the log before it. -/
theorem faultEntryRecordsAndStops : Obligations.FaultEntryRecordsAndStops := by
  intro s hs
  refine ⟨fun r => exec_fault r hs, fun t a ht unlocked => ?_⟩
  intro r
  have record : errRecord s (some (t.pipe, t.stage)) (.lockUnderflow t a) = r := by
    simp only [r, errRecord, errTime]
    cases s.act.agent <;> rfl
  refine ⟨fun strict => ?_, fun relaxed => ?_⟩
  · have stops : fatal s.strict (.lockUnderflow t a) = true := by simp only [fatal, strict, Bool.not_false]
    rw [exec_swpDecLock_of_unlocked ht unlocked, if_neg (by rw [strict]; exact Bool.false_ne_true),
      afterRaise_of_fatal_of_running _ stops hs, record]
  · have goesOn : fatal s.strict (.lockUnderflow t a) = false := by simp only [fatal, relaxed, Bool.not_true]
    rw [exec_swpDecLock_of_unlocked ht unlocked, if_pos relaxed, State.afterRaise_of_relaxed _ goesOn, record]
    rfl

/-- Settles O47, one row after the other. -/
theorem tableControlsLockAndCount : Obligations.TableControlsLockAndCount := by
  intro s t a ht
  refine ⟨fun unlocked => ?_, fun locked => ?_, fun last => ?_, fun more => ?_,
    outcome_onTable_change ht (opStart t a) _,
    outcome_onTable_change ht (opStop t a) _, exec_swpLockWait ht, fun locked => ?_, fun unlocked => ?_⟩
  · rw [exec_swpIncLock ht, lockedCtl_of_unlocked unlocked]
  · rw [exec_swpIncLock ht, lockedCtl_of_locked locked]
  · rw [exec_swpDecLock_of_locked ht (by omega), unlockedCtl_of_last last]
  · rw [exec_swpDecLock_of_locked ht (by omega), unlockedCtl_of_more more]
  · rw [exec_swpIsLockedElseOpStart ht, if_neg locked]
  · rw [exec_swpIsLockedElseOpStart ht, if_pos unlocked]
    rfl

/-- Settles O60: the stash is oldest first, and an acknowledge writes one source of the pending set. -/
theorem evictionsDrainAndInterruptsClear : Obligations.EvictionsDrainAndInterruptsClear := by
  intro s p st a hp hst ha
  have unit : stageExists s.params p st && a < s.params.numStatsAlu := by simp [stageExists, hp, hst, ha]
  refine ⟨fun e rest h => exec_drainEvict_of_cons unit h, exec_drainEvict_of_empty unit, fun q =>
    ⟨_, exec_irqAck q, (get_irq_clearIrq q q).trans (if_pos rfl),
      fun q' hne => (get_irq_clearIrq q q').trans (if_neg hne), rfl, rfl, rfl⟩⟩

end Sys2Proof.Machine
end

section
/-! PROOF. Claiming a pipe: the rail of the input packet, the claim, the scan of a worker (R438 to R440). -/

namespace Sys2Proof.Machine

section
variable {s : State} {p w : Nat}

/-! ### Rows of the coordinator -/

theorem outcome_onPipe (h : p < s.params.numPipes) (m : M Ret) : outcome (onPipe p m) s = outcome m s :=
  outcome_congr (onPipe_apply h m)

theorem outcome_onWorker (h : w < s.params.numWorkers) (m : M Ret) : outcome (onWorker w m) s = outcome m s :=
  outcome_congr (onWorker_apply h m)

/-! ### The input rail (R440) -/

/-- The next input packet of a pipe and what it leaves of the pipe: the head of the preferred queue, whose flag then
flips, else the head of the other queue. -/
def nextInput (q : PipeState) : Option (Packet × PipeState) :=
  if q.rr then
    match q.qPgen, q.qRx with
    | x :: xs, _ => some (x, { q with qPgen := xs, rr := false })
    | [], x :: xs => some (x, { q with qRx := xs })
    | [], [] => none
  else
    match q.qRx, q.qPgen with
    | x :: xs, _ => some (x, { q with qRx := xs, rr := true })
    | [], x :: xs => some (x, { q with qPgen := xs })
    | [], [] => none

section
variable {q : PipeState} {x : Packet} {xs : List Packet}

theorem nextInput_of_rx (hr : q.rr = false) (h : q.qRx = x :: xs) :
    nextInput q = some (x, { q with qRx := xs, rr := true }) := by
  simp only [nextInput, hr, h, Bool.false_eq_true, if_false]

theorem nextInput_of_only_pgen (hr : q.rr = false) (h : q.qRx = []) (h' : q.qPgen = x :: xs) :
    nextInput q = some (x, { q with qPgen := xs }) := by
  simp only [nextInput, hr, h, h', Bool.false_eq_true, if_false]

theorem nextInput_of_pgen (hr : q.rr = true) (h : q.qPgen = x :: xs) :
    nextInput q = some (x, { q with qPgen := xs, rr := false }) := by
  simp only [nextInput, hr, h, if_true]

theorem nextInput_of_only_rx (hr : q.rr = true) (h : q.qPgen = []) (h' : q.qRx = x :: xs) :
    nextInput q = some (x, { q with qRx := xs }) := by
  simp only [nextInput, hr, h, h', if_true]

theorem nextInput_of_empty (h : q.qRx = []) (h' : q.qPgen = []) : nextInput q = none := by
  simp only [nextInput, h, h', ite_self]

/-- The mark of a claim does not matter to the input rail. -/
theorem nextInput_active (q : PipeState) :
    nextInput { q with active := true } = (nextInput q).map fun e => (e.1, { e.2 with active := true }) := by
  obtain ⟨qRx, qPgen, _, _, rr, _⟩ := q
  cases rr <;> rcases qRx with _ | ⟨x, xs⟩ <;> rcases qPgen with _ | ⟨y, ys⟩ <;> rfl

theorem qTm_of_nextInput {q' : PipeState} (h : nextInput q = some (x, q')) : q'.qTm = q.qTm := by
  unfold nextInput at h
  split at h <;> split at h <;> cases h <;> rfl

end

/-- The selection, whichever of the flag and the two queues is set: it takes the next input packet. -/
theorem selectInput_apply (p : Nat) (s : State) : selectInput p s = (nextInput (s.pipe p)).elim (.ok none s)
    fun e => .ok (some e.1) (s.putPipe p e.2) := by
  cases hr : (s.pipe p).rr <;> rcases hrx : (s.pipe p).qRx with _ | ⟨x, xs⟩ <;>
    rcases hpgen : (s.pipe p).qPgen with _ | ⟨y, ys⟩ <;> simp [selectInput, nextInput, hr, hrx, hpgen, map_apply]

theorem selectInput_of_some {x : Packet} {q : PipeState} (h : nextInput (s.pipe p) = some (x, q)) :
    selectInput p s = .ok (some x) (s.putPipe p q) := by
  rw [selectInput_apply, h, Option.elim_some]

theorem selectInput_of_none (h : nextInput (s.pipe p) = none) : selectInput p s = .ok none s := by
  rw [selectInput_apply, h, Option.elim_none]

theorem exec_coordSelectInput_of_some {x : Packet} {q : PipeState} (hp : p < s.params.numPipes)
    (h : nextInput (s.pipe p) = some (x, q)) :
    exec (.coordSelectInput p) s = .next ((s.putPipe p q).setResult (.packet (some x))) :=
  (outcome_onPipe hp _).trans (outcome_of_ok (bind_of_ok s _ (selectInput_of_some h)))

theorem exec_coordSelectInput_of_none (hp : p < s.params.numPipes) (h : nextInput (s.pipe p) = none) :
    exec (.coordSelectInput p) s = .next (s.setResult (.packet none)) :=
  (outcome_onPipe hp _).trans (outcome_of_ok (bind_of_ok s _ (selectInput_of_none h)))

/-! ### The claim (R439) -/

/-- The pipe has no queued packet. -/
abbrev Empty (q : PipeState) : Prop := q.qRx = [] ∧ q.qPgen = [] ∧ q.qTm = []

theorem noWork_iff (q : PipeState) : noWork q = true ↔ Empty q := by
  simp only [noWork, Bool.and_eq_true, List.isEmpty_iff, and_assoc]

/-- The pipe can be claimed: no worker has it, and it has work. -/
abbrev Free (s : State) (p : Nat) : Prop := (s.pipe p).active = false ∧ ¬ Empty (s.pipe p)

theorem dequeue_of_not_free (h : ¬ Free s p) : dequeue p s = .ok none s := by
  have barred : ((s.pipe p).active || noWork (s.pipe p)) = true := by
    rw [Bool.or_eq_true, noWork_iff, or_iff_not_imp_left, Bool.not_eq_true]
    exact fun idle => not_not.1 fun work => h ⟨idle, work⟩
  simp only [dequeue, look_bind, if_pos barred, pure_apply]

/-- The input packet that the input rail gives, and the pipe without it. -/
abbrev inputOf (q : PipeState) : Option Packet := (nextInput q).map Prod.fst
abbrev afterInput (q : PipeState) : PipeState := ((nextInput q).map Prod.snd).getD q

theorem selectInput_spec (p : Nat) (s : State) : ∃ t, selectInput p s = .ok (inputOf (s.pipe p)) t ∧
    Repiped p s t ∧ t.pipe p = afterInput (s.pipe p) := by
  rcases h : nextInput (s.pipe p) with _ | ⟨x, q⟩
  · exact ⟨s, by rw [selectInput_of_none h, inputOf, h, Option.map_none], .refl p s, by rw [afterInput, h]; rfl⟩
  · exact ⟨_, by rw [selectInput_of_some h, inputOf, h, Option.map_some], repiped_putPipe p s q,
      by rw [State.pipe_putPipe_same, afterInput, h]; rfl⟩

theorem inputOf_active (q : PipeState) : inputOf { q with active := true } = inputOf q := by
  rw [inputOf, nextInput_active, inputOf, Option.map_map]
  rfl

theorem afterInput_active (q : PipeState) :
    afterInput { q with active := true } = { afterInput q with active := true } := by
  rw [afterInput, nextInput_active, afterInput]
  cases nextInput q <;> rfl

theorem qTm_afterInput (q : PipeState) : (afterInput q).qTm = q.qTm := by
  rcases h : nextInput q with _ | ⟨x, q'⟩
  · rw [afterInput, h]; rfl
  · rw [afterInput, h]; exact qTm_of_nextInput h

theorem takeTm_spec (p : Nat) (s : State) : ∃ t, takeTm p s = .ok (s.pipe p).qTm.head? t ∧ Repiped p s t ∧
    t.pipe p = { s.pipe p with qTm := (s.pipe p).qTm.tail } := by
  rcases h : (s.pipe p).qTm with _ | ⟨x, xs⟩
  · refine ⟨s, by simp only [takeTm, look_bind, h]; rfl, .refl p s, ?_⟩
    rw [List.tail_nil, ← h]
  · exact ⟨_, by simp only [takeTm, look_bind, h]; rfl, repiped_putPipe p s _, State.pipe_putPipe_same s p _⟩

/-- Both rails are served: gresses are processed together, or the input rail has nothing (R439). -/
abbrev BothRails (s : State) (inp : Option Packet) : Prop :=
  ¬ (s.params.processGressesSeparately = true ∧ inp.isSome = true)

/-- What a claim of this pipe puts in the worker's hands. -/
abbrev claimOf (s : State) (p : Nat) : Held :=
  { pipe := p, inPkt := inputOf (s.pipe p)
    tmPkt := if BothRails s (inputOf (s.pipe p)) then (s.pipe p).qTm.head? else none }

theorem dequeue_of_free (h : Free s p) : ∃ t, dequeue p s = .ok (some (claimOf s p)) t ∧ Repiped p s t ∧
    t.pipe p = { afterInput (s.pipe p) with
      active := true
      qTm := if BothRails s (inputOf (s.pipe p)) then (s.pipe p).qTm.tail else (s.pipe p).qTm } := by
  have unbarred : ¬ ((s.pipe p).active || noWork (s.pipe p)) = true := by
    rw [Bool.or_eq_true, noWork_iff, h.1]
    simpa using h.2
  let marked := s.putPipe p { s.pipe p with active := true }
  have mark : marked.pipe p = { s.pipe p with active := true } := State.pipe_putPipe_same s p _
  obtain ⟨u, select, hu, pipe⟩ := selectInput_spec p marked
  rw [mark, inputOf_active] at select
  rw [mark, afterInput_active] at pipe
  have claimed : Repiped p s u := (repiped_putPipe p s _).trans hu
  have params : u.params = s.params := claimed.kept.params
  have qTm : (u.pipe p).qTm = (s.pipe p).qTm := by rw [pipe]; exact qTm_afterInput _
  have start : dequeue p s = (look (fun s => s.params.processGressesSeparately) >>= fun separate =>
      if separate && (inputOf (s.pipe p)).isSome then
        pure (some { pipe := p, inPkt := inputOf (s.pipe p), tmPkt := none })
      else takeTm p >>= fun tm => pure (some { pipe := p, inPkt := inputOf (s.pipe p), tmPkt := tm })) u := by
    simp only [dequeue, look_bind, if_neg unbarred, change_bind]
    exact bind_of_ok marked _ select
  by_cases both : BothRails s (inputOf (s.pipe p))
  · obtain ⟨t, take, ht, pipe'⟩ := takeTm_spec p u
    refine ⟨t, ?_, claimed.trans ht, ?_⟩
    · rw [start, look_bind, params, if_neg (by rwa [Bool.and_eq_true]), bind_of_ok u _ take, claimOf, if_pos both, qTm]
      rfl
    · rw [pipe', if_pos both, pipe, qTm_afterInput]
  · refine ⟨u, ?_, claimed, ?_⟩
    · rw [start, look_bind, params, if_pos (by rwa [Bool.and_eq_true, ← not_not (a := _ ∧ _)]), claimOf, if_neg both]
      rfl
    · rw [pipe, if_neg both, ← qTm_afterInput]

theorem exec_coordDequeue_of_not_free (hp : p < s.params.numPipes) (h : ¬ Free s p) :
    exec (.coordDequeue p) s = .next (s.setResult (.claimed none)) :=
  (outcome_onPipe hp _).trans (outcome_of_ok (bind_of_ok s _ (dequeue_of_not_free h)))

theorem exec_coordDequeue_of_ok {t : State} {h : Option Held} (hp : p < s.params.numPipes)
    (run : dequeue p s = .ok h t) :
    exec (.coordDequeue p) s = .next (t.setResult (.claimed h)) :=
  (outcome_onPipe hp _).trans (outcome_of_ok (bind_of_ok s _ run))

/-! ### The scan (R438) -/

theorem scanPipes_of_not_free (w : Nat) (ps : List Nat) (h : ¬ Free s p) :
    scanPipes w (p :: ps) s = scanPipes w ps s := by
  rw [scanPipes, bind_of_ok s _ (dequeue_of_not_free h)]

/-- Pipes that cannot be claimed are passed over. -/
theorem scanPipes_append (w : Nat) (ps : List Nat) : ∀ l, (∀ p ∈ l, ¬ Free s p) →
    scanPipes w (l ++ ps) s = scanPipes w ps s
  | [], _ => rfl
  | p :: l, h => by
    rw [List.cons_append, scanPipes_of_not_free w _ (h p List.mem_cons_self)]
    exact scanPipes_append w ps l fun q hq => h q (List.mem_cons_of_mem _ hq)

theorem scanPipes_of_claim {t : State} {h : Held} (w : Nat) (ps : List Nat) (run : dequeue p s = .ok (some h) t) :
    scanPipes w (p :: ps) s
      = .ok () (t.putWorker w { t.worker w with held := some h, lastPipe := p, wstate := .processing }) := by
  rw [scanPipes, bind_of_ok s _ run]
  rfl

/-- The scan visits the pipes from the one just after the last on, `k` steps after it the `k`-th. -/
theorem scanOrder_split (n last : Nat) {k : Nat} (h1 : 1 ≤ k) (hk : k ≤ n) : ∃ l l',
    scanOrder n last = l ++ (last + k) % n :: l' ∧ ∀ p ∈ l, ∃ j, 1 ≤ j ∧ j < k ∧ p = (last + j) % n := by
  have len : (scanOrder n last).length = n := by simp [scanOrder]
  have nth (i : Nat) (hi : i < (scanOrder n last).length) : (scanOrder n last)[i] = (last + (i + 1)) % n := by
    simp [scanOrder]
  have at_k : k - 1 < (scanOrder n last).length := by omega
  refine ⟨(scanOrder n last).take (k - 1), (scanOrder n last).drop (k - 1 + 1), ?_, fun p hp => ?_⟩
  · have kth : (scanOrder n last)[k - 1] = (last + k) % n := by rw [nth, Nat.sub_add_cancel h1]
    rw [← kth, ← List.drop_eq_getElem_cons at_k, List.take_append_drop]
  · obtain ⟨i, hi, rfl⟩ := List.mem_take_iff_getElem.1 hp
    exact ⟨i + 1, by omega, by omega, nth i _⟩

theorem mem_scanOrder {n last p : Nat} (h : p ∈ scanOrder n last) : ∃ j, 1 ≤ j ∧ j ≤ n ∧ p = (last + j) % n := by
  obtain ⟨i, hi, rfl⟩ := List.mem_map.1 h
  exact ⟨i + 1, by omega, List.mem_range.1 hi, rfl⟩

theorem exec_coordWorkerScan (hw : w < s.params.numWorkers) (hs : (s.worker w).wstate = .scanning)
    (hr : s.coord.run = true) {t : State}
    (run : scanPipes w (scanOrder s.params.numPipes (s.worker w).lastPipe) s = .ok () t) :
    exec (.coordWorkerScan w) s = .next (t.setResult .none) := by
  refine (outcome_onWorker hw _).trans (outcome_of_ok (bind_of_ok s _ (a := ()) ?_))
  simp only [workerScan, look_bind, id, if_pos hs, if_pos hr]
  exact run

theorem exec_coordWorkerScan_of_stopped (hw : w < s.params.numWorkers) (hs : (s.worker w).wstate = .scanning)
    (hr : s.coord.run = false) : exec (.coordWorkerScan w) s =
      .next ((s.putWorker w { s.worker w with wstate := .stopped }).setResult .none) := by
  refine (outcome_onWorker hw _).trans (outcome_of_ok (bind_of_ok s _ (a := ()) ?_))
  have still : ¬ s.coord.run = true := by rw [hr]; exact Bool.false_ne_true
  simp only [workerScan, look_bind, id, if_pos hs, if_neg still, change_apply]

end

/-- Settles O52: the input rail by its flag and its two queues, then the claim by whether the pipe is free. -/
theorem claimsTakeOnePacketPerRail : Obligations.ClaimsTakeOnePacketPerRail := by
  intro s p hp
  refine ⟨fun x xs hr h => ?_, fun x xs hr h h' => ?_, fun x xs hr h => ?_, fun x xs hr h h' => ?_, fun h h' => ?_,
    fun barred => ?_, fun idle work => ?_⟩
  · exact exec_coordSelectInput_of_some hp (nextInput_of_rx hr h)
  · exact exec_coordSelectInput_of_some hp (nextInput_of_only_pgen hr h h')
  · exact exec_coordSelectInput_of_some hp (nextInput_of_pgen hr h)
  · exact exec_coordSelectInput_of_some hp (nextInput_of_only_rx hr h h')
  · exact exec_coordSelectInput_of_none hp (nextInput_of_empty h h')
  · refine exec_coordDequeue_of_not_free hp fun free => ?_
    exact barred.elim (fun active => by rw [free.1] at active; cases active) free.2
  · obtain ⟨t, select, -, pipe⟩ := selectInput_spec p s
    obtain ⟨u, run, ⟨⟨P, rfl⟩, other⟩, pipe'⟩ := dequeue_of_free ⟨idle, work⟩
    refine ⟨t.setResult (.packet (inputOf (s.pipe p))), inputOf (s.pipe p),
      (outcome_onPipe hp _).trans (outcome_of_ok (bind_of_ok s _ select)), rfl, _,
      exec_coordDequeue_of_ok hp run, rfl, ?_, other, rfl⟩
    exact pipe'.trans (by rw [← pipe]; rfl)

/-- Settles O53: the scan passes over the pipes that are not free. -/
theorem scansClaimTheNextPipe : Obligations.ScansClaimTheNextPipe := by
  intro s w hw hs
  refine ⟨exec_coordWorkerScan_of_stopped hw hs, fun k hr h1 hk free before => ?_, fun hr none => ?_⟩
  · obtain ⟨t, run, repiped, -⟩ := dequeue_of_free free
    obtain ⟨l, l', order, passed⟩ := scanOrder_split s.params.numPipes (s.worker w).lastPipe h1 hk
    have barred : ∀ p ∈ l, ¬ Free s p := fun p hp => by
      obtain ⟨j, h1, hj, rfl⟩ := passed p hp
      exact before j h1 hj
    have scan := (scanPipes_append w _ l barred).trans (scanPipes_of_claim w l' run)
    rw [← order, repiped.worker] at scan
    have claims := exec_coordWorkerScan hw hs hr scan
    exact ⟨_, _, exec_coordDequeue_of_ok (Nat.mod_lt _ (by omega)) run, rfl, claims⟩
  · have barred : ∀ p ∈ scanOrder s.params.numPipes (s.worker w).lastPipe, ¬ Free s p := fun p hp => by
      obtain ⟨j, h1, hj, rfl⟩ := mem_scanOrder hp
      exact none j h1 hj
    let waits := s.putWorker w { s.worker w with wstate := .waiting, notified := false }
    let t := waits.setCoord { waits.coord with threadsWaiting := waits.coord.threadsWaiting + 1 }
    have scan : scanPipes w (scanOrder s.params.numPipes (s.worker w).lastPipe) s = .ok () t := by
      rw [← List.append_nil (scanOrder _ _), scanPipes_append w [] _ barred]
      rfl
    have worker : t.worker w = { s.worker w with wstate := .waiting, notified := false } :=
      State.worker_putWorker_same s w _
    exact ⟨_, exec_coordWorkerScan hw hs hr scan, (congrArg Worker.wstate worker :),
      (congrArg Worker.lastPipe worker :), rfl, fun _ => rfl, rfl⟩

end Sys2Proof.Machine
end

section
/-! PROOF. The workers: release, arrival, waking, transmission; starting, stopping and waiting for idle (R437, R447,
R448,
R452 to R456). -/

namespace Sys2Proof.Machine

section
variable {s : State} {p w : Nat}

/-! ### Updates of the workers (R53) -/

/-- Only the workers differ. -/
def Restaffed (s t : State) : Prop := ∃ W, t = s.setCoord { s.coord with workers := W }

theorem Restaffed.refl (s : State) : Restaffed s s := ⟨s.coord.workers, rfl⟩

theorem Restaffed.trans {a s t : State} (h : Restaffed a s) (h' : Restaffed s t) : Restaffed a t := by
  obtain ⟨W, rfl⟩ := h
  obtain ⟨W', rfl⟩ := h'
  exact ⟨W', rfl⟩

theorem restaffed_notifyWorker (s : State) (w : Nat) : Restaffed s (notifyWorker w s) := ⟨_, rfl⟩

theorem restaffed_startWorker (s : State) (w : Nat) : Restaffed s (startWorker s w) := by
  unfold startWorker
  split
  · exact ⟨_, rfl⟩
  · exact .refl s

theorem worker_notifyWorker (s : State) (w w' : Nat) : (notifyWorker w s).worker w'
    = if w' = w then { s.worker w with notified := true } else s.worker w' :=
  State.worker_putWorker s w w' _

/-- A stopped worker goes to scan; any other is left alone (R437). -/
def started (v : Worker) : Worker := if v.wstate = .stopped then { v with wstate := .scanning } else v

theorem worker_startWorker (s : State) (w w' : Nat) : (startWorker s w).worker w'
    = if w' = w then started (s.worker w) else s.worker w' := by
  unfold startWorker started
  split
  · exact State.worker_putWorker s w w' _
  · split
    · rename_i e
      rw [e]
    · rfl

/-- An update of one worker after the other, each once. -/
theorem worker_foldl {f : State → Nat → State} {g : Worker → Worker}
    (h : ∀ s w w', (f s w).worker w' = if w' = w then g (s.worker w) else s.worker w') (w : Nat) :
    ∀ (l : List Nat) (s : State), l.Nodup →
      (l.foldl f s).worker w = if w ∈ l then g (s.worker w) else s.worker w
  | [], s, _ => by simp
  | v :: l, s, hd => by
    obtain ⟨hv, hl⟩ := List.nodup_cons.1 hd
    rw [List.foldl_cons, worker_foldl h w l _ hl, h]
    by_cases e : w = v
    · rw [e, if_neg hv, if_pos rfl, if_pos List.mem_cons_self]
    · rw [if_neg e]
      simp only [List.mem_cons, e, false_or]

/-! ### Release, arrival, waking, transmission (R447, R448, R452, R456) -/

theorem exec_coordRelease (hw : w < s.params.numWorkers) (hp : p < s.params.numPipes) (n : Nat) :
    exec (.coordRelease w p n) s = .next ((release w p n s).setResult .none) :=
  (outcome_onWorker hw _).trans (outcome_onPipe hp _)

theorem pipe_release (w p n : Nat) (s : State) (p' : Nat) : (release w p n s).pipe p'
    = if p' = p then { s.pipe p with active := false } else s.pipe p' :=
  State.pipe_putPipe s p p' _

theorem worker_release (w p n : Nat) (s : State) (w' : Nat) : (release w p n s).worker w'
    = if w' = w then { s.worker w with held := none, wstate := .scanning } else s.worker w' :=
  State.worker_putWorker _ w w' _

/-- A worker that waits and is not marked yet (R448). -/
abbrev Unmarked (s : State) (w : Nat) : Prop := (s.worker w).wstate = .waiting ∧ (s.worker w).notified = false

/-- An arrival counts the packet and marks one unmarked waiter, nobody when there is none. -/
theorem packetArrived_spec (s : State) : ∃ t, packetArrived s = .ok () t ∧
    t = (s.setCoord t.coord).setDraws t.draws ∧
    t.coord = { s.coord with workers := t.coord.workers, pending := s.coord.pending + 1 } ∧
    ((∀ w < s.params.numWorkers, ¬ Unmarked s w) → ∀ w, t.worker w = s.worker w) ∧
    ((∃ w < s.params.numWorkers, Unmarked s w) → ∃ w < s.params.numWorkers, Unmarked s w ∧
      t.worker w = { s.worker w with notified := true } ∧ ∀ w', w' ≠ w → t.worker w' = s.worker w') := by
  have unmarked (w : Nat) : w ∈ waiters (countOne s) ↔ w < s.params.numWorkers ∧ Unmarked s w :=
    mem_waiters (countOne s) w
  have run {u : State} (h : notifyOne (countOne s) = .ok () u) : packetArrived s = .ok () u := h
  rcases notifyOne_apply (countOne s) with ⟨none, notify⟩ | ⟨w, n, hw, notify⟩
  · refine ⟨_, run notify, rfl, rfl, fun _ _ => rfl, ?_⟩
    rintro ⟨w, hw, h⟩
    have waits := (unmarked w).2 ⟨hw, h⟩
    rw [none] at waits
    cases waits
  · obtain ⟨hw, h⟩ := (unmarked w).1 hw
    have marked (w' : Nat) := worker_notifyWorker ((countOne s).setDraws n) w w'
    exact ⟨_, run notify, rfl, rfl, fun nobody => absurd h (nobody w hw), fun _ => ⟨w, hw, h,
      (marked w).trans (if_pos rfl), fun w' hne => (marked w').trans (if_neg hne)⟩⟩

theorem exec_coordPacketArrived {t : State} (h : packetArrived s = .ok () t) :
    exec .coordPacketArrived s = .next (t.setResult .none) :=
  outcome_of_ok (m := packetArrived >>= fun _ => pure .none) (bind_of_ok s _ h)

theorem exec_coordWaitForPackets (hw : w < s.params.numWorkers) :
    exec (.coordWaitForPackets w) s = .next ((workerWake w s).setResult .none) :=
  outcome_onWorker hw _

theorem canWake_iff (s : State) (w : Nat) : canWake s w = true ↔
    (s.worker w).wstate = .waiting ∧ ((s.worker w).notified = true ∨ s.coord.run = false ∨ w = 0) := by
  simp [canWake, or_assoc]

theorem workerWake_of_canWake (h : canWake s w = true) : workerWake w s =
    (s.putWorker w { s.worker w with wstate := .scanning, notified := false }).setCoord
      { (s.putWorker w { s.worker w with wstate := .scanning, notified := false }).coord with
        threadsWaiting := s.coord.threadsWaiting - 1 } := if_pos h

theorem workerWake_of_not (h : ¬ canWake s w = true) : workerWake w s = s := if_neg h

theorem exec_coordTransmit (pkt : Packet) : exec (.coordTransmit pkt) s
    = .next ((transmit pkt s).setResult .none) := rfl

end

/-- Settles O54, one operation after the other. -/
theorem workersReleaseWakeAndTransmit : Obligations.WorkersReleaseWakeAndTransmit := by
  intro s
  refine ⟨fun w p n hw hp => ?_, ?_, fun w hw => ⟨fun waits wakes => ?_, fun _ unmarked runs other => ?_,
    fun elsewhere => ?_⟩, fun pkt => ?_⟩
  · exact ⟨_, exec_coordRelease hw hp n, (pipe_release w p n s p).trans (if_pos rfl),
      (worker_release w p n s w).trans (if_pos rfl), rfl, fun p' hne => (pipe_release w p n s p').trans (if_neg hne),
      fun w' hne => (worker_release w p n s w').trans (if_neg hne), rfl⟩
  · obtain ⟨t, run, frame, coord, nobody, somebody⟩ := packetArrived_spec s
    refine ⟨_, exec_coordPacketArrived run, coord, fun none => nobody fun w hw h => ?_, fun ⟨w, hw, h⟩ => ?_,
      congrArg (State.setResult · .none) frame⟩
    · exact (none w hw).elim (fun n => n h.1) fun n => by rw [h.2] at n; cases n
    · obtain ⟨v, hv, ⟨waits, unmarked⟩, marked⟩ := somebody ⟨w, hw, h⟩
      exact ⟨v, hv, waits, unmarked, marked⟩
  · have woken (w' : Nat) := State.worker_putWorker s w w' { s.worker w with wstate := .scanning, notified := false }
    have run := exec_coordWaitForPackets hw
    rw [workerWake_of_canWake ((canWake_iff s w).2 ⟨waits, wakes⟩)] at run
    exact ⟨_, run, (woken w).trans (if_pos rfl), fun w' hne => (woken w').trans (if_neg hne), rfl⟩
  · rw [exec_coordWaitForPackets hw, workerWake_of_not]
    rw [canWake_iff, unmarked, runs]
    simp [other]
  · rw [exec_coordWaitForPackets hw, workerWake_of_not]
    exact fun wakes => elsewhere ((canWake_iff s w).1 wakes).1
  · exact exec_coordTransmit pkt

section
variable {s : State}

/-! ### Starting and stopping (R437, R455) -/

theorem exec_start : exec .start s = .next ((((List.range s.params.numWorkers).foldl startWorker
    (s.setCoord { s.coord with run := true }))).setResult .none) := rfl

/-- A worker that waits is marked; any other is left alone. -/
def marked (v : Worker) : Worker := if v.wstate = .waiting then { v with notified := true } else v

theorem nodup_waiters (s : State) : (waiters s).Nodup := List.nodup_range.filter _

theorem worker_notifyAll {w : Nat} (hw : w < s.params.numWorkers) : (notifyAll s).worker w = marked (s.worker w) := by
  rw [notifyAll, worker_foldl (g := fun v => { v with notified := true }) worker_notifyWorker w _ s (nodup_waiters s),
    marked]
  by_cases waits : (s.worker w).wstate = .waiting
  · rw [if_pos waits]
    split
    · rfl
    · rename_i h
      have already : (s.worker w).notified = true := by
        rw [← Bool.not_eq_false]
        exact fun unmarked => h ((mem_waiters s w).2 ⟨hw, waits, unmarked⟩)
      rw [← already]
  · rw [if_neg waits, if_neg fun h => waits ((mem_waiters s w).1 h).2.1]

theorem restaffed_notifyAll (s : State) : Restaffed s (notifyAll s) :=
  foldl_related .refl .trans restaffed_notifyWorker _ s

theorem allStopped_iff (s : State) :
    allStopped s = true ↔ ∀ w < s.params.numWorkers, (s.worker w).wstate = .stopped := by
  simp [allStopped]

/-- One round of `STOP`: the waiters are marked, and it returns when every worker is stopped. -/
theorem stopPoll_of_stopping (h : s.coord.stopping = true) : stopPoll s = if allStopped s then
      .ok .none ((notifyAll s).setCoord { (notifyAll s).coord with stopping := false })
    else .ok .blocked (notifyAll s) := by
  simp only [stopPoll, look_bind, id, if_pos h, change_bind]
  split <;> rfl

/-- The coordinator that has been told to stop. -/
abbrev halted (s : State) : State := s.setCoord { s.coord with run := false, stopping := true }

theorem exec_stop : exec .stop s = outcome stopPoll (halted s) := rfl

theorem exec_stop_of_allStopped (h : allStopped s = true) : exec .stop s = .next
    (((notifyAll (halted s)).setCoord { (notifyAll (halted s)).coord with stopping := false }).setResult .none) :=
  exec_stop.trans (outcome_of_ok ((stopPoll_of_stopping (s := halted s) rfl).trans (if_pos h)))

theorem exec_stop_of_not_allStopped (h : ¬ allStopped s = true) :
    exec .stop s = .next ((notifyAll (halted s)).setResult .blocked) :=
  exec_stop.trans (outcome_of_ok ((stopPoll_of_stopping (s := halted s) rfl).trans (if_neg h)))

theorem halted_of_stopping (h : s.coord.stopping = true) (hr : s.coord.run = false) : halted s = s := by
  rw [halted, ← h, ← hr]
  rfl

/-! ### Waiting for idle (R453) -/

theorem isIdle_iff (s : State) : isIdle s = true ↔
    s.coord.threadsWaiting = s.params.numWorkers ∧ s.coord.pending = 0 ∧ s.params.preFifoEmpty = true := by
  simp [isIdle, and_assoc]

/-- An operation that raises, and where the error is relaxed goes on with one update. -/
theorem outcome_raise_change {place : Option (Nat × Nat)} {e : Err} {relaxed : Bool} (f : State → State) (r : Ret)
    (hfatal : fatal s.strict e = !relaxed) : outcome (raise place e >>= fun _ => change f >>= fun _ => pure r) s
      = .next (if relaxed then (f (s.afterRaise place e)).setResult r else s.afterRaise place e) := by
  cases relaxed
  · exact State.afterRaise_of_fatal place hfatal ▸ outcome_of_faulted (bind_of_error s _ (raise_of_fatal place hfatal))
  · exact State.afterRaise_of_relaxed place hfatal ▸ outcome_of_ok (bind_of_ok s _ (raise_of_relaxed place hfatal))

/-- The coordinator with these evaluations made by the blocked `WAIT_FOR_IDLE`s. -/
abbrev State.setIdleWaits (s : State) (l : List Nat) : State := s.setCoord { s.coord with idleWaits := l }

section
variable {k n : Nat} (hk : s.coord.idleWaits[k]? = some n)
include hk

theorem outcome_waitPoll_of_idle (h : isIdle s = true) : outcome (waitPoll k) s
    = .next ((s.setIdleWaits (s.coord.idleWaits.eraseIdx k)).setResult .none) :=
  outcome_of_ok (by simp only [waitPoll, look_bind, id, hk, if_pos h, change_bind, pure_apply])

theorem outcome_waitPoll_of_below (h : ¬ isIdle s = true) (hn : n < s.params.waitIdleBound) : outcome (waitPoll k) s
    = .next ((s.setIdleWaits (s.coord.idleWaits.set k (n + 1))).setResult .blocked) :=
  outcome_of_ok (by simp only [waitPoll, look_bind, id, hk, if_neg h, if_pos hn, change_bind, pure_apply])

theorem outcome_waitPoll_of_bound (h : ¬ isIdle s = true) (hn : s.params.waitIdleBound ≤ n) :
    outcome (waitPoll k) s = .next (if s.strict.waitIdle then
      ((s.afterRaise none (.waitIdleBound s.params.waitIdleBound)).setIdleWaits
        ((s.afterRaise none (.waitIdleBound s.params.waitIdleBound)).coord.idleWaits.eraseIdx k)).setResult .none
      else s.afterRaise none (.waitIdleBound s.params.waitIdleBound)) := by
  refine Eq.trans (outcome_congr ?_)
      (outcome_raise_change (fun u => u.setIdleWaits (u.coord.idleWaits.eraseIdx k)) .none rfl)
  simp only [waitPoll, look_bind, id, hk, if_neg h, if_neg (Nat.not_lt.2 hn)]

end

theorem exec_waitForIdle_of_idle (h : isIdle s = true) : exec .waitForIdle s = .next (s.setResult .none) :=
  outcome_of_ok (by simp only [look_bind, id, if_pos h, pure_apply])

theorem exec_waitForIdle_of_not (h : ¬ isIdle s = true) :
    exec .waitForIdle s = .next ((s.setIdleWaits (s.coord.idleWaits ++ [0])).setResult .blocked) :=
  outcome_of_ok (by simp only [look_bind, id, if_neg h, change_bind, pure_apply])

/-- A raise does not touch the coordinator. -/
theorem coord_afterRaise (place : Option (Nat × Nat)) (e : Err) : (s.afterRaise place e).coord = s.coord := by
  cases h : fatal s.strict e
  · rw [State.afterRaise_of_relaxed place h]
    rfl
  · rw [State.afterRaise_of_fatal place h, State.enterFault_eq]
    rfl

end

/-- Settles O55: `START` and `STOP` by what they do to each worker, `WAIT_FOR_IDLE` by its condition and its bound. -/
theorem startStopAndIdle : Obligations.StartStopAndIdle := by
  intro s
  refine ⟨?_, ?_, fun idle => exec_waitForIdle_of_idle ((isIdle_iff s).2 idle),
    fun busy => exec_waitForIdle_of_not (mt (isIdle_iff s).1 busy), fun l rest act hag hb hrun => ?_⟩
  · obtain ⟨W, only⟩ := foldl_related .refl .trans restaffed_startWorker (List.range s.params.numWorkers)
      (s.setCoord { s.coord with run := true })
    refine ⟨_, exec_start, ?_, ?_, fun p => ?_, fun w hw => ?_⟩
    · rw [only]
      rfl
    · rw [only]
      rfl
    · rw [only]
      rfl
    · refine (worker_foldl (g := started) worker_startWorker w _ (s.setCoord { s.coord with run := true })
        List.nodup_range).trans ?_
      exact if_pos (List.mem_range.2 hw)
  · obtain ⟨W, only⟩ := restaffed_notifyAll (halted s)
    have worker (w : Nat) (hw : w < s.params.numWorkers) : (notifyAll (halted s)).worker w = marked (s.worker w) :=
      worker_notifyAll (s := halted s) hw
    by_cases all : allStopped s = true
    · refine ⟨_, exec_stop_of_allStopped all, ?_, ?_, fun p => ?_, fun w hw => worker w hw, fun _ => ⟨rfl, rfl⟩,
        fun ⟨w, hw, moving⟩ => absurd ((allStopped_iff s).1 all w hw) moving⟩ <;> rw [only] <;> rfl
    · refine ⟨_, exec_stop_of_not_allStopped all, ?_, ?_, fun p => ?_, fun w hw => worker w hw,
        fun still => absurd ((allStopped_iff s).2 still) all, fun _ => ⟨rfl, ?_⟩⟩ <;> rw [only] <;> rfl
  · rw [step_of_auto hag hb hrun]
    refine ⟨fun k n hact hk => ?_, fun hact hs hr => ?_⟩ <;> subst hact
    · let u := enterAuto (.waitPoll k) (enterLine l rest s)
      have same : isIdle u = true ↔
          s.coord.threadsWaiting = s.params.numWorkers ∧ s.coord.pending = 0 ∧ s.params.preFifoEmpty = true :=
        isIdle_iff u
      refine ⟨fun idle => outcome_waitPoll_of_idle hk (same.2 idle),
        fun busy below => outcome_waitPoll_of_below hk (mt same.1 busy) below, fun busy bound strict => ?_,
        fun busy bound relaxed => ?_⟩
      all_goals refine (outcome_waitPoll_of_bound (s := u) hk (mt same.1 busy) bound).trans (congrArg _ ?_)
      · exact if_neg (Bool.eq_false_iff.1 strict)
      · rw [if_pos (show u.strict.waitIdle = true from relaxed), State.setIdleWaits, coord_afterRaise]
        rfl
    · have halted := halted_of_stopping (s := enterAuto .stopPoll (enterLine l rest s)) hs hr
      exact (congrArg (outcome stopPoll) halted).symm

end Sys2Proof.Machine
end

section
/-! PROOF. The packet commands of the host: each packet enters the queue its rule names, or a pipe out of range is
raised (R433 to R436, R448, R449). -/

namespace Sys2Proof.Machine

section
variable {s : State} {p id : Nat} {q : PipeState} {pkt : Packet} {push : State → State}

/-! ### A packet comes into the block (R448, R449) -/

/-- Pipe `p` is `q` and every other is as it was, one more packet is pending, the identity is no longer the host's, and
nothing outside the coordinator has changed but a free value drawn. -/
structure Enters (s t : State) (p : Nat) (q : PipeState) (id : Nat) : Prop where
  pipe : t.pipe p = q
  other : ∀ p', p' ≠ p → t.pipe p' = s.pipe p'
  pending : t.coord.pending = s.coord.pending + 1
  txOut : t.coord.txOut = s.coord.txOut
  run : t.coord.run = s.coord.run
  frame : t = ((s.setCoord t.coord).setDraws t.draws).setResult .none
  taken : id ∈ t.coord.taken

/-- The packet is put in its queue, its identity leaves the host's hands, and it arrives. -/
theorem enters_of_packetArrived (s : State) (p id : Nat) (q : PipeState) :
    ∃ t, packetArrived ((takeId id s).putPipe p q) = .ok () t ∧ Enters s (t.setResult .none) p q id := by
  obtain ⟨t, run, frame, coord, -⟩ := packetArrived_spec ((takeId id s).putPipe p q)
  have pipe (p' : Nat) : t.pipe p' = if p' = p then q else s.pipe p' := by
    have same : t.pipe p' = ((takeId id s).putPipe p q).pipe p' := by rw [State.pipe, coord]; rfl
    rw [same]
    exact State.pipe_putPipe (takeId id s) p p' q
  refine ⟨t, run, (pipe p).trans (if_pos rfl), fun p' hne => (pipe p').trans (if_neg hne), ?_, ?_, ?_,
    congrArg (State.setResult · .none) frame, ?_⟩
  · exact congrArg CoordState.pending coord
  · exact (congrArg CoordState.txOut coord :)
  · exact (congrArg CoordState.run coord :)
  · have taken : t.coord.taken = s.coord.taken ++ [id] := congrArg CoordState.taken coord
    exact taken ▸ List.mem_append_right _ (List.mem_singleton_self id)

theorem enqueue_enters {port : Nat} (bytes : List Byte) (h : pipeOfPort s.params port < s.params.numPipes) :
    ∃ t, exec (.enqueue port bytes) s = .next t ∧ Enters s t (pipeOfPort s.params port)
      { s.pipe (pipeOfPort s.params port) with qRx := (s.pipe (pipeOfPort s.params port)).qRx ++
        [{ bytes := bytes, port := port, pipe := pipeOfPort s.params port, kind := .rx, id := s.coord.nextId }] }
      s.coord.nextId := by
  obtain ⟨t, run, enters⟩ := enters_of_packetArrived s (pipeOfPort s.params port) s.coord.nextId _
  refine ⟨_, outcome_of_ok ?_, enters⟩
  simp only [look_bind, id, if_pos h]
  exact bind_of_ok _ (fun _ => pure Ret.none) run

theorem exec_enqueue_of_outOfRange {port : Nat} (bytes : List Byte)
    (h : s.params.numPipes ≤ pipeOfPort s.params port) : exec (.enqueue port bytes) s
      = .next (if s.strict.sramVpn then
          (s.afterRaise none (.pipeRange port (pipeOfPort s.params port))).setResult .none
        else s.afterRaise none (.pipeRange port (pipeOfPort s.params port))) := by
  refine outcome_of_raise (r := .none) rfl ?_
  simp only [look_bind, id, if_neg (Nat.not_lt.2 h)]

/-! ### A packet that the host hands over (R449) -/

theorem isTaken_iff (s : State) (id : Nat) : isTaken s id = true ↔ id ∈ s.coord.taken := List.contains_iff_mem

theorem handOver_of_taken (p : Nat) (push : State → State) (h : pkt.id ∈ s.coord.taken) :
    handOver pkt p push s = .error (.refuse .packetNotOwned) s := by
  simp only [handOver, look_bind, id, if_pos ((isTaken_iff s pkt.id).2 h), refuse_apply]

theorem handOver_enters (h : pkt.id ∉ s.coord.taken) (hp : p < s.params.numPipes)
    (hpush : push (takeId pkt.id s) = (takeId pkt.id s).putPipe p q) :
    ∃ t, outcome (handOver pkt p push) s = .next t ∧ Enters s t p q pkt.id := by
  obtain ⟨t, run, enters⟩ := enters_of_packetArrived s p pkt.id q
  refine ⟨_, outcome_of_ok ?_, enters⟩
  simp only [handOver, look_bind, id, if_neg (mt (isTaken_iff s pkt.id).1 h), if_pos hp]
  rw [← hpush] at run
  exact bind_of_ok _ (fun _ => pure Ret.none) run

theorem handOver_pushRx_enters (h : pkt.id ∉ s.coord.taken) (hp : p < s.params.numPipes) :
    ∃ t, outcome (handOver pkt p (pushRx p pkt)) s = .next t ∧
      Enters s t p { s.pipe p with qRx := (s.pipe p).qRx ++ [pkt] } pkt.id :=
  handOver_enters h hp rfl

theorem handOver_pushPgen_enters (h : pkt.id ∉ s.coord.taken) (hp : p < s.params.numPipes) :
    ∃ t, outcome (handOver pkt p (pushPgen p pkt)) s = .next t ∧
      Enters s t p { s.pipe p with qPgen := (s.pipe p).qPgen ++ [pkt] } pkt.id :=
  handOver_enters h hp rfl

theorem handOver_pushTm_enters (h : pkt.id ∉ s.coord.taken) (hp : p < s.params.numPipes) :
    ∃ t, outcome (handOver pkt p (pushTm p pkt)) s = .next t ∧
      Enters s t p { s.pipe p with qTm := (s.pipe p).qTm ++ [pkt] } pkt.id :=
  handOver_enters h hp rfl

theorem outcome_handOver_of_outOfRange (push : State → State) (h : pkt.id ∉ s.coord.taken)
    (hp : s.params.numPipes ≤ p) :
    outcome (handOver pkt p push) s = .next (if s.strict.sramVpn then
      (takeId pkt.id (s.afterRaise none (.pipeRange pkt.port p))).setResult .none
      else s.afterRaise none (.pipeRange pkt.port p)) := by
  refine Eq.trans (outcome_congr ?_) (outcome_raise_change (takeId pkt.id) .none rfl)
  simp only [handOver, look_bind, id, if_neg (mt (isTaken_iff s pkt.id).1 h), if_neg (Nat.not_lt.2 hp)]

/-- What a handed-over packet leaves where its pipe is out of range. -/
def Dropped (s : State) (id : Nat) (err : Err) (o : Host.Outcome State Fault Refusal) : Prop :=
  (s.strict.sramVpn = false → o = .next (s.afterRaise none err)) ∧
  (s.strict.sramVpn = true → ∃ t, o = .next t ∧ id ∈ t.coord.taken ∧
    t = ((s.afterRaise none err).setCoord { s.coord with
      taken := t.coord.taken, nextId := t.coord.nextId }).setResult .none)

theorem dropped_handOver (push : State → State) (h : pkt.id ∉ s.coord.taken) (hp : s.params.numPipes ≤ p) :
    Dropped s pkt.id (.pipeRange pkt.port p) (outcome (handOver pkt p push) s) := by
  rw [outcome_handOver_of_outOfRange push h hp]
  refine ⟨fun strict => congrArg _ (if_neg (Bool.eq_false_iff.1 strict)), fun relaxed =>
    ⟨_, congrArg _ (if_pos relaxed), List.mem_append_right _ (List.mem_singleton_self _), ?_⟩⟩
  rw [takeId, coord_afterRaise]
  rfl

end

/-- Settles O51: `ENQUEUE` makes its own packet, every other command hands one over. -/
theorem packetsEnterTheirQueues : Obligations.PacketsEnterTheirQueues := by
  intro s port pipe bytes pkt
  have entered {t : State} {p id : Nat} {q : PipeState} (h : Enters s t p q id) :
      (t.pipe p = q ∧ (∀ p', p' ≠ p → t.pipe p' = s.pipe p') ∧ t.coord.pending = s.coord.pending + 1 ∧
        t.coord.txOut = s.coord.txOut ∧ t.coord.run = s.coord.run ∧
        t = (((s.setCoord t.coord).setDraws t.draws).setResult .none)) ∧ id ∈ t.coord.taken :=
    ⟨⟨h.pipe, h.other, h.pending, h.txOut, h.run, h.frame⟩, h.taken⟩
  refine ⟨fun hp => ?_, fun hp owned => ?_, fun hp owned => ?_, fun hp owned => ?_, fun hp owned => ?_,
    fun gone g => ?_, fun out => ⟨?_, fun owned g => ?_⟩, fun out owned => ?_, fun out owned => ?_⟩
  · obtain ⟨t, run, h⟩ := enqueue_enters bytes hp
    exact ⟨t, s.coord.nextId, run, rfl, entered h⟩
  · obtain ⟨t, run, h⟩ := handOver_pushRx_enters
      (pkt := { pkt with port := port, pipe := pipeOfPort s.params port, kind := .rx }) owned hp
    exact ⟨t, run, entered h⟩
  · obtain ⟨t, run, h⟩ := handOver_pushPgen_enters
      (pkt := { pkt with port := port, pipe := pipeOfPort s.params port, kind := .pgen }) owned hp
    exact ⟨t, run, entered h⟩
  · obtain ⟨t, run, h⟩ := handOver_pushTm_enters
      (pkt := { pkt with pipe := pipeOfPort s.params pkt.port, kind := .resubmit }) owned hp
    exact ⟨t, run, entered h⟩
  · obtain ⟨t, run, h⟩ := handOver_pushTm_enters (pkt := { pkt with pipe := pipe, kind := .fromTm }) owned hp
    exact ⟨t, run, entered h⟩
  · have taken := not_not.1 gone
    refine ⟨?_, outcome_of_refused (handOver_of_taken _ _ taken), outcome_of_refused (handOver_of_taken _ _ taken)⟩
    cases g
    · exact outcome_of_refused (handOver_of_taken _ _ taken)
    · exact outcome_of_refused (handOver_of_taken _ _ taken)
  · exact exec_enqueue_of_outOfRange bytes out
  · cases g
    · exact dropped_handOver _ owned out
    · exact dropped_handOver _ owned out
  · exact dropped_handOver _ owned out
  · exact dropped_handOver _ owned out

end Sys2Proof.Machine
end

section
/-! PROOF. The tEOP buses: masks and required delay, address output, consumption (R383 to R390). -/

namespace Sys2Proof.Machine

section
variable {s : State} {p st lt b : Nat}

/-! ### The masks (R383, R384) -/

theorem testBit_busMask (f : Nat → Bool) (b : Nat) : ∀ n, (busMask n f).testBit b = (decide (b < n) && f b)
  | 0 => by simp [busMask]
  | n + 1 => by
    have last : busMask (n + 1) f = if f n then busMask n f ||| 2 ^ n else busMask n f := by
      rw [busMask, List.range_succ, List.foldl_append]
      rfl
    have bit : (busMask (n + 1) f).testBit b = ((busMask n f).testBit b || (f n && decide (n = b))) := by
      rw [last]
      cases f n <;> simp [Nat.testBit_or, Nat.testBit_two_pow]
    rw [bit, testBit_busMask f b n]
    by_cases e : n = b
    · simp [e]
    · have below : b < n + 1 ↔ b < n := by omega
      simp [e, below]

/-- The sets of bus `b` name the meter or the stats ALU of the table. -/
def Wired (meter stats : FieldName) (s : State) (p st lt b : Nat) : Prop :=
  b < s.params.numTeopBuses ∧
    ((∃ a, s.optField .ltMeterAlu [p, st, lt] = some a ∧ s.inSet meter [p, st, b] a = true) ∨
     (∃ a, s.optField .ltStatsAlu [p, st, lt] = some a ∧ s.inSet stats [p, st, b] a = true))

theorem busImplicated_iff (meter stats : FieldName) (s : State) (p st lt b : Nat) :
    busImplicated meter stats s p st lt b = true ↔
      (∃ a, s.optField .ltMeterAlu [p, st, lt] = some a ∧ s.inSet meter [p, st, b] a = true) ∨
      (∃ a, s.optField .ltStatsAlu [p, st, lt] = some a ∧ s.inSet stats [p, st, b] a = true) := by
  unfold busImplicated
  cases s.optField .ltMeterAlu [p, st, lt] <;> cases s.optField .ltStatsAlu [p, st, lt] <;> simp

theorem testBit_busMask_implicated (meter stats : FieldName) (s : State) (p st lt b : Nat) :
    (busMask s.params.numTeopBuses (busImplicated meter stats s p st lt)).testBit b = true ↔
      Wired meter stats s p st lt b := by
  rw [testBit_busMask, Bool.and_eq_true, decide_eq_true_eq, busImplicated_iff, Wired]

/-! ### The required delay (R386) -/

/-- Some table of the stage uses the bus at header time. -/
def UsesHdr (s : State) (p st b : Nat) : Prop := ∃ lt < s.params.numLt, Wired .busHdrMeter .busHdrStats s p st lt b

theorem stageUsesHdr_iff : stageUsesHdr s p st b = true ↔ UsesHdr s p st b := by
  simp only [stageUsesHdr, List.any_eq_true, List.mem_range, busesAtHdrtime, testBit_busMask_implicated, UsesHdr]

/-- The table is match dependent and an earlier stage uses the bus. -/
def MatchFirst (s : State) (p st lt b : Nat) : Prop :=
  s.flag .ltMatchDependent [p, st, lt] = true ∧ ∃ st' < st, UsesHdr s p st' b

theorem matchFirst_iff : (s.flag .ltMatchDependent [p, st, lt] && (List.range st).any fun st' => stageUsesHdr s p st' b)
    = true ↔ MatchFirst s p st lt b := by
  rw [Bool.and_eq_true, List.any_eq_true, MatchFirst]
  simp only [List.mem_range, stageUsesHdr_iff]

theorem delayRequired_of_matchFirst (h : MatchFirst s p st lt b) :
    delayRequired s p st lt b = s.params.pipeLatency - 4 := if_pos (matchFirst_iff.2 h)

theorem delayRequired_of_uses (h : ¬ MatchFirst s p st lt b) (hu : UsesHdr s p st b) :
    delayRequired s p st lt b = s.params.pipeLatency - s.params.predicationDelay - 7 :=
  (if_neg (mt matchFirst_iff.1 h)).trans (if_pos (stageUsesHdr_iff.2 hu))

theorem delayRequired_of_unused (h : ¬ MatchFirst s p st lt b) (hu : ¬ UsesHdr s p st b) :
    delayRequired s p st lt b = 0 :=
  (if_neg (mt matchFirst_iff.1 h)).trans (if_neg (mt stageUsesHdr_iff.1 hu))

theorem outcome_atStage (hat : AtStage s p st) (f : Nat → Nat → M Ret) : outcome (atStage f) s = outcome (f p st) s :=
  outcome_congr (atStage_apply hat f)

end

/-- Settles O44: a bit of a mask is a wired bus, and the delay has its three cases. -/
theorem teopMasksAndDelay : Obligations.TeopMasksAndDelay := by
  intro s p st lt hat
  refine ⟨⟨_, outcome_atStage hat _, testBit_busMask_implicated .busHdrMeter .busHdrStats s p st lt⟩,
    ⟨_, outcome_atStage hat _, testBit_busMask_implicated .busTeopMeter .busTeopStats s p st lt⟩, fun b =>
    ⟨_, outcome_atStage hat _, delayRequired_of_matchFirst, delayRequired_of_uses, delayRequired_of_unused⟩⟩

section
variable {s : State} {p st lt alu b : Nat} {addr : BitVec 32} {isStats : Bool}

/-! ### An address output (R387 to R389) -/

theorem busOf_putTeopBus (io : IoObj) (b b' : Nat) (v : TeopBus) :
    busOf (putTeopBus io b v) b' = if b' = b then v else busOf io b' := by
  have read : busOf (putTeopBus io b v) b' = if [b'] = [b] then v else busOf io b' :=
    Store.get_set ({} : TeopBus) io.buses [b] [b'] v
  simpa using read

/-- Another ALU has already driven the bus for this stage and table (R388). -/
abbrev Collides (io : IoObj) (st lt alu : Nat) (isStats : Bool) (b : Nat) : Prop :=
  (busOf io b).valid = true ∧ (busOf io b).stage = st ∧ (busOf io b).lt = lt ∧
    ((busOf io b).alu ≠ alu ∨ (busOf io b).isStats ≠ isStats)

theorem busCollides_iff (io : IoObj) :
    busCollides (busOf io b) st lt alu isStats = true ↔ Collides io st lt alu isStats b := by
  simp [busCollides, and_assoc]

/-- What an address output writes on a bus. -/
abbrev teopBusOf (st lt alu : Nat) (addr : BitVec 32) (isStats : Bool) : TeopBus :=
  { valid := true, addr := addr, stage := st, lt := lt, alu := alu, isStats := isStats }

/-- The state with the address on the bus. -/
abbrev State.driven (s : State) (b : Nat) (v : TeopBus) : State := s.setIo (putTeopBus s.act.io b v)

theorem outputOnBus_of_collision (h : Collides s.act.io st lt alu isStats b) :
    outputOnBus p st lt alu addr isStats b s = raise (some (p, st)) (.teopCollision st lt b) s := by
  simp only [outputOnBus, look_bind, id, if_pos ((busCollides_iff s.act.io).2 h)]

theorem outputOnBus_of_clear (h : ¬ Collides s.act.io st lt alu isStats b) :
    outputOnBus p st lt alu addr isStats b s
      = checkTeopDelay p st lt b (s.driven b (teopBusOf st lt alu addr isStats)) := by
  simp only [outputOnBus, look_bind, id, if_neg (mt (busCollides_iff s.act.io).1 h), change_bind]

theorem checkTeopDelay_of_eq (h : s.field .teopDelayCfg [p, st, b] = delayRequired s p st lt b) :
    checkTeopDelay p st lt b s = .ok () s := by
  simp only [checkTeopDelay, look_bind, id, h, ne_eq, not_true, if_false, pure_apply]

theorem checkTeopDelay_of_ne (h : s.field .teopDelayCfg [p, st, b] ≠ delayRequired s p st lt b) :
    checkTeopDelay p st lt b s = raise (some (p, st)) (.teopDelay st lt b (s.field .teopDelayCfg [p, st, b])
      (delayRequired s p st lt b)) s := by
  simp only [checkTeopDelay, look_bind, id, if_pos h]

/-- Buses that do not collide and have the required delay take the address; the others keep theirs. -/
theorem forEach_outputOnBus : ∀ (l : List Nat) (s : State), l.Nodup →
    (∀ b ∈ l, ¬ Collides s.act.io st lt alu isStats b ∧
      s.field .teopDelayCfg [p, st, b] = delayRequired s p st lt b) →
    ∃ io, forEach l (outputOnBus p st lt alu addr isStats) s = .ok () (s.setIo io) ∧
      io = { s.act.io with buses := io.buses } ∧
      ∀ b, busOf io b = if b ∈ l then teopBusOf st lt alu addr isStats else busOf s.act.io b
  | [], s, _, _ => ⟨s.act.io, rfl, rfl, fun b => by simp⟩
  | b :: l, s, hd, h => by
    obtain ⟨hb, hl⟩ := List.nodup_cons.1 hd
    obtain ⟨clear, delay⟩ := h b List.mem_cons_self
    have first : outputOnBus p st lt alu addr isStats b s
        = .ok () (s.driven b (teopBusOf st lt alu addr isStats)) :=
      (outputOnBus_of_clear clear).trans (checkTeopDelay_of_eq delay)
    have bus (b' : Nat) := busOf_putTeopBus s.act.io b b' (teopBusOf st lt alu addr isStats)
    obtain ⟨io, run, frame, buses⟩ := forEach_outputOnBus l (s.driven b (teopBusOf st lt alu addr isStats)) hl
      fun b' hb' => by
        have other : b' ≠ b := fun e => hb (e ▸ hb')
        have same : busOf (s.driven b (teopBusOf st lt alu addr isStats)).act.io b' = busOf s.act.io b' :=
          (bus b').trans (if_neg other)
        rw [Collides, same]
        exact h b' (List.mem_cons_of_mem _ hb')
    refine ⟨io, (forEach_cons s b l _).trans ((bind_of_ok s _ first).trans run), frame, fun b' => ?_⟩
    rw [buses b']
    by_cases e : b' = b
    · rw [e, if_neg hb, if_pos List.mem_cons_self]
      exact (bus b).trans (if_pos rfl)
    · have mem : b' ∈ b :: l ↔ b' ∈ l := by simp [e]
      simp only [mem]
      split
      · rfl
      · exact (bus b').trans (if_neg e)

/-! ### Numbers below a bound that pass a test -/

theorem filter_range_eq_cons {n b : Nat} {f : Nat → Bool} (hb : b < n) (hf : f b = true)
    (before : ∀ i < b, ¬ f i = true) : ∃ rest, (List.range n).filter f = b :: rest := by
  obtain ⟨k, rfl⟩ : ∃ k, n = b + (k + 1) := ⟨n - b - 1, by omega⟩
  have none : (List.range b).filter f = [] := List.filter_eq_nil_iff.2 fun i hi => before i (List.mem_range.1 hi)
  rw [List.range_add, List.filter_append, none, List.range_succ_eq_map, List.map_cons, Nat.add_zero, List.nil_append,
    List.filter_cons_of_pos hf]
  exact ⟨_, rfl⟩

theorem filter_range_eq_singleton {n b : Nat} {f : Nat → Bool} (h : ∀ i < n, f i = true ↔ i = b) (hb : b < n) :
    (List.range n).filter f = [b] := by
  refine List.perm_singleton.1 ((List.perm_ext_iff_of_nodup (List.nodup_range.filter f) (List.nodup_singleton b)).2 ?_)
  intro i
  rw [List.mem_filter, List.mem_range, List.mem_singleton]
  exact ⟨fun hi => (h i hi.1).1 hi.2, fun e => e ▸ ⟨hb, (h b hb).2 rfl⟩⟩

/-! ### The rows (R388, R389) -/

/-- The row of an address output. -/
abbrev outputRow (lt alu : Nat) (addr : BitVec 32) (isStats : Bool) : Instr :=
  if isStats then .teopOutputStatsAddr lt alu addr else .teopOutputMeterAddr lt alu addr

/-- The buses that the ALU drives, in their order. -/
abbrev drivenBuses (s : State) (p st alu : Nat) (isStats : Bool) : List Nat :=
  (List.range s.params.numTeopBuses).filter fun b =>
    s.inSet (if isStats then FieldName.busHdrStats else FieldName.busHdrMeter) [p, st, b] alu

theorem exec_outputRow (hat : AtStage s p st) : exec (outputRow lt alu addr isStats) s
    = outcome (forEach (drivenBuses s p st alu isStats) (outputOnBus p st lt alu addr isStats) >>= fun _ => pure .none)
        s := by
  cases isStats <;> exact outcome_atStage hat _

theorem forEach_singleton_bind {f : Nat → M Unit} {m : M Unit} {t : State} {r : Ret} (h : f b s = m t) :
    (forEach [b] f >>= fun _ => pure r) s = (m >>= fun _ => pure r) t := by
  rw [bind_apply, bind_apply, forEach_cons, bind_apply, h]
  cases m t <;> rfl

/-- An operation that goes on elsewhere with a raise. -/
theorem outcome_of_raise_at {t : State} {m : M Ret} {place : Option (Nat × Nat)} {e : Err} {relaxed : Bool}
    (hfatal : fatal t.strict e = !relaxed) (h : m s = (raise place e >>= fun _ => pure .none) t) :
    outcome m s = .next (if relaxed then (t.afterRaise place e).setResult .none else t.afterRaise place e) := by
  rw [outcome, h]
  exact outcome_of_raise (m := raise place e >>= fun _ => pure .none) hfatal rfl

/-- On the one bus that the ALU drives the row does what the bus raises. -/
theorem exec_outputRow_of_raise {t : State} {place : Option (Nat × Nat)} {e : Err} {relaxed : Bool}
    (hat : AtStage s p st) (one : drivenBuses s p st alu isStats = [b]) (hfatal : fatal t.strict e = !relaxed)
    (h : outputOnBus p st lt alu addr isStats b s = raise place e t) :
    exec (outputRow lt alu addr isStats) s =
      .next (if relaxed then (t.afterRaise place e).setResult .none else t.afterRaise place e) := by
  rw [exec_outputRow hat, one]
  exact outcome_of_raise_at hfatal (forEach_singleton_bind h)

end

/-- Settles O45: the driven buses one after the other, the first of them, and the only one. -/
theorem teopOutputsDriveTheirBuses : Obligations.TeopOutputsDriveTheirBuses := by
  intro s p st lt alu addr isStats hat
  refine ⟨fun clear => ?_, fun b hb drives collides first strict => ?_, fun b hb drives only =>
    ⟨fun collides relaxed => ?_, fun clear late => ?_⟩⟩
  · obtain ⟨io, run, frame, buses⟩ := forEach_outputOnBus (p := p) (st := st) (lt := lt) (alu := alu) (addr := addr)
      (isStats := isStats) (drivenBuses s p st alu isStats) s (List.nodup_range.filter _) fun b hb =>
        clear b (List.mem_range.1 (List.mem_filter.1 hb).1) (List.mem_filter.1 hb).2
    have mem (b : Nat) : b ∈ drivenBuses s p st alu isStats ↔ b < s.params.numTeopBuses ∧
        s.inSet (if isStats then FieldName.busHdrStats else FieldName.busHdrMeter) [p, st, b] alu = true := by
      rw [List.mem_filter, List.mem_range]
    refine ⟨io, (exec_outputRow hat).trans (outcome_of_ok (bind_of_ok s _ run)), frame, fun b hb drives => ?_,
      fun b undriven => ?_⟩
    · exact (buses b).trans (if_pos ((mem b).2 ⟨hb, drives⟩))
    · exact (buses b).trans (if_neg (mt (mem b).1 undriven))
  · obtain ⟨rest, head⟩ := filter_range_eq_cons hb drives fun i hi =>
      first i hi
    have stops : fatal s.strict (.teopCollision st lt b) = true := by simp only [fatal, strict, Bool.not_false]
    refine (exec_outputRow hat).trans ?_
    rw [drivenBuses, head]
    refine outcome_of_faulted (bind_of_error s _ ((forEach_cons s b rest _).trans (bind_of_error s _ ?_)))
    rw [outputOnBus_of_collision collides, raise_of_fatal _ stops, State.afterRaise_of_fatal _ stops]
  all_goals
    have one : drivenBuses s p st alu isStats = [b] :=
      filter_range_eq_singleton (fun i hi => ⟨only i hi, fun e => e ▸ drives⟩) hb
  · refine (exec_outputRow_of_raise hat one (relaxed := s.strict.teopCollision) rfl
      (outputOnBus_of_collision collides)).trans ?_
    exact congrArg _ (if_pos relaxed)
  · let t := s.driven b (teopBusOf st lt alu addr isStats)
    have raises := (outputOnBus_of_clear (p := p) (addr := addr) clear).trans (checkTeopDelay_of_ne (s := t) late)
    refine ⟨_, rfl, fun b' => busOf_putTeopBus s.act.io b b' _, ?_⟩
    refine (exec_outputRow_of_raise hat one (relaxed := !s.strict.teopCheck) (Bool.not_not _).symm raises).trans ?_
    cases s.strict.teopCheck <;> rfl

end Sys2Proof.Machine
end

section
/-! PROOF. The consumption of the tEOP buses (R390). -/

namespace Sys2Proof.Machine

section
variable {s : State} {p st a b : Nat}

/-- A loop in which one round alone does something. -/
theorem forEach_of_one {f : Nat → M Unit} {t : State} (h : f b s = .ok () t) : ∀ {l : List Nat}, l.Nodup → b ∈ l →
    (∀ x ∈ l, x ≠ b → f x s = .ok () s ∧ f x t = .ok () t) → forEach l f s = .ok () t
  | x :: l, hd, hb, others => by
    obtain ⟨hx, hl⟩ := List.nodup_cons.1 hd
    rw [forEach_cons]
    by_cases e : x = b
    · subst e
      refine (bind_of_ok s _ h).trans (forEach_skip t l f fun y hy => ?_)
      exact (others y (List.mem_cons_of_mem _ hy) fun e => hx (e ▸ hy)).2
    · refine (bind_of_ok s _ (others x List.mem_cons_self e).1).trans ?_
      exact forEach_of_one h hl ((List.mem_cons.1 hb).resolve_left fun e' => e e'.symm) fun y hy =>
        others y (List.mem_cons_of_mem _ hy)

theorem act_shadowed (w k inc : Nat) : (s.shadowed p st a w k inc).act = s.act := by
  rw [State.shadowed]
  split <;> rfl

/-- The count of a packet leaves the activation alone. -/
theorem statsCount_keeps_act {sa : SaFields} {f : StatsFormat} (w : Word) (hat : AtStats s p st a)
    (hf : FormatHas f sa.subword.toNat) (hw : sa.word.toNat < s.params.statsRamWords) :
    ∃ t, statsCount p st a f sa w s.act.io.byteLen s = .ok () t ∧ t.act = s.act := by
  by_cases hr : Reserved f sa.subword.toNat w
  · exact ⟨_, statsCount_of_reserved hf hr, act_shadowed _ _ _⟩
  · by_cases fires : lrtOver s p st a f ((pktField f sa.subword.toNat w + 1) % 2 ^ f.pktW)
      ((byteField f sa.subword.toNat w + s.increment p st a) % 2 ^ f.byteW)
    · exact ⟨_, statsCount_of_not_reserved hat hf hw hr (lrt_of_over _ fires) rfl rfl, act_shadowed _ _ _⟩
    · exact ⟨_, statsCount_of_not_reserved hat hf hw hr (lrt_of_not_over _ fires) rfl rfl, act_shadowed _ _ _⟩

theorem statsRun_stats_keeps_act {sa : SaFields} (hat : AtStats s p st a)
    (hf : FormatHas (s.statsFmt p st a) sa.subword.toNat) (hw : sa.word.toNat < s.params.statsRamWords) :
    ∃ t, statsRun p st a .stats sa s.act.io.byteLen s = .ok .none t ∧ t.act = s.act := by
  obtain ⟨t, count, act⟩ := statsCount_keeps_act (s.mem.read (statsAddr p st a sa.word.toNat)) hat hf hw
  refine ⟨t, ?_, act⟩
  exact (bind_of_ok s _ (statsValidate_of_has _ hf)).trans <|
    (bind_of_ok s _ (memRead_of_inRange (statsAddr_inRange hat hw))).trans (bind_of_ok s _ count)

theorem saParse_of_stats {w : Nat} {sa : SaFields} (h : decodeSa w = .ok (.stats sa)) :
    saParse w = some (.stats, sa) := by
  unfold decodeSa at h
  split at h
  · rename_i enabled
    split at h
    · cases h
    · rename_i clear
      split at h <;> cases h
      rename_i code
      rw [saParse, enabled, if_neg (by decide), if_neg clear, code]
      rfl
  · cases h

theorem consumeBus_of_invalid (h : (busOf s.act.io b).valid = false) : consumeBus p st b s = .ok () s := by
  rw [consumeBus, look_bind, id, h]
  rfl

/-- A valid stats bus with one consumer. -/
theorem consumeBus_of_taken {o : AluOut} {t : State} (valid : (busOf s.act.io b).valid = true)
    (stats : (busOf s.act.io b).isStats = true) (taker : consumers s p st b = [a])
    (run : statsAddress p st a (BitVec.ofNat 24 (busOf s.act.io b).addr.toNat) s.act.io.byteLen s = .ok o t) :
    consumeBus p st b s
      = .ok () (t.setIo (putTeopBus t.act.io b { busOf t.act.io b with valid := false })) := by
  have call : forEach [a] (fun a => do
      let _ ← statsAddress p st a (BitVec.ofNat 24 (busOf s.act.io b).addr.toNat) s.act.io.byteLen
      pure ()) s = .ok () t := (forEach_cons s a [] _).trans (bind_of_ok s _ (bind_of_ok s _ run))
  simp only [consumeBus, look_bind, id, valid, stats, taker, if_true, List.cons_ne_nil, if_false]
  exact bind_of_ok s _ call

end

/-- Settles O46: one bus is valid and one ALU takes it, so the loops over buses and consumers are that one execution. -/
theorem teopConsumptionExecutesTheAddress : Obligations.TeopConsumptionExecutesTheAddress := by
  intro s p st a b u sa f hat hb buses valid stats takes decoded fmt has hw
  obtain ⟨t, run, act⟩ := statsRun_stats_keeps_act hat (fmt ▸ has) hw
  have bus : busOf s.act.io b = u := (buses b hb).trans (if_pos rfl)
  have invalid (x : Nat) (hx : x < s.params.numTeopBuses) (ne : x ≠ b) : (busOf s.act.io x).valid = false :=
    congrArg TeopBus.valid ((buses x hx).trans (if_neg ne))
  have taker : consumers s p st b = [a] :=
    filter_range_eq_singleton (fun x hx => by rw [takes x hx, decide_eq_true_iff]) hat.2.2
  have address : statsAddress p st a (BitVec.ofNat 24 u.addr.toNat) s.act.io.byteLen s = .ok .none t := by
    rw [statsAddress, BitVec.toNat_ofNat, saParse_of_stats decoded]
    exact run
  have taken := consumeBus_of_taken (bus ▸ valid) (bus ▸ stats) taker (bus ▸ address)
  rw [act, bus] at taken
  have other (x : Nat) : busOf (putTeopBus s.act.io b { u with valid := false }) x = if x = b then _ else _ :=
    busOf_putTeopBus s.act.io b x _
  have all : consumeAll p st s = .ok () (t.setIo (putTeopBus s.act.io b { u with valid := false })) :=
    forEach_of_one taken List.nodup_range (List.mem_range.2 hb) fun x hx ne =>
      ⟨consumeBus_of_invalid (invalid x (List.mem_range.1 hx) ne), consumeBus_of_invalid <|
        (congrArg TeopBus.valid ((other x).trans (if_neg ne))).trans (invalid x (List.mem_range.1 hx) ne)⟩
  have row : exec .teopConsume s = _ := (outcome_atStage hat.1 _).trans (outcome_of_ok (bind_of_ok s _ all))
  exact ⟨_, _, outcome_statsOp hat run, row, rfl, other⟩

end Sys2Proof.Machine
end
section
/-! PROOF. The control operations, as rows and as the sweeper's own steps (R406, R410, R415 to R417). -/

namespace Sys2Proof.Machine

/-! ### When the sweeper may begin (R406, R415) -/

section
variable {s : State} {op : Op}

theorem canBegin_of_ready (hl : s.swp.lockWaiting = []) (hb : op.opcode = .barrier → s.swp.inFlight = []) :
    canBegin s op = true := by
  rw [canBegin, hl, List.isEmpty_nil, Bool.true_and, Bool.or_eq_true, bne_iff_ne, List.isEmpty_iff]
  exact Decidable.not_or_of_imp hb

theorem canBegin_of_waiting (hl : s.swp.lockWaiting ≠ []) : canBegin s op = false := by
  rw [canBegin, List.isEmpty_eq_false_iff.2 hl, Bool.false_and]

theorem canBegin_of_inFlight (hb : op.opcode = .barrier) (hf : s.swp.inFlight ≠ []) : canBegin s op = false := by
  rw [canBegin, hb, List.isEmpty_eq_false_iff.2 hf, bne_self_eq_false, Bool.or_false, Bool.and_false]

/-- An operation that may not begin waits at the head of `ops_hi`. -/
theorem opStep_of_blocked (ht : TableExists s op.table) (h : op ∉ s.swp.inFlight) (hl : op ∉ s.swp.lockWaiting)
    (hb : canBegin s op = false) : opStep op s = .ok () (s.setSwp { s.swp with opsHi := op :: s.swp.opsHi }) := by
  have table := (tableInRange_iff s.params op.table).2 ht
  simp only [opStep, look_bind, id, table, hb, Bool.not_true, Bool.false_eq_true, if_false,
    if_neg (mt List.contains_iff_mem.1 h), if_neg (mt List.contains_iff_mem.1 hl), change_apply]

/-- An operation inside `lock_wait` is completed, or waits on. -/
theorem opStep_of_lockWaiting (ht : TableExists s op.table) (h : op ∉ s.swp.inFlight) (hl : op ∈ s.swp.lockWaiting) :
    opStep op s = .ok () (completeLock op s) := by
  have table := (tableInRange_iff s.params op.table).2 ht
  simp only [opStep, look_bind, id, table, Bool.not_true, Bool.false_eq_true, if_false,
    if_neg (mt List.contains_iff_mem.1 h), if_pos (List.contains_iff_mem.2 hl), change_apply]

theorem sweeperBegin_of_empty (h : (s.swp.opsHi ++ s.swp.opsLo).head? = none) : sweeperBegin s = .ok () s := by
  obtain ⟨hi, lo⟩ := List.append_eq_nil_iff.1 (List.head?_eq_none_iff.1 h)
  simp only [sweeperBegin, look_bind, id, hi, lo, pure_apply]

theorem sweeperBegin_of_blocked (h : (s.swp.opsHi ++ s.swp.opsLo).head? = some op) (hb : canBegin s op = false) :
    sweeperBegin s = .ok () s := by
  cases hi : s.swp.opsHi with
  | cons op' rest =>
    rw [hi] at h
    cases h
    simp only [sweeperBegin, look_bind, id, hi, hb, Bool.false_eq_true, if_false, pure_apply]
  | nil =>
    rw [hi, List.nil_append] at h
    obtain ⟨rest, lo⟩ := List.head?_eq_some_iff.1 h
    simp only [sweeperBegin, look_bind, id, hi, lo, hb, Bool.false_eq_true, if_false, pure_apply]

theorem lockComplete_of_getElem? {k : Nat} (h : s.swp.lockWaiting[k]? = some op) :
    lockComplete k s = .ok () (completeLock op s) := by
  simp only [lockComplete, look_bind, id, h, change_apply]

theorem completeLock_of_idle (h : (s.ctl op.table op.atype).running = 0) : completeLock op s
    = (s.setSwp { s.swp with lockWaiting := s.swp.lockWaiting.erase op }).emit
        (.lockAck op.table op.atype (s.ctl op.table op.atype).epoch) := if_pos h

theorem completeLock_of_running (h : (s.ctl op.table op.atype).running ≠ 0) : completeLock op s = s := if_neg h

end

/-! ### The four rows -/

/-- What a first part does decides the outcome. -/
theorem outcome_bind_at {m m' : M Unit} {k : Unit → M Ret} {s s' : State} (h : m s = m' s') :
    outcome (m >>= k) s = outcome (m' >>= k) s' := by
  rw [outcome, outcome, bind_apply, bind_apply, h]

section
variable {s : State} {o : OpFields}

/-- The rows of the control operations of an `OP` record, each with its code. -/
def controlRows (o : OpFields) : List (Instr × OpCode) :=
  [(Instr.intervalSet o, OpCode.intervalSet), (.lock o, .lock), (.unlock o, .unlock), (.barrier o, .barrier)]

theorem mem_controlRows (o : OpFields) : (Instr.intervalSet o, OpCode.intervalSet) ∈ controlRows o ∧
    (Instr.lock o, OpCode.lock) ∈ controlRows o ∧ (Instr.unlock o, OpCode.unlock) ∈ controlRows o ∧
    (Instr.barrier o, OpCode.barrier) ∈ controlRows o := by
  simp [controlRows]

theorem exec_of_mem_controlRows {e : Instr × OpCode} (he : e ∈ controlRows o) (s : State) :
    exec e.1 s = outcome (opRow e.2 o) s := by
  simp only [controlRows, List.mem_cons, List.not_mem_nil, or_false] at he
  obtain rfl | rfl | rfl | rfl := he <;> rfl

/-- The row of an operation that may begin begins it. -/
theorem exec_control_of_ready {e : Instr × OpCode} (he : e ∈ controlRows o)
    (ht : TableExists s (opOfFields e.2 o).table) (hl : s.swp.lockWaiting = []) (h : opOfFields e.2 o ∉ s.swp.inFlight)
    (hb : e.2 = .barrier → s.swp.inFlight = []) :
    exec e.1 s = outcome (beginOp (opOfFields e.2 o) >>= fun _ => pure .none) s :=
  (exec_of_mem_controlRows he s).trans (outcome_bind_congr (opStep_of_idle ht h hl (canBegin_of_ready hl hb)))

theorem exec_lock_of_waiting (ht : TableExists s (opOfFields .lock o).table) (h : opOfFields .lock o ∉ s.swp.inFlight)
    (hl : opOfFields .lock o ∈ s.swp.lockWaiting) :
    exec (.lock o) s = .next ((completeLock (opOfFields .lock o) s).setResult .none) :=
  outcome_of_ok (bind_of_ok s _ (opStep_of_lockWaiting ht h hl))

theorem running_lockedCtl (c : TableOpCtl) : (lockedCtl c).running = c.running := by
  rw [lockedCtl]
  split <;> rfl

/-- `LOCK` locks and waits. -/
theorem exec_lock_of_ready (ht : TableExists s (opOfFields .lock o).table) (hl : s.swp.lockWaiting = [])
    (h : opOfFields .lock o ∉ s.swp.inFlight) :
    exec (.lock o) s = .next (((incLock (opOfFields .lock o).table o.atype s).setSwp
      { (incLock (opOfFields .lock o).table o.atype s).swp with
        lockWaiting := [opOfFields .lock o] }).setResult .none) := by
  have alone : (incLock (opOfFields .lock o).table o.atype s).swp.lockWaiting ++ [opOfFields .lock o]
      = [opOfFields .lock o] := congrArg (· ++ _) hl
  rw [← alone]
  exact exec_control_of_ready (mem_controlRows o).2.1 ht hl h fun e => by cases e

/-- `UNLOCK` unlocks a locked table and acknowledges. -/
theorem exec_unlock_of_ready (ht : TableExists s (opOfFields .unlock o).table) (hl : s.swp.lockWaiting = [])
    (h : opOfFields .unlock o ∉ s.swp.inFlight) (hc : (s.ctl (opOfFields .unlock o).table o.atype).lockCount ≠ 0) :
    exec (.unlock o) s = .next (((s.putCtl (opOfFields .unlock o).table o.atype
      (unlockedCtl (s.ctl (opOfFields .unlock o).table o.atype))).emit
        (.unlockAck (opOfFields .unlock o).table o.atype)).setResult .none) :=
  (exec_control_of_ready (mem_controlRows o).2.2.1 ht hl h fun e => by cases e).trans <|
    outcome_of_ok (bind_of_ok s _ (bind_of_ok s _ (decLock_of_locked hc)))

end

/-! ### `INTERVAL_SET` (R416, R417) -/

section
variable {s : State} {o : OpFields}

/-- Only `arg[4:0]` and `arg[8]` are set. -/
theorem intervalArgOk_of_bits {arg : BitVec 64} (h : ∀ i < 64, 5 ≤ i → i ≠ 8 → arg.getLsbD i = false) :
    intervalArgOk arg = true := by
  have mask : ∀ i < 64, (0x11F#64).getLsbD i = decide (i < 5 ∨ i = 8) := by decide
  rw [intervalArgOk, beq_iff_eq]
  refine BitVec.eq_of_getLsbD_eq fun i hi => ?_
  rw [BitVec.getLsbD_and, BitVec.getLsbD_not, mask i hi, BitVec.getLsbD_zero]
  by_cases free : i < 5 ∨ i = 8
  · simp [free]
  · rw [h i hi (by omega) (by omega), Bool.false_and]

theorem ctorIdx_inj_of_named {name n : FieldName} (h : fieldNames[name.ctorIdx]? = some name)
    (e : n.ctorIdx = name.ctorIdx) : n = name := by
  rcases fieldNames_ctorIdx n with hn | ⟨-, hn⟩
  · rw [e, h] at hn
    exact (Option.some.inj hn).symm
  · rw [e, h] at hn
    cases hn

theorem State.field_putField_of_ne {name n : FieldName} {k k' : List Nat} (v : Nat)
    (h : fieldNames[name.ctorIdx]? = some name) (ne : (n, k') ≠ (name, k)) :
    (s.putField name k v).field n k' = s.field n k' := by
  rw [State.field_putField, if_neg]
  intro e
  obtain ⟨hn, rfl⟩ := List.cons.inj e
  exact ne (by rw [ctorIdx_inj_of_named h hn])

/-- The configuration of a sweep, and the masks that follow from it. -/
def State.sweepSet (s : State) (op : Op) : State :=
  recomputeMasks ((s.putField .sweepInterval (ctlKey op.table op.atype) (op.arg.toNat % 32)).putField .sweepActive
    (ctlKey op.table op.atype) (op.arg.toNat / 256 % 2))

theorem exec_intervalSet_of_ready (ht : TableExists s (opOfFields .intervalSet o).table) (hl : s.swp.lockWaiting = [])
    (h : opOfFields .intervalSet o ∉ s.swp.inFlight) (hok : intervalArgOk o.arg = true) :
    exec (.intervalSet o) s = .next ((s.sweepSet (opOfFields .intervalSet o)).setResult .none) := by
  refine (exec_control_of_ready (mem_controlRows o).1 ht hl h fun e => by cases e).trans ?_
  have set : beginOp (opOfFields .intervalSet o) s = .ok () (s.sweepSet (opOfFields .intervalSet o)) := by
    have ok : intervalArgOk (opOfFields .intervalSet o).arg = true := hok
    have row : beginOp (opOfFields .intervalSet o) = intervalSet (opOfFields .intervalSet o) := rfl
    rw [row, intervalSet, if_pos ok]
    rfl
  exact outcome_of_ok (bind_of_ok s _ set)

theorem field_sweepSet_interval (op : Op) :
    (s.sweepSet op).field .sweepInterval (ctlKey op.table op.atype) = op.arg.toNat % 32 := by
  have first : (s.putField .sweepInterval (ctlKey op.table op.atype) (op.arg.toNat % 32)).field .sweepInterval
      (ctlKey op.table op.atype) = op.arg.toNat % 32 := (State.field_putField _ _ _ _ _ _).trans (if_pos rfl)
  exact (State.field_putField_of_ne _ rfl fun e => by cases e).trans first

theorem flag_sweepSet_active (op : Op) :
    (s.sweepSet op).flag .sweepActive (ctlKey op.table op.atype) = op.arg.getLsbD 8 := by
  have written : (s.sweepSet op).field .sweepActive (ctlKey op.table op.atype) = op.arg.toNat / 256 % 2 :=
    (State.field_putField _ _ _ _ _ _).trans (if_pos rfl)
  rw [State.flag, written, Nat.mod_mod, BitVec.getLsbD, Nat.testBit_eq_decide_div_mod_eq]
  rfl

theorem field_sweepSet_of_ne (op : Op) {n : FieldName} {k : List Nat}
    (hi : (n, k) ≠ (.sweepInterval, ctlKey op.table op.atype))
    (ha : (n, k) ≠ (.sweepActive, ctlKey op.table op.atype)) :
    (s.sweepSet op).field n k = s.field n k :=
  (State.field_putField_of_ne _ rfl ha).trans (State.field_putField_of_ne _ rfl hi)

end

/-- A waiting `LOCK` acknowledges when nothing runs on its table, and else waits on (R410). -/
theorem exec_lock_again {s : State} {o : OpFields} (ht : TableExists s (opOfFields .lock o).table)
    (hf : opOfFields .lock o ∉ s.swp.inFlight) {u : State}
    (hu : u = ((incLock (opOfFields .lock o).table o.atype s).setSwp
      { (incLock (opOfFields .lock o).table o.atype s).swp with
        lockWaiting := [opOfFields .lock o] }).setResult .none) :
    ((s.ctl (opOfFields .lock o).table o.atype).running = 0 → exec (.lock o) u =
      .next (((u.setSwp { u.swp with lockWaiting := [] }).emit (.lockAck (opOfFields .lock o).table o.atype
        (u.ctl (opOfFields .lock o).table o.atype).epoch)).setResult .none)) ∧
    ((s.ctl (opOfFields .lock o).table o.atype).running ≠ 0 → exec (.lock o) u = .next u) := by
  have locked : u.ctl (opOfFields .lock o).table o.atype = lockedCtl (s.ctl (opOfFields .lock o).table o.atype) := by
    rw [hu]
    exact (State.ctl_putCtl s _ _ _ _ _).trans (if_pos ⟨rfl, rfl⟩)
  have running : (u.ctl (opOfFields .lock o).table (opOfFields .lock o).atype).running
      = (s.ctl (opOfFields .lock o).table o.atype).running :=
    (congrArg TableOpCtl.running locked).trans (running_lockedCtl _)
  have waiting : u.swp.lockWaiting = [opOfFields .lock o] := by rw [hu]; rfl
  have flying : u.swp.inFlight = s.swp.inFlight := by rw [hu]; rfl
  have table : TableExists u (opOfFields .lock o).table := by rw [hu]; exact ht
  have again := exec_lock_of_waiting table (by rwa [flying]) (waiting ▸ List.mem_cons_self)
  refine ⟨fun quiet => ?_, fun busy => ?_⟩
  · rw [again, completeLock_of_idle (running.trans quiet), waiting, List.erase_cons_head]
    rfl
  · rw [again, completeLock_of_running (running ▸ busy), hu]
    rfl

/-- Settles O48: each row by when it may begin, then the sweeper's own steps by the rows. -/
theorem controlOperationsRun : Obligations.ControlOperationsRun := by
  intro s o t op c idle ht
  refine ⟨fun ⟨hl, hf⟩ => ⟨_, exec_lock_of_ready ht hl hf, rfl, exec_lock_again ht hf rfl⟩,
    fun ⟨hl, hf⟩ locked => exec_unlock_of_ready ht hl hf locked,
    fun ⟨hl, hf⟩ empty => exec_control_of_ready (mem_controlRows o).2.2.2 ht hl hf fun _ => empty,
    fun ⟨hl, hf⟩ flying => ?_, fun ⟨hl, hf⟩ bits => ?_, fun l rest act hag hbody hrun => ?_⟩
  · have notWaiting : opOfFields .barrier o ∉ s.swp.lockWaiting := hl ▸ List.not_mem_nil
    exact outcome_of_ok (bind_of_ok s _ (opStep_of_blocked ht hf notWaiting (canBegin_of_inFlight rfl flying)))
  · exact ⟨_, exec_intervalSet_of_ready ht hl hf (intervalArgOk_of_bits bits), field_sweepSet_interval _,
      flag_sweepSet_active _, masksHold_recomputeMasks _, fun n k hi ha =>
      field_sweepSet_of_ne (opOfFields .intervalSet o) hi ha, rfl⟩
  let s1 := enterAuto act (enterLine l rest s)
  have auto : step s = outcome (autoMeaning act) s1 := step_of_auto hag hbody hrun
  refine ⟨?_, ?_⟩
  · rintro rfl
    have begins {m : M Unit} {s' : State} (h : sweeperBegin s1 = m s') :
        step s = outcome (m >>= fun _ => pure .none) s' := auto.trans (outcome_bind_at h)
    have rests (h : sweeperBegin s1 = .ok () s1) : step s = .next (s1.setResult .none) := begins (m := pure ()) h
    refine ⟨fun e he head ⟨hl, hf⟩ barrier => ?_, fun h => ?_, fun b head hb flying => ?_⟩
    · exact (begins (sweeperBegin_of_head (s := s1) head (canBegin_of_ready hl barrier))).trans
        (exec_control_of_ready (s := s1.popped) he ht hl hf barrier).symm
    · cases head : (s1.swp.opsHi ++ s1.swp.opsLo).head? with
      | none => exact rests (sweeperBegin_of_empty head)
      | some b =>
        have waits : s.swp.lockWaiting ≠ [] := h.resolve_left fun none => by cases head.symm.trans none
        exact rests (sweeperBegin_of_blocked head (canBegin_of_waiting waits))
    · exact rests (sweeperBegin_of_blocked (s := s1) head (canBegin_of_inFlight hb flying))
  · rintro k rfl waiting hf
    exact (auto.trans (outcome_of_ok (bind_of_ok s1 _ (lockComplete_of_getElem? waiting)))).trans
      (exec_lock_of_waiting (s := s1) ht hf (List.mem_of_getElem? waiting)).symm

end Sys2Proof.Machine
end

section
/-! PROOF. Creation of operations by the host and by a tick (R407, R417, R419). -/

namespace Sys2Proof.Machine

/-! ### `OP_CREATE` (R407) -/

section
variable {s : State} {code : BitVec 4} {a : AType} {t : TableId} {arg : BitVec 64} {q : QueueSel}

theorem opCodeOf_eq_none_iff : ∀ code : BitVec 4, opCodeOf code = none ↔ 8 ≤ code.toNat := by decide

theorem opCodeOf_of_lt (h : code.toNat < 8) : ∃ oc, opCodeOf code = some oc :=
  Option.ne_none_iff_exists'.1 fun e => absurd ((opCodeOf_eq_none_iff code).1 e) (Nat.not_le.2 h)

theorem exec_opCreate_of_exists {oc : OpCode} (hc : opCodeOf code = some oc) (ht : TableExists s t) :
    exec (.opCreate code a t arg q) s = .next ((enqueueOp q
      { table := t, atype := a, opcode := oc, arg := arg, epoch := (s.ctl t a).epoch } s).setResult .none) := by
  have table := (tableInRange_iff s.params t).2 ht
  exact outcome_of_ok (by simp only [look_bind, id, hc, table, if_true, change_bind, pure_apply])

theorem exec_opCreate_of_reserved (hc : opCodeOf code = none) :
    exec (.opCreate code a t arg q) s = .refused .reservedCode :=
  outcome_of_refused (t := s) (by simp only [look_bind, hc]; rfl)

theorem exec_opCreate_of_absent {oc : OpCode} (hc : opCodeOf code = some oc) (ht : ¬ TableExists s t) :
    exec (.opCreate code a t arg q) s = .next (if s.strict.sramVpn then
      (s.afterRaise (some (t.pipe, t.stage)) (.tableRange t)).setResult .none
      else s.afterRaise (some (t.pipe, t.stage)) (.tableRange t)) := by
  have absent := mt (tableInRange_iff s.params t).1 ht
  exact outcome_of_raise rfl (by simp only [look_bind, id, hc, if_neg absent])

end

/-! ### A tick (R417, R419) -/

section
variable {s : State} {tick i st p : Nat} {op : Op}

/-- The sweep that a tick creates for a table. -/
def State.sweepOp (s : State) (p st : Nat) (x : Nat × AType) : Op :=
  { table := { pipe := p, stage := st, lt := x.1 }, atype := x.2, opcode := .sweep, arg := 0,
    epoch := (s.ctl { pipe := p, stage := st, lt := x.1 } x.2).epoch }

/-- The sweeps of interval `i` in one stage of one pipe. -/
def State.sweepsOfStage (s : State) (i st p : Nat) : List Op :=
  ((tableSlots s.params).filter fun x => sweepsAt s p st x.1 x.2 i).map (s.sweepOp p st)

/-- The intervals that a tick serves, and the stages that have a table of interval `i`. -/
def State.dueIntervals (s : State) (tick : Nat) : List Nat :=
  (List.range 32).filter fun i => s.swp.maskGlobal.getLsbD i && tick % 2 ^ i == 0

def State.sweptStages (s : State) (i : Nat) : List Nat :=
  (List.range s.params.numStages).filter fun st => (Store.get 0 s.swp.maskStage [st]).getLsbD i

theorem tickOps_eq : tickOps s tick = (s.dueIntervals tick).flatMap fun i => (s.sweptStages i).flatMap fun st =>
    (List.range s.params.numPipes).flatMap (s.sweepsOfStage i st) := rfl

/-- The operation is a sweep of interval `i`, as a tick creates it. -/
def IsSweep (s : State) (i : Nat) (op : Op) : Prop :=
  op.opcode = .sweep ∧ op.arg = 0 ∧ op.epoch = (s.ctl op.table op.atype).epoch ∧ op.table.lt < s.params.numLt ∧
    sweepsAt s op.table.pipe op.table.stage op.table.lt op.atype i = true

theorem mem_sweepsOfStage :
    op ∈ s.sweepsOfStage i st p ↔ IsSweep s i op ∧ op.table.stage = st ∧ op.table.pipe = p := by
  rw [State.sweepsOfStage, List.mem_map]
  constructor
  · rintro ⟨⟨lt, a⟩, hx, rfl⟩
    obtain ⟨slot, active⟩ := List.mem_filter.1 hx
    exact ⟨⟨rfl, rfl, rfl, (mem_tableSlots _ _ _).1 slot, active⟩, rfl, rfl⟩
  · obtain ⟨⟨pipe, stage, lt⟩, a, opcode, arg, epoch⟩ := op
    rintro ⟨⟨rfl, rfl, current, slot, active⟩, rfl, rfl⟩
    exact ⟨(lt, a), List.mem_filter.2 ⟨(mem_tableSlots _ _ _).2 slot, active⟩, congrArg (Op.mk _ _ _ _) current.symm⟩

theorem mem_tickOps : op ∈ tickOps s tick ↔ ∃ i ∈ s.dueIntervals tick, IsSweep s i op ∧
    op.table.stage ∈ s.sweptStages i ∧ op.table.pipe < s.params.numPipes := by
  simp only [tickOps_eq, List.mem_flatMap, mem_sweepsOfStage, List.mem_range]
  constructor
  · rintro ⟨i, hi, st, hst, p, hp, sweep, rfl, rfl⟩
    exact ⟨i, hi, sweep, hst, hp⟩
  · rintro ⟨i, hi, sweep, hst, hp⟩
    exact ⟨i, hi, _, hst, _, hp, sweep, rfl, rfl⟩

/-- With right masks a tick creates exactly the sweeps that are due. -/
theorem mem_tickOps_of_masksHold (masks : MasksHold s) : op ∈ tickOps s tick ↔ op.opcode = .sweep ∧ op.arg = 0 ∧
    TableExists s op.table ∧ op.epoch = (s.ctl op.table op.atype).epoch ∧
    ∃ i < 32, sweepsAt s op.table.pipe op.table.stage op.table.lt op.atype i = true ∧ tick % 2 ^ i = 0 := by
  obtain ⟨stages, whole⟩ := masks
  simp only [mem_tickOps, State.dueIntervals, State.sweptStages, List.mem_filter, List.mem_range, Bool.and_eq_true,
    beq_iff_eq]
  constructor
  · rintro ⟨i, ⟨hi, -, due⟩, ⟨code, arg, epoch, lt, active⟩, ⟨hst, -⟩, hp⟩
    exact ⟨code, arg, ⟨hp, hst, lt⟩, epoch, i, hi, active, due⟩
  · rintro ⟨code, arg, ⟨hp, hst, lt⟩, epoch, i, hi, active, due⟩
    have inStage := (stages _ hst i hi).2 ⟨_, hp, _, lt, _, active⟩
    exact ⟨i, ⟨hi, (whole i hi).2 ⟨_, hst, inStage⟩, due⟩, ⟨code, arg, epoch, lt, active⟩, ⟨hst, inStage⟩, hp⟩

/-! ### The order of a tick's sweeps -/

/-- Where a sweep stands among those of its tick: interval, stage, pipe, table and address type. -/
abbrev State.place (s : State) (op : Op) : List Nat :=
  [s.field .sweepInterval (ctlKey op.table op.atype), op.table.stage, op.table.pipe, op.table.lt, op.atype.ctorIdx]

theorem place_of_isSweep (h : IsSweep s i op) :
    s.place op = [i, op.table.stage, op.table.pipe, op.table.lt, op.atype.ctorIdx] := by
  obtain ⟨-, -, -, -, active⟩ := h
  rw [sweepsAt, Bool.and_eq_true, beq_iff_eq] at active
  exact congrArg (· :: _) active.2

theorem place_lt_of_interval {j : Nat} {x y : Op} (hx : IsSweep s i x) (hy : IsSweep s j y) (h : i < j) :
    s.place x < s.place y := by
  rw [place_of_isSweep hx, place_of_isSweep hy]
  exact List.cons_lt_cons_iff.2 (.inl h)

theorem place_lt_of_stage {x y : Op} (hx : IsSweep s i x) (hy : IsSweep s i y) (h : x.table.stage < y.table.stage) :
    s.place x < s.place y := by
  rw [place_of_isSweep hx, place_of_isSweep hy]
  exact List.cons_lt_cons_iff.2 (.inr ⟨rfl, List.cons_lt_cons_iff.2 (.inl h)⟩)

theorem place_lt_of_pipe {x y : Op} (hx : IsSweep s i x) (hy : IsSweep s i y) (hst : x.table.stage = y.table.stage)
    (h : x.table.pipe < y.table.pipe) : s.place x < s.place y := by
  rw [place_of_isSweep hx, place_of_isSweep hy, hst]
  exact List.cons_lt_cons_iff.2 (.inr ⟨rfl, List.cons_lt_cons_iff.2 (.inr ⟨rfl, List.cons_lt_cons_iff.2 (.inl h)⟩)⟩)

theorem tableSlots_pairwise (params : Params) :
    (tableSlots params).Pairwise fun x y => [x.1, x.2.ctorIdx] < [y.1, y.2.ctorIdx] := by
  refine List.pairwise_flatMap.2 ⟨fun lt _ => ?_, List.pairwise_lt_range.imp fun {lt lt'} h x hx y hy => ?_⟩
  · exact List.pairwise_pair.2 (by simp [AType.ctorIdx, List.cons_lt_cons_iff])
  · simp only [List.mem_cons, List.not_mem_nil, or_false] at hx hy
    rcases hx with rfl | rfl <;> rcases hy with rfl | rfl <;> exact List.cons_lt_cons_iff.2 (.inl h)

theorem sweepsOfStage_pairwise : (s.sweepsOfStage i st p).Pairwise fun x y => s.place x < s.place y := by
  refine List.pairwise_map.2 (List.Pairwise.imp_of_mem ?_ ((tableSlots_pairwise s.params).filter _))
  intro x y hx hy below
  have place {z : Nat × AType} (hz : z ∈ (tableSlots s.params).filter fun x => sweepsAt s p st x.1 x.2 i) :
      s.place (s.sweepOp p st z) = [i, st, p, z.1, z.2.ctorIdx] :=
    place_of_isSweep (mem_sweepsOfStage.1 (List.mem_map_of_mem hz)).1
  rw [place hx, place hy]
  simpa only [List.cons_lt_cons_iff, lt_irrefl, true_and, false_or] using below

/-- The sweeps of one interval in one stage, pipe by pipe. -/
theorem sweepsOfPipes_pairwise : ((List.range s.params.numPipes).flatMap (s.sweepsOfStage i st)).Pairwise
    fun x y => s.place x < s.place y := by
  refine List.pairwise_flatMap.2 ⟨fun p _ => sweepsOfStage_pairwise, List.pairwise_lt_range.imp ?_⟩
  intro p p' h x hx y hy
  obtain ⟨sweepX, stX, rfl⟩ := mem_sweepsOfStage.1 hx
  obtain ⟨sweepY, stY, rfl⟩ := mem_sweepsOfStage.1 hy
  exact place_lt_of_pipe sweepX sweepY (stX.trans stY.symm) h

theorem isSweep_of_mem (h : op ∈ (List.range s.params.numPipes).flatMap (s.sweepsOfStage i st)) :
    IsSweep s i op ∧ op.table.stage = st := by
  obtain ⟨p, -, mem⟩ := List.mem_flatMap.1 h
  obtain ⟨sweep, stage, -⟩ := mem_sweepsOfStage.1 mem
  exact ⟨sweep, stage⟩

/-- The sweeps of one interval, stage by stage. -/
theorem sweepsOfStages_pairwise : ((s.sweptStages i).flatMap fun st =>
    (List.range s.params.numPipes).flatMap (s.sweepsOfStage i st)).Pairwise fun x y => s.place x < s.place y := by
  refine List.pairwise_flatMap.2 ⟨fun st _ => sweepsOfPipes_pairwise, (List.pairwise_lt_range.filter _).imp ?_⟩
  intro st st' h x hx y hy
  obtain ⟨sweepX, rfl⟩ := isSweep_of_mem hx
  obtain ⟨sweepY, rfl⟩ := isSweep_of_mem hy
  exact place_lt_of_stage sweepX sweepY h

theorem tickOps_pairwise : (tickOps s tick).Pairwise fun x y => s.place x < s.place y := by
  rw [tickOps_eq]
  refine List.pairwise_flatMap.2 ⟨fun i _ => sweepsOfStages_pairwise, (List.pairwise_lt_range.filter _).imp ?_⟩
  intro i j h x hx y hy
  obtain ⟨st, -, memX⟩ := List.mem_flatMap.1 hx
  obtain ⟨st', -, memY⟩ := List.mem_flatMap.1 hy
  exact place_lt_of_interval (isSweep_of_mem memX).1 (isSweep_of_mem memY).1 h

theorem tickOps_nodup : (tickOps s tick).Nodup := by
  refine (tickOps_pairwise (s := s)).imp ?_
  rintro x _ h rfl
  exact List.lt_irrefl _ h

end

/-- Settles O50: creation by the opcode and the table, the tick by what its loops visit, and in which order. -/
theorem operationsAreCreated : Obligations.OperationsAreCreated := by
  intro s code a t arg
  refine ⟨fun oc hc ht => ⟨exec_opCreate_of_exists hc ht, exec_opCreate_of_exists hc ht⟩,
    fun q h => exec_opCreate_of_reserved ((opCodeOf_eq_none_iff code).2 h), fun q h ht strict => ?_,
    fun q h ht relaxed => ?_, fun masks => ⟨tickOps s (s.swp.tick + 1), rfl, fun op => mem_tickOps_of_masksHold masks,
      tickOps_nodup, tickOps_pairwise⟩⟩
  all_goals obtain ⟨oc, hc⟩ := opCodeOf_of_lt h
  · rw [exec_opCreate_of_absent hc ht, strict]
    rfl
  · rw [exec_opCreate_of_absent hc ht, relaxed]
    rfl

end Sys2Proof.Machine
end

section
/-! SUPPORT. A walk through quiet stages: what it leaves as it was, and where it ends (R390, R445, R446, R526). -/

namespace Sys2Proof.Machine

/-! ### What a quiet walk keeps -/

/-- The stores and the error log are as they were, and snapshot units at rest stay at rest. -/
structure WalkKept (s t : State) : Prop where
  stores : SameStores s t
  err : t.err = s.err
  snaps : ∀ p st, SnapsRest p st s.snap → SnapsRest p st t.snap

section
variable {s t u : State} {p st : Nat}

/-- States that differ in what no store holds. -/
theorem WalkKept.of_stores (stores : SameStores s t) (err : t.err = s.err) (snap : t.snap = s.snap) : WalkKept s t :=
  ⟨stores, err, fun _ _ h => snap ▸ h⟩

theorem WalkKept.refl (s : State) : WalkKept s s :=
  .of_stores ⟨rfl, rfl, rfl, rfl, rfl, rfl, rfl, rfl, rfl, rfl, rfl, rfl⟩ rfl rfl

theorem WalkKept.trans (h : WalkKept s t) (h' : WalkKept t u) : WalkKept s u := by
  obtain ⟨⟨params, cfg, mem, tcam, gw, stats, sel, salu, ctrs, teop, swp, strict⟩, err, snaps⟩ := h
  obtain ⟨⟨params', cfg', mem', tcam', gw', stats', sel', salu', ctrs', teop', swp', strict'⟩, err', snaps'⟩ := h'
  exact ⟨⟨params'.trans params, cfg'.trans cfg, mem'.trans mem, tcam'.trans tcam, gw'.trans gw, stats'.trans stats,
    sel'.trans sel, salu'.trans salu, ctrs'.trans ctrs, teop'.trans teop, swp'.trans swp, strict'.trans strict⟩,
    err'.trans err, fun p st rest => snaps' p st (snaps p st rest)⟩

theorem WalkKept.params (h : WalkKept s t) : t.params = s.params := h.stores.1

theorem WalkKept.quietConfig (h : WalkKept s t) (quiet : QuietConfig s p st) : QuietConfig t p st := by
  obtain ⟨⟨params, cfg, -, -, -, -, -, -, ctrs, -⟩, -, snaps⟩ := h
  obtain ⟨rows, counters, rest⟩ := quiet
  have counter (c : Nat) : t.counter p st c = s.counter p st c := by rw [State.counter, ctrs]; rfl
  refine ⟨fun r hr => ?_, fun c hc => ?_, snaps p st rest⟩
  · obtain ⟨gateway, columns⟩ := rows r (params ▸ hr)
    exact ⟨(State.flag_eq_of_cfg cfg _ _).trans gateway,
      fun c hc => (State.field_eq_of_cfg cfg _ _).trans (columns c hc)⟩
  · exact (congrArg (ctrActive ·.flags) (counter c)).trans (counters c (params ▸ hc))

theorem WalkKept.quietPipe {pkt : Packet} (h : WalkKept s t) (quiet : QuietPipe s p pkt) : QuietPipe t p pkt := by
  obtain ⟨hp, stages, addrs⟩ := quiet
  rw [QuietPipe, h.params]
  exact ⟨hp, fun st hst => h.quietConfig (stages st hst), addrs⟩

theorem WalkKept.quietOut (h : WalkKept s t) (pkt : Packet) : quietOut t pkt = quietOut s pkt := by
  simp only [Machine.quietOut, quietBytes, h.params]

end

/-! ### One stage (R526, R540) -/

section
variable {s t : State} {p st : Nat}

/-- A row of a quiet stage only resets its resources. -/
theorem runRow_of_off {r : Nat} (gateway : s.flag .gwEnable [p, st, r] = false)
    (columns : ∀ c < numCols, s.field .colMode [p, st, r, c] = 0) (ht : t.cfg = s.cfg) :
    runRow p st r t = .ok () (resetResources p st r t) := by
  have gatewayOff (u : State) (hu : u.cfg = s.cfg) : runGateway p st r u = .ok .notRun u := by
    rw [runGateway, look_bind, State.flag_eq_of_cfg hu, gateway]
    rfl
  have columnOff (u : State) (hu : u.cfg = s.cfg) (c : Nat) (hc : c < numCols) : runColumn p st r c u = .ok none u := by
    rw [runColumn, look_bind, State.field_eq_of_cfg hu, columns c hc]
    rfl
  rw [runRow, change_bind, bind_of_ok _ _ (gatewayOff (resetResources p st r t) ht)]
  exact forEach_skip _ _ _ fun c hc => by
    rw [bind_of_ok _ _ (columnOff (resetResources p st r t) ht c (List.mem_range.1 hc))]; rfl

/-- The snapshot units that rest in the first state rest in the second. -/
def SnapsKept (s t : State) : Prop := ∀ p st, SnapsRest p st s.snap → SnapsRest p st t.snap

/-- The step of a resting unit wakes no other unit. -/
theorem snapsKept_snapshotStep (h : SnapsRest p st t.snap) (kept : SnapsKept s t) :
    SnapsKept s (snapshotStep p st t) := by
  obtain ⟨passive, settled⟩ := h t.act.io.gress
  have state : (t.snapUnit p st t.act.io.gress).state = .passive := passive
  have written (u : SnapUnit) (hu : u.state = .passive) (hu' : u.pending = false) (p' st' : Nat)
      (rest : SnapsRest p' st' t.snap) :
      SnapsRest p' st' (Store.set {} t.snap [p, st, t.act.io.gress.ctorIdx] u) := by
    intro g
    rw [Store.get_set]
    split
    · exact ⟨hu, hu'⟩
    · exact rest g
  intro p' st' rest
  unfold snapshotStep
  simp only [state, snapFires, Bool.false_eq_true, if_false]
  split
  · exact written _ (by exact rfl) (by exact settled) p' st' (kept p' st' rest)
  · exact written _ (by exact rfl) (by exact settled) p' st' (kept p' st' rest)

/-- The quiet stage comes to its lookup results, and every resting snapshot unit still rests there. -/
theorem stageCycle_of_quiet_kept (quiet : QuietConfig s p st) :
    ∃ x, stageCycle p st s = afterLookups p st (s.cycling.within x) ∧ QuietSurroundings s p st x ∧
      SnapsKept s (s.cycling.within x) := by
  obtain ⟨rowsOff, countersRest, snapsRest⟩ := quiet
  have clean := cleanStage_eq (p := p) (st := st) s.cycling
  have cleaned : Entered s p st (cleanStage p st s.cycling) ∧ SnapsKept s (cleanStage p st s.cycling) := by
    rw [clean]
    exact ⟨⟨{ s.cycling.surroundings with row := cleanRows s.params p st s.row }, rfl, rfl,
      rowsClean_cleanRows _ _, snapsRest⟩, fun _ _ h => h⟩
  obtain ⟨t, swept, entered, kept⟩ := forEach_keeps (l := List.range s.params.numCtrs)
    (I := fun t => Entered s p st t ∧ SnapsKept s t) (f := fun c => continueClearTill p st c s.act.io.t)
    (fun c hc t ⟨entered, kept⟩ => by
      have inactive := countersRest c (List.mem_range.1 hc)
      obtain ⟨u, run, entered'⟩ := continueClearTill_entered inactive s.act.io.t entered
      obtain ⟨x, rfl, -⟩ := entered
      cases run.symm.trans (continueClearTill_of_inactive (s := s.cycling.within x) _ inactive)
      exact ⟨_, run, entered', kept⟩) _ cleaned
  have stepped : Entered s p st (snapshotStep p st t) ∧ SnapsKept s (snapshotStep p st t) := by
    refine ⟨?_, snapsKept_snapshotStep (kept p st snapsRest) kept⟩
    obtain ⟨x, rfl, phv, rows, snaps⟩ := entered
    obtain ⟨snap, step, rest⟩ := snapshotStep_of_rest (s := s.cycling.within x) snaps
    rw [step]
    exact ⟨{ x with snap := snap }, rfl, phv, rows, rest⟩
  obtain ⟨u, ran, ⟨x, rfl, surroundings⟩, keptRows⟩ := forEach_keeps (l := List.range s.params.numRows)
    (I := fun t => Entered s p st t ∧ SnapsKept s t) (f := runRow p st)
    (fun r hr t ⟨entered, kept⟩ => by
      obtain ⟨gateway, columns⟩ := rowsOff r (List.mem_range.1 hr)
      obtain ⟨u, run, entered'⟩ := runRow_entered gateway columns entered
      obtain ⟨x, rfl, -⟩ := entered
      cases run.symm.trans (runRow_of_off (t := s.cycling.within x) gateway columns rfl)
      exact ⟨_, run, entered', kept⟩) _ stepped
  refine ⟨x, ?_, surroundings, keptRows⟩
  unfold stageCycle
  rw [clean] at swept
  rw [change_bind, change_bind, look_bind, ← State.cycling, clean]
  refine (bind_of_ok _ _ swept).trans ?_
  rw [change_bind]
  exact (bind_of_ok _ _ ran).trans rfl

/-- No tEOP bus holds an address. -/
def BusesIdle (s : State) : Prop := ∀ b, (Store.get ({} : TeopBus) s.act.io.buses [b]).valid = false

/-- The cycle of a quiet stage whose address distribution enables nothing. -/
theorem stageCycle_of_quietAddr (quiet : QuietConfig s p st) (idle : BusesIdle s)
    (nothing : quietAddr (addrFn s.params p st s.act.phv (emptyLookup s.params)) = true) :
    ∃ t, stageCycle p st s = .ok () t ∧ WalkKept s t ∧ t.coord = s.coord ∧
      t.act.phv = quietPhv s.params st s.act.phv ∧ BusesIdle t := by
  obtain ⟨x, entry, surroundings, kept⟩ := stageCycle_of_quiet_kept quiet
  have turns := runAlus_of_quiet (p := p) (st := st) nothing (s.cycling.within x)
  have consumed := consumeAll_of_invalid (s := s.cycling.within x) (p := p) (st := st) idle
  exact ⟨_, entry.trans (afterLookups_of_turns surroundings turns consumed),
    ⟨⟨rfl, rfl, rfl, rfl, rfl, rfl, rfl, rfl, rfl, rfl, rfl, rfl⟩, rfl, kept⟩, rfl, rfl, idle⟩

end

/-! ### A pipe (R445, R446) -/

section
variable {s : State} {p : Nat}

/-- A walk through quiet stages. -/
theorem forEach_stageCycle : ∀ (l : List Nat) (s : State), (∀ st ∈ l, QuietConfig s p st) → BusesIdle s →
    QuietAddrs s.params p l s.act.phv → ∃ t, forEach l (stageCycle p) s = .ok () t ∧ WalkKept s t ∧
      t.coord = s.coord ∧ t.act.phv = quietWalk s.params l s.act.phv
  | [], s, _, _, _ => ⟨s, rfl, .refl s, rfl, rfl⟩
  | st :: l, s, quiet, idle, ⟨nothing, others⟩ => by
    obtain ⟨t, cycle, kept, coord, phv, idle'⟩ := stageCycle_of_quietAddr (quiet st List.mem_cons_self) idle nothing
    obtain ⟨u, walk, kept', coord', phv'⟩ := forEach_stageCycle l t
      (fun st' h => kept.quietConfig (quiet st' (List.mem_cons_of_mem _ h))) idle'
      (by rw [kept.params, phv]; exact others)
    refine ⟨u, (forEach_cons s st l _).trans ((bind_of_ok s _ cycle).trans walk), kept.trans kept',
      coord'.trans coord, phv'.trans ?_⟩
    rw [kept.params, phv]
    rfl

/-- What a walk leaves behind: the pipe's clock has moved, and the buses are empty. -/
structure Walked (p g : Nat) (s t : State) : Prop where
  kept : WalkKept s t
  buses : t.act.io.buses = []
  coord : t.coord = { s.coord with pipes := t.coord.pipes }
  pipes : ∀ q, t.pipe q = { s.pipe q with cycle := if q = p then (s.pipe q).cycle + g + 1 else (s.pipe q).cycle }

theorem mauWalk_of_quiet {gress : Gress} {phv : Phv} (pkt : Packet)
    (quiet : ∀ st < s.params.numStages, QuietConfig s p st)
    (nothing : QuietAddrs s.params p (List.range s.params.numStages) phv) :
    ∃ t g, mauWalk p gress phv pkt s = .ok (quietWalk s.params (List.range s.params.numStages) phv) t ∧
      Walked p g s t := by
  let g := Config.idleGap s.draws
  let s1 := s.setDraws (s.draws + 1)
  let s2 := s1.setAct { s1.act with io := injectedIo gress ((s.pipe p).cycle + g) pkt.bytes.length, phv := phv }
  let s3 := s2.putPipe p { s2.pipe p with cycle := (s.pipe p).cycle + g + 1 }
  have injected : WalkKept s s3 := .of_stores ⟨rfl, rfl, rfl, rfl, rfl, rfl, rfl, rfl, rfl, rfl, rfl, rfl⟩ rfl rfl
  obtain ⟨t, walk, kept, coord, phv'⟩ := forEach_stageCycle (p := p) (List.range s.params.numStages) s3
    (fun st h => injected.quietConfig (quiet st (List.mem_range.1 h))) (fun _ => rfl) nothing
  have run : mauWalk p gress phv pkt s = .ok (dropBuses t).act.phv (dropBuses t) := by
    unfold mauWalk
    rw [bind_of_ok s _ (drawIndex_apply s), change_bind, look_bind]
    refine (bind_of_ok s3 _ walk).trans ?_
    rw [change_bind]
    rfl
  have phv'' : (dropBuses t).act.phv = quietWalk s.params (List.range s.params.numStages) phv := phv'
  have dropped : WalkKept t (dropBuses t) :=
    .of_stores ⟨rfl, rfl, rfl, rfl, rfl, rfl, rfl, rfl, rfl, rfl, rfl, rfl⟩ rfl rfl
  refine ⟨dropBuses t, g, by rw [run, phv''], (injected.trans kept).trans dropped, rfl, ?_, fun q => ?_⟩
  · have same : (dropBuses t).coord = s3.coord := coord
    rw [same]
    rfl
  · have same : (dropBuses t).pipe q = s3.pipe q := by
      rw [State.pipe, show (dropBuses t).coord = s3.coord from coord]
      rfl
    rw [same, State.pipe_putPipe]
    split
    · next e => rw [e]; rfl
    · rfl

/-- A packet walks through a quiet pipe. -/
theorem walkPacket_of_quiet {pkt : Packet} (gress : Gress) (quiet : QuietPipe s p pkt) :
    ∃ t g, walkPacket p gress pkt s = .ok (quietOut s pkt) t ∧ Walked p g s t := by
  obtain ⟨-, stages, addrs⟩ := quiet
  obtain ⟨t, g, walk, walked⟩ := mauWalk_of_quiet (gress := gress) pkt stages addrs
  refine ⟨t, g, ?_, walked⟩
  unfold walkPacket
  rw [look_bind, bind_of_ok s _ walk]
  rfl

end

end Sys2Proof.Machine
end

section
/-! PROOF. The activations of a quiet pipe and the packets they deliver (R441 to R447, R456). -/

namespace Sys2Proof.Machine

/-! ### What activations do -/

section
variable {s t u : State} {p : Nat}

/-- What `n` activations in pipe `p` do: they deliver `ps`, transmit `tx`, and take `fresh` identities; `g` are the idle
cycles of their walks. -/
structure Activated (p g n : Nat) (ps : List Packet) (tx : List TxRec) (fresh : Nat) (s t : State) : Prop where
  kept : WalkKept s t
  pipes : ∀ q, t.pipe q = { s.pipe q with
    cycle := if q = p then (s.pipe q).cycle + g + n else (s.pipe q).cycle
    qTm := (s.pipe q).qTm ++ ps.filter (fun x => x.pipe == q) }
  txOut : t.coord.txOut = s.coord.txOut ++ tx
  pending : t.coord.pending = s.coord.pending + ps.length
  nextId : t.coord.nextId = s.coord.nextId + fresh
  workers : ∀ w, t.worker w = s.worker w ∨
    (s.worker w).wstate = .waiting ∧ t.worker w = { s.worker w with notified := true }

theorem Activated.refl (p : Nat) (s : State) : Activated p 0 0 [] [] 0 s s where
  kept := .refl s
  pipes q := by simp
  txOut := (List.append_nil _).symm
  pending := rfl
  nextId := rfl
  workers _ := .inl rfl

theorem Activated.trans {g g' n n' fresh fresh' : Nat} {ps ps' : List Packet} {tx tx' : List TxRec}
    (h : Activated p g n ps tx fresh s t) (h' : Activated p g' n' ps' tx' fresh' t u) :
    Activated p (g + g') (n + n') (ps ++ ps') (tx ++ tx') (fresh + fresh') s u where
  kept := h.kept.trans h'.kept
  pipes q := by
    rw [h'.pipes q, h.pipes q, List.filter_append, List.append_assoc]
    split
    · simp
      omega
    · simp
  txOut := by rw [h'.txOut, h.txOut, List.append_assoc]
  pending := by rw [h'.pending, h.pending, List.length_append, Nat.add_assoc]
  nextId := by rw [h'.nextId, h.nextId, Nat.add_assoc]
  workers w := by
    rcases h.workers w with same | ⟨waits, marked⟩
    · rw [← same]
      exact h'.workers w
    · refine .inr ⟨waits, ?_⟩
      rcases h'.workers w with same | ⟨-, again⟩
      · exact same.trans marked
      · rw [again, marked]

theorem Walked.activated {g : Nat} (h : Walked p g s t) : Activated p g 1 [] [] 0 s t where
  kept := h.kept
  pipes q := (h.pipes q).trans (by simp)
  txOut := by rw [h.coord, List.append_nil]
  pending := (congrArg CoordState.pending h.coord :)
  nextId := (congrArg CoordState.nextId h.coord :)
  workers _ := .inl (by rw [State.worker, h.coord, h.kept.params]; rfl)

/-! ### Delivery (R436, R442) -/

/-- A packet from the traffic manager enters its pipe's queue. -/
theorem enqueueTm_of_lt {q : Nat} (pkt : Packet) (h : q < s.params.numPipes) :
    ∃ t, enqueueTm q pkt s = .ok () t ∧ Activated p 0 0 [{ pkt with pipe := q, kind := .fromTm }] [] 0 s t ∧
      t.act = s.act := by
  obtain ⟨t, run, frame, coord, nobody, somebody⟩ :=
    packetArrived_spec (pushTm q { pkt with pipe := q, kind := .fromTm } s)
  refine ⟨t, ?_, ⟨?_, fun q' => ?_, ?_, ?_, ?_, fun w => ?_⟩, ?_⟩
  · rw [enqueueTm, look_bind, if_pos h, change_bind, run]
  · rw [frame]
    exact .of_stores ⟨rfl, rfl, rfl, rfl, rfl, rfl, rfl, rfl, rfl, rfl, rfl, rfl⟩ rfl rfl
  · have same : t.pipe q' = (pushTm q { pkt with pipe := q, kind := .fromTm } s).pipe q' := by
      rw [State.pipe, coord]
      rfl
    rw [same, pushTm, State.pipe_putPipe]
    by_cases e : q' = q
    · simp [e]
    · simp [e, Ne.symm e]
  · rw [coord, List.append_nil]
    rfl
  · rw [coord]
    rfl
  · rw [coord]
    rfl
  · by_cases some : ∃ w < s.params.numWorkers, Unmarked s w
    · obtain ⟨w', -, ⟨waits, -⟩, marked, others⟩ := somebody some
      by_cases e : w = w'
      · exact .inr (e ▸ ⟨waits, marked⟩)
      · exact .inl (others w e)
    · exact .inl (nobody (fun w hw unmarked => some ⟨w, hw, unmarked⟩) w)
  · rw [frame]
    rfl

theorem freshId_apply (s : State) : freshId s = .ok s.coord.nextId (takeId s.coord.nextId s) := rfl

/-- Taking a fresh identity is no activation, and takes one identity. -/
theorem activated_takeId (p : Nat) (s : State) : Activated p 0 0 [] [] 1 s (takeId s.coord.nextId s) where
  kept := .of_stores ⟨rfl, rfl, rfl, rfl, rfl, rfl, rfl, rfl, rfl, rfl, rfl, rfl⟩ rfl rfl
  pipes q := (Activated.refl p s).pipes q
  txOut := (Activated.refl p s).txOut
  pending := rfl
  nextId := Nat.max_eq_right (Nat.le_succ _)
  workers _ := .inl rfl

/-- How many packets of a list are fresh, with the same one used or not. -/
def freshFrom : Bool → List TmOut → Nat
  | _, [] => 0
  | used, o :: os => (if o.same && !used then 0 else 1) + freshFrom (used || o.same) os

theorem freshFrom_true : ∀ l, freshFrom true l = l.length
  | [] => rfl
  | o :: os => by simp [freshFrom, freshFrom_true os, Nat.add_comm]

theorem freshFrom_add : ∀ l, freshFrom false l + (if l.any (fun o => o.same) then 1 else 0) = l.length
  | [] => rfl
  | o :: os => by
    rw [freshFrom, List.any_cons, List.length_cons]
    cases o.same
    · rw [Bool.false_or, Bool.false_or, Bool.false_and, if_neg Bool.false_ne_true, ← freshFrom_add os]
      omega
    · rw [Bool.or_true, freshFrom_true]
      simp

theorem freshFrom_false (l : List TmOut) : freshFrom false l = freshCount l := Nat.eq_sub_of_add_eq (freshFrom_add l)

/-- The identity of the next packet: its own or a fresh one. -/
theorem nextId_apply (own : Bool) (id p : Nat) (s : State) :
    ∃ t, (if own then pure id else freshId : M Nat) s = .ok (if own then id else s.coord.nextId) t ∧
      Activated p 0 0 [] [] (if own then 0 else 1) s t ∧ t.act = s.act := by
  cases own
  · exact ⟨_, freshId_apply s, activated_takeId p s, rfl⟩
  · exact ⟨s, rfl, .refl p s, rfl⟩

/-- The packets that `TmFn` returns reach their pipes. -/
theorem dispatchTm_of_lt (pkt : Packet) : ∀ (l : List TmOut) (used : Bool) (s : State),
    (∀ o ∈ l, o.pipe < s.params.numPipes) → ∃ t, dispatchTm pkt used l s = .ok () t ∧
      Activated p 0 0 (delivered pkt s.coord.nextId used l) [] (freshFrom used l) s t ∧ t.act = s.act
  | [], _, s, _ => ⟨s, rfl, .refl p s, rfl⟩
  | o :: os, used, s, h => by
    obtain ⟨s1, named, taken, act1⟩ := nextId_apply (o.same && !used) pkt.id p s
    let id := if o.same && !used then pkt.id else s.coord.nextId
    obtain ⟨s2, sent, arrived, act2⟩ := enqueueTm_of_lt (p := p) { pkt with bytes := o.bytes, port := o.port, id := id }
      (taken.kept.params ▸ h o List.mem_cons_self : o.pipe < s1.params.numPipes)
    have first := taken.trans arrived
    obtain ⟨t, others, rest, act⟩ := dispatchTm_of_lt pkt os (used || o.same) s2 fun o' ho' =>
      first.kept.params ▸ h o' (List.mem_cons_of_mem _ ho')
    have next : s2.coord.nextId = if o.same && !used then s.coord.nextId else s.coord.nextId + 1 := by
      rw [first.nextId]
      split <;> rfl
    refine ⟨t, ?_, ?_, act.trans (act2.trans act1)⟩
    · rw [dispatchTm]
      exact (bind_of_ok s _ named).trans ((bind_of_ok s1 _ sent).trans others)
    · rw [next] at rest
      exact first.trans rest

/-! ### The two activations (R442, R443) -/

theorem egressActivation_of_quiet {pkt : Packet} (quiet : QuietPipe s p pkt) :
    ∃ t g, egressActivation p pkt s = .ok () t ∧
      Activated p g 1 [] [txRecord s.params (quietOut s pkt)] 0 s t ∧ t.act.io.buses = [] ∧
      t.coord = { s.coord with pipes := t.coord.pipes,
                               txOut := s.coord.txOut ++ [txRecord s.params (quietOut s pkt)] } := by
  obtain ⟨t, g, walk, walked⟩ := walkPacket_of_quiet .egress quiet
  have coord : (transmit (quietOut s pkt) t).coord = { s.coord with
      pipes := t.coord.pipes, txOut := s.coord.txOut ++ [txRecord s.params (quietOut s pkt)] } := by
    rw [transmit, walked.kept.params, walked.coord]
    rfl
  have sent : WalkKept t (transmit (quietOut s pkt) t) :=
    .of_stores ⟨rfl, rfl, rfl, rfl, rfl, rfl, rfl, rfl, rfl, rfl, rfl, rfl⟩ rfl rfl
  exact ⟨transmit (quietOut s pkt) t, g, bind_of_ok s _ walk, { walked.activated with
    kept := walked.kept.trans sent, txOut := (congrArg CoordState.txOut coord :) }, walked.buses, coord⟩

theorem ingressActivation_of_quiet {pkt : Packet} (quiet : QuietPipe s p pkt)
    (inRange : ∀ o ∈ tmFn s.params (quietOut s pkt), o.pipe < s.params.numPipes) :
    ∃ t g, ingressActivation p pkt s = .ok () t ∧ Activated p g 1 (deliveredAll s s.coord.nextId [pkt]) []
      (freshCount (tmFn s.params (quietOut s pkt))) s t ∧ t.act.io.buses = [] := by
  obtain ⟨s1, g, walk, walked⟩ := walkPacket_of_quiet .ingress quiet
  have first := walked.activated
  obtain ⟨t, sent, delivered, act⟩ := dispatchTm_of_lt (p := p) (quietOut s pkt) (tmFn s.params (quietOut s pkt))
    false s1 (by rw [walked.kept.params]; exact inRange)
  refine ⟨t, g, ?_, ?_, (congrArg (·.io.buses) act).trans walked.buses⟩
  · rw [ingressActivation, look_bind, bind_of_ok s _ walk]
    exact sent
  · rw [freshFrom_false, first.nextId] at delivered
    have all := first.trans delivered
    rw [List.nil_append, Nat.zero_add] at all
    rw [deliveredAll, deliveredAll, List.append_nil]
    exact all

/-! ### The rails of a worker (R441, R447) -/

/-- The activation of the input packet, if there is one. -/
def inputRail (p : Nat) : Option Packet → M Nat
  | none => pure 0
  | some pkt => do
    ingressActivation p pkt
    pure 1

/-- The activation of the packet from the traffic manager, if there is one. -/
def tmRail (p n : Nat) : Option Packet → M Nat
  | none => pure n
  | some pkt => do
    if pkt.kind = .resubmit then ingressActivation p pkt else egressActivation p pkt
    pure (n + 1)

theorem processHeld_eq (h : Held) (s : State) :
    processHeld p h s = (inputRail p h.inPkt >>= fun n => tmRail p n h.tmPkt) s := by
  obtain ⟨q, x, y⟩ := h
  cases x <;> cases y <;> rfl

theorem inputRail_of_quiet (x : Option Packet) (quiet : ∀ pkt ∈ x.toList, QuietPipe s p pkt)
    (inRange : ∀ pkt ∈ x.toList, ∀ o ∈ tmFn s.params (quietOut s pkt), o.pipe < s.params.numPipes) :
    ∃ t g fresh, inputRail p x s = .ok x.toList.length t ∧
      Activated p g x.toList.length (deliveredAll s s.coord.nextId x.toList) [] fresh s t ∧
      ∀ id l, deliveredAll s id (x.toList ++ l) = deliveredAll s id x.toList ++ deliveredAll s (id + fresh) l := by
  cases x with
  | none => exact ⟨s, 0, 0, rfl, .refl p s, fun _ _ => rfl⟩
  | some pkt =>
    obtain ⟨t, g, run, activated, -⟩ := ingressActivation_of_quiet (quiet pkt (List.mem_singleton_self _))
      (inRange pkt (List.mem_singleton_self _))
    refine ⟨t, g, _, bind_of_ok s _ run, activated, fun id l => ?_⟩
    simp only [Option.toList_some, List.cons_append, List.nil_append, deliveredAll, List.append_nil]

theorem tmRail_of_quiet (n : Nat) (x : Option Packet) (quiet : ∀ pkt ∈ x.toList, QuietPipe s p pkt)
    (inRange : ∀ pkt ∈ x.toList.filter (fun x => x.kind == .resubmit),
      ∀ o ∈ tmFn s.params (quietOut s pkt), o.pipe < s.params.numPipes) :
    ∃ t g fresh, tmRail p n x s = .ok (n + x.toList.length) t ∧
      Activated p g x.toList.length
        (deliveredAll s s.coord.nextId (x.toList.filter fun x => x.kind == .resubmit))
        ((x.toList.filter fun x => x.kind != .resubmit).map fun x => txRecord s.params (quietOut s x)) fresh s t := by
  cases x with
  | none => exact ⟨s, 0, 0, rfl, .refl p s⟩
  | some pkt =>
    have quiet := quiet pkt (List.mem_singleton_self _)
    rw [Option.toList_some] at inRange ⊢
    by_cases kind : pkt.kind = .resubmit
    · have again : [pkt].filter (fun x => x.kind == .resubmit) = [pkt] := by simp [kind]
      have out : [pkt].filter (fun x => x.kind != .resubmit) = [] := by simp [kind]
      rw [again] at inRange
      obtain ⟨t, g, run, activated, -⟩ := ingressActivation_of_quiet quiet (inRange pkt (List.mem_singleton_self _))
      rw [again, out, tmRail, if_pos kind]
      exact ⟨t, g, _, bind_of_ok s _ run, activated⟩
    · have again : [pkt].filter (fun x => x.kind == .resubmit) = [] := by simp [kind]
      have out : [pkt].filter (fun x => x.kind != .resubmit) = [pkt] := by simp [kind]
      obtain ⟨t, g, run, activated, -⟩ := egressActivation_of_quiet quiet
      rw [again, out, tmRail, if_neg kind]
      exact ⟨t, g, _, bind_of_ok s _ run, activated⟩

/-- The delivered packets depend on the launch record alone. -/
theorem WalkKept.deliveredAll (h : WalkKept s t) : ∀ (l : List Packet) (id : Nat),
    deliveredAll t id l = deliveredAll s id l
  | [], _ => rfl
  | x :: l, id => by
    rw [Machine.deliveredAll, Machine.deliveredAll, h.quietOut, h.params, h.deliveredAll l]

/-- The packets of both rails are activated, each on its side. -/
theorem processHeld_of_quiet (h : Held) (quiet : ∀ x ∈ heldPackets (some h), QuietPipe s p x)
    (inRange : ∀ x ∈ ingressRail h, ∀ o ∈ tmFn s.params (quietOut s x), o.pipe < s.params.numPipes) :
    ∃ t g fresh, processHeld p h s = .ok (heldPackets (some h)).length t ∧
      Activated p g (heldPackets (some h)).length (deliveredAll s s.coord.nextId (ingressRail h))
        ((egressRail h).map fun x => txRecord s.params (quietOut s x)) fresh s t := by
  obtain ⟨s1, g1, fresh1, run1, first, split⟩ := inputRail_of_quiet h.inPkt
    (fun x hx => quiet x (List.mem_append_left _ hx)) (fun x hx => inRange x (List.mem_append_left _ hx))
  have kept := first.kept
  obtain ⟨t, g2, fresh2, run2, second⟩ := tmRail_of_quiet (s := s1) (p := p) h.inPkt.toList.length h.tmPkt
    (fun x hx => kept.quietPipe (quiet x (List.mem_append_right _ hx)))
    (fun x hx => by rw [kept.quietOut, kept.params]; exact inRange x (List.mem_append_right _ hx))
  simp only [kept.deliveredAll, first.nextId, kept.quietOut, kept.params] at second
  have both := first.trans second
  refine ⟨t, g1 + g2, fresh1 + fresh2, ?_, ?_⟩
  · rw [processHeld_eq, bind_of_ok s _ run1, run2, heldPackets, List.length_append]
  · rw [ingressRail, split, heldPackets, List.length_append]
    exact both

theorem release_eq_setCoord (w p n : Nat) (s : State) : ∃ c, release w p n s = s.setCoord c := ⟨_, rfl⟩

theorem walkKept_release (w p n : Nat) (s : State) : WalkKept s ((release w p n s).setResult .none) := by
  obtain ⟨c, release⟩ := release_eq_setCoord w p n s
  rw [release]
  exact .of_stores ⟨rfl, rfl, rfl, rfl, rfl, rfl, rfl, rfl, rfl, rfl, rfl, rfl⟩ rfl rfl

end

/-- Settles O57: the walk through the quiet stages, then what each side does with the packet; a worker's two rails one
after the other. -/
theorem activationsDeliverTheirPackets : Obligations.ActivationsDeliverTheirPackets := by
  refine ⟨fun s p pkt quiet => ⟨?_, fun inRange => ?_⟩, fun s w h hw processing held quiet inRange => ?_⟩
  · obtain ⟨t, g, run, activated, buses, coord⟩ := egressActivation_of_quiet quiet
    exact ⟨t.setResult .none, (outcome_onPipe quiet.1 _).trans (outcome_of_ok (bind_of_ok s _ run)),
      ⟨buses, activated.kept.stores, activated.kept.err, g, activated.pipes⟩, coord⟩
  · obtain ⟨t, g, run, activated, buses⟩ := ingressActivation_of_quiet quiet inRange
    exact ⟨t.setResult .none, (outcome_onPipe quiet.1 _).trans (outcome_of_ok (bind_of_ok s _ run)),
      ⟨buses, activated.kept.stores, activated.kept.err, g, activated.pipes⟩,
      activated.txOut.trans (List.append_nil _), activated.pending, activated.nextId⟩
  · obtain ⟨t, g, fresh, run, activated⟩ := processHeld_of_quiet h quiet inRange
    let n := (heldPackets (some h)).length
    have process : workerProcess w s = .ok () (release w h.pipe n t) := by
      unfold workerProcess
      simp only [look_bind, id, processing, held]
      exact bind_of_ok s _ run
    have keeps : t.worker w = s.worker w := (activated.workers w).resolve_right fun ⟨waits, _⟩ => by
      rw [processing] at waits
      cases waits
    have released : WalkKept t ((release w h.pipe n t).setResult .none) := walkKept_release w h.pipe n t
    have kept := activated.kept.trans released
    refine ⟨(release w h.pipe n t).setResult .none, g, (outcome_onWorker hw _).trans
      (outcome_of_ok (bind_of_ok s _ process)), kept.stores, kept.err, fun q => ?_, activated.txOut, ?_,
      ?_, fun w' hne => ?_⟩
    · refine (pipe_release w h.pipe n t q).trans ?_
      by_cases e : q = h.pipe
      · rw [if_pos e, ← e, activated.pipes q]
        simp [e]
      · rw [if_neg e, activated.pipes q]
        simp [e]
    · exact congrArg (· - n) activated.pending
    · refine (worker_release w h.pipe n t w).trans ?_
      rw [if_pos rfl, keeps]
    · have same : ((release w h.pipe n t).setResult .none).worker w' = t.worker w' :=
        (worker_release w h.pipe n t w').trans (if_neg hne)
      rw [same]
      exact (activated.workers w').imp_right And.right

end Sys2Proof.Machine
end
